-- ==== Sys2Proof/Word.lean ====
section
/-! DEFINITION. The widths of the Ervona 2460: words, bytes, addresses and ids (spec/00_scope.md, Sizes and addresses). -/

namespace Sys2Proof

/-- A word of 32 bits. -/
abbrev Word := BitVec 32

/-- A byte of 8 bits. -/
abbrev Byte := BitVec 8

/-- A byte address in the 24-bit space. -/
abbrev Addr := BitVec 24

/-- Node time, a 32-bit count of milliseconds (R76). -/
abbrev Time := BitVec 32

/-- A node id or the origin field of a frame, 12 bits (R181, R182). -/
abbrev NodeId := BitVec 12

/-- A truck, miner, segment or chamber id, 16 bits (R106, R182). -/
abbrev Id := BitVec 16

/-- A call id, 8 bits (R106). -/
abbrev CallId := BitVec 8

end Sys2Proof
end

