-- ==== Sys2Proof/Config.lean ====
section
/-! DEFINITION. The fixed capacities, sizes and codes of the part. The spec leaves no value open that an implementation
fixes, so this file holds no free value (notes/assumptions/1.md names what an unlisted byte of memory reads as). -/

namespace Sys2Proof.Config

/-- What a byte of memory reads as that nothing has written. DESIGN CHOICE (log entry 1): the spec gives the RAM no
contents after power-on. -/
def blankByte : Byte := 0

/-- The own-write queue holds up to 32 entries (R69). -/
def queueSize : Nat := 32

/-- The part send list holds up to 8 waiting frames (R91). -/
def sendListSize : Nat := 8

/-- The event ring holds 64 records (R175). -/
def ringRecords : Nat := 64

/-- The distress list holds up to 8 entries (R124). -/
def distressSize : Nat := 8

/-- A wait queue holds up to 8 entries (R132). -/
def waitQueueSize : Nat := 8

/-- An unauthorised occupant list holds up to 4 trucks (R132). -/
def unauthorisedSize : Nat := 4

/-- The part code of the identity word (R167). -/
def partCode : Nat := 0x2460

/-- The largest value of a saturating 16-bit count (R81, R113, R118, R172). -/
def countTop : Nat := 65535

/-- The end of an event hands on one thing at a time; this many are more than any event can have (log entry 4). -/
def settleBound : Nat := 20000

/-- The setting area's base for each strap value (R63). -/
def settingBase (strap : BitVec 2) : Nat :=
  match strap.toNat with
  | 0 => 0x03F000
  | 1 => 0x07F000
  | 2 => 0x0FF000
  | _ => 0x1FF000

/-- The first slot of each ring and, last, the end of the DATA ring, for the split codes A, B, C and D (R79). A code
that is none of the four never reaches RUN (SPLIT_CODE); it is given the boundaries of A here. -/
def splitBounds (code : Nat) : List Nat :=
  match code with
  | 2 => [0, 8, 16, 32, 64]
  | 3 => [0, 8, 16, 48, 64]
  | 4 => [0, 16, 24, 32, 64]
  | _ => [0, 16, 32, 48, 64]

end Sys2Proof.Config
end

