-- ==== Sys2Proof/Syntax.lean ====
section
/-! DEFINITION. The commands of the part, one constructor for each row of spec/opcode_table.json, with their operands.
A bus access carries the byte address and the data word of the access; a request carries the tag and the argument of the
request word; a line change carries the line and the pin's level; a timer expiry names the timer's owner; a dispatched frame
carries the fields the frame unit hands on (R107 to R110). -/

namespace Sys2Proof

/-- The initiator code of a bus access (R62). -/
inductive Initiator
  | controller | modem | sensor | other
  deriving DecidableEq, Repr

/-- A grade, in rising order (chapter 1). -/
inductive Grade
  | clear | notice | alarm | trip
  deriving DecidableEq, Repr

/-- The power kind of a truck (R106). -/
inductive Power
  | diesel | electric
  deriving DecidableEq, Repr

/-- A heading or a direction of passage (R106, R112). -/
inductive Heading
  | inbye | outbye
  deriving DecidableEq, Repr

/-- The origin of a call (R106): a chamber call names its chamber. -/
inductive CallOrigin
  | handset
  | chamber (id : Id)
  deriving DecidableEq, Repr

/-- The airlock state a REFUGE_STATUS frame reports (R106). -/
inductive AirlockReport
  | opened | shut
  deriving DecidableEq, Repr

/-- The commands. The strap operand of the three resets is the level of the strap lines when the reset samples them (R63). -/
inductive Instr
  -- resets and requests
  | powerOn (strap : BitVec 2)
  | resetInput (strap : BitVec 2)
  | start (tag : BitVec 8) (arg : BitVec 16)
  | restart (strap : BitVec 2) (tag : BitVec 8) (arg : BitVec 16)
  | resetCell (tag : BitVec 8) (arg : BitVec 16)
  | evacuate (tag : BitVec 8) (arg : BitVec 16)
  | endEvacuation (tag : BitVec 8) (arg : BitVec 16)
  | applyAdjustment (tag : BitVec 8) (arg : BitVec 16)
  | clearDistress (tag : BitVec 8) (arg : BitVec 16)
  | closeCall (tag : BitVec 8) (arg : BitVec 16)
  | clearTruck (tag : BitVec 8) (arg : BitVec 16)
  | checkOutMiner (tag : BitVec 8) (arg : BitVec 16)
  | unknownRequest (code : BitVec 8) (tag : BitVec 8) (arg : BitVec 16)
  -- bus accesses
  | settingWrite (addr : Addr) (data : Word)
  | adjustmentWrite (addr : Addr) (data : Word)
  | consumeIndexWrite (addr : Addr) (data : Word)
  | rawAirWrite (addr : Addr) (data : Word)
  | channelArmingRead (addr : Addr)
  | logArmingRead (addr : Addr)
  | ackWordRead (channel : Fin 24)
  | releaseWordRead
  | consumingRead (addr : Addr)
  | txWord0ControllerWrite (addr : Addr) (data : Word)
  | txWord2ControllerWrite (addr : Addr) (data : Word)
  | modemTxRead (addr : Addr)
  | modemTxPartialRead (addr : Addr) (lanes : BitVec 4)
  | modemTxWriteback (addr : Addr) (data : Word)
  | headerCaptureWrite (addr : Addr) (data : Word)
  | receiveCompletion (addr : Addr) (data : Word)
  | partialWrite (init : Initiator) (addr : Addr) (lanes : BitVec 4) (data : Word)
  | guardWrite (init : Initiator) (addr : Addr) (lanes : BitVec 4) (data : Word)
  | plainWrite (init : Initiator) (addr : Addr) (lanes : BitVec 4) (data : Word)
  -- lines, idle memory cycles and time
  | confirmInChange (line : Fin 8) (pin : Bool)
  | drain
  | startScanRead
  | patrolRead
  | timeBaseTick
  -- expiries
  | staleTimerExpiry (channel : Fin 24)
  | rateWindowExpiry
  | repeatTimerExpiry
  | patrolTimerExpiry
  | remoteAlertExpiry
  | confirmTimerExpiry (cell : Fin 4)
  | callSilenceExpiry (position : Fin 8)
  | grantTimerExpiry (segment : Fin 16) (truck : Id)
  | truckStaleExpiry (position : Fin 32)
  | truckForgetExpiry (position : Fin 32)
  | chamberSilenceExpiry (chamber : Fin 4)
  | airlockTimerExpiry (chamber : Fin 4)
  -- dispatched frames
  | truckBeacon (truck : Id) (power : Power) (heading : Heading) (origin : NodeId) (current requested : Id)
  | callOpen (call : CallId) (miner : Id) (origin : CallOrigin)
  | callClose (call : CallId)
  | voice (call : CallId)
  | distress (miner : Id) (call : CallId) (node : NodeId)
  | checkIn (chamber : Fin 4) (miner : Id)
  | checkOut (chamber : Fin 4) (miner : Id)
  | refugeStatus (chamber : Fin 4) (airlock : AirlockReport) (o2 co headcount : BitVec 16)
  | evacuateFrame (hop : BitVec 4) (relay cause : NodeId) (seq : BitVec 8) (reason : BitVec 4)
  | airAlarmFrame (origin : NodeId) (channel : Fin 24) (grade : Grade)
  | evacuatingReevaluation
  deriving DecidableEq, Repr

end Sys2Proof
end

