-- ==== Sys2Proof/WellFormed.lean ====
section
/-! DEFINITION. Which commands are well formed: the access a row names is a full-word or a partial access as the row says
(R62), and a dispatched frame's fields hold values R106 defines. A command that is not well formed still has a meaning: an
access is served as what it is (log entry 6), and a frame with an undefined field is not acted on (R105). -/

namespace Sys2Proof

/-- A full-word access: a word-aligned address with all four byte lanes active (R62). -/
def fullWordAccess (addr : Addr) (lanes : BitVec 4) : Bool :=
  addr.toNat % 4 == 0 && lanes == 0xF

/-- A node id a frame may name: 1 to 4,094 (R104). -/
def nodeDefined (n : NodeId) : Bool := n != 0 && n != 4095

/-- The codes of the ten requests are 1 to 10 (R182). -/
def requestCodeKnown (code : BitVec 8) : Bool := 1 ≤ code.toNat && code.toNat ≤ 10

/-- The operands of a command are ones its row can carry. -/
def Instr.wellFormed : Instr → Bool
  | .unknownRequest code _ _ => !requestCodeKnown code
  | .settingWrite a _ | .adjustmentWrite a _ | .consumeIndexWrite a _ | .rawAirWrite a _ => fullWordAccess a 0xF
  | .channelArmingRead a | .logArmingRead a | .consumingRead a => fullWordAccess a 0xF
  | .txWord0ControllerWrite a _ | .txWord2ControllerWrite a _ => fullWordAccess a 0xF
  | .modemTxRead a | .modemTxWriteback a _ | .headerCaptureWrite a _ | .receiveCompletion a _ => fullWordAccess a 0xF
  | .modemTxPartialRead a lanes => !fullWordAccess a lanes
  | .partialWrite _ a lanes _ => !fullWordAccess a lanes
  | .truckBeacon truck _ _ origin _ _ => truck != 0 && nodeDefined origin
  | .callOpen call miner origin =>
    call != 0 && miner != 0 && (match origin with | .handset => true | .chamber id => id != 0)
  | .callClose call | .voice call => call != 0
  | .distress miner _ node => miner != 0 && nodeDefined node
  | .checkIn _ miner | .checkOut _ miner => miner != 0
  | .evacuateFrame _ relay cause _ _ => nodeDefined relay && nodeDefined cause
  | .airAlarmFrame origin _ _ => nodeDefined origin
  | .powerOn _ | .resetInput _ | .start _ _ | .restart _ _ _ | .resetCell _ _ | .evacuate _ _ | .endEvacuation _ _
  | .applyAdjustment _ _ | .clearDistress _ _ | .closeCall _ _ | .clearTruck _ _ | .checkOutMiner _ _
  | .ackWordRead _ | .releaseWordRead | .guardWrite _ _ _ _ | .plainWrite _ _ _ _ | .confirmInChange _ _
  | .drain | .startScanRead | .patrolRead | .timeBaseTick | .staleTimerExpiry _ | .rateWindowExpiry
  | .repeatTimerExpiry | .patrolTimerExpiry | .remoteAlertExpiry | .confirmTimerExpiry _ | .callSilenceExpiry _
  | .grantTimerExpiry _ _ | .truckStaleExpiry _ | .truckForgetExpiry _ | .chamberSilenceExpiry _
  | .airlockTimerExpiry _ | .refugeStatus _ _ _ _ _ | .evacuatingReevaluation => true

end Sys2Proof
end

