-- ==== Sys2Proof/Decode.lean ====
section
/-! DEFINITION. The words that spell a command. No row of spec/opcode_table.json gives bits (every "fields" is empty and none
has a "fixed"), so no word spells a command; the part is commanded by bus accesses and events, not by encoded words. -/

namespace Sys2Proof

/-- The command that a word of `nbits` bits spells by the table's bits: none, since no row of the table gives bits. -/
def decodeTableWord (_nbits _w : Nat) : Option Instr := none

end Sys2Proof
end

