-- ==== Sys2Proof/Machine/State.lean ====
section
/-! DEFINITION. The state of the part, unit by unit, as plain data, and its value after POWER_ON (State.reset). -/

namespace Sys2Proof.Machine

/-- No meaning ends in a fault: the spec gives every command an effect in every state, and the 24-bit address space has no
address that does not exist. The type has no constructor, so that a fault cannot be raised. -/
inductive Fault
  deriving DecidableEq, Repr

/-- Why a command is refused. -/
inductive Refusal
  /-- Raised by exec for a command that has no meaning yet; safe. No arm of exec raises it. -/
  | notModelled (mnemonic : String)
  deriving DecidableEq, Repr

/-! ## Timers (R77, R78) -/

/-- A timeout: off, running with the unit ticks counted so far and its length, or expired (R77). A running timeout whose
count has reached its length is due: its expiry is the owner's event and has not been taken yet. -/
inductive Timer
  | off
  | running (count length : Nat)
  | expired
  deriving DecidableEq, Repr

/-- A period timer (R78): the period of a running timer, the unit ticks counted toward the next expiry, the staged period,
and whether an expiry is due and not taken yet. -/
structure PeriodTimer where
  period : Option Nat := none
  count  : Nat := 0
  staged : Option Nat := none
  due    : Bool := false
  deriving DecidableEq, Repr

/-! ## Settings (chapters 1 to 3, 5, 7 to 11; layouts R182) -/

/-- The gas of a chamber source. -/
inductive Gas
  | o2 | co
  deriving DecidableEq, Repr

/-- A channel's source (1.1). -/
inductive Source
  | off
  | localInput (input : Fin 16)
  | chamber (index : Fin 4) (gas : Gas)
  deriving DecidableEq, Repr

/-- The values of a channel that an adjustment may change (R14). -/
structure Thresholds where
  t1   : Nat := 0
  t2   : Nat := 0
  t3   : Nat := 0
  hyst : Nat := 0
  rate : Nat := 0
  deriving DecidableEq, Repr

/-- A channel's settings (1.1). -/
structure ChannelSet where
  source      : Source := .off
  falling     : Bool := false
  alerting    : Bool := false
  faultGrade  : Grade := .clear
  shift       : Nat := 0
  partner     : Option (Fin 32) := none
  zero        : Nat := 0
  underMargin : Nat := 0
  span        : Nat := 0
  fullScale   : Nat := 0
  limits      : Thresholds := {}
  staleTime   : Nat := 0
  agreeLimit  : Nat := 0
  agreeTime   : Nat := 1
  deriving DecidableEq, Repr

/-- A trip cell's mode (R34). -/
inductive CellMode
  | any | all | twoOfFour | threeOfFour | pairsEither | pairsBoth
  deriving DecidableEq, Repr

/-- A selector as written: its index, n, code and invert flag (R182, R33). -/
structure Selector where
  index  : Fin 32 := 0
  n      : Fin 4 := 0
  code   : Fin 16 := 0
  invert : Bool := false
  deriving DecidableEq, Repr

/-- A trip cell's settings (R32). -/
structure CellSet where
  enabled         : Bool := false
  mode            : CellMode := .any
  outputInvert    : Bool := false
  evacuateOnTrip  : Bool := false
  confirmRequired : Bool := false
  confirmTimeout  : Nat := 0
  inputs          : Vector Selector 4 := Vector.replicate 4 {}
  deriving DecidableEq, Repr

/-- A line's function with its argument (R42). -/
inductive LineFn
  | none
  | tripOut (cell : Fin 4)
  | confirmIn (cell : Fin 4)
  | beacon | siren | attention
  deriving DecidableEq, Repr

/-- A line's setting (R42). -/
structure LineSet where
  fn     : LineFn := .none
  invert : Bool := false
  deriving DecidableEq, Repr

/-- A segment entry's settings (R130). -/
structure SegmentSet where
  id         : Id := 0
  controlled : Bool := false
  convoy     : Nat := 1
  gate       : BitVec 24 := 0
  grantTime  : Nat := 0
  deriving DecidableEq, Repr

/-- A chamber entry's settings (R152). -/
structure ChamberSet where
  id           : Id := 0
  capacity     : Nat := 1
  silenceTime  : Nat := 0
  airlockLimit : Nat := 0
  o2           : Option (Fin 32) := none
  co           : Option (Fin 32) := none
  deriving DecidableEq, Repr

/-- An escalation code of a FAULTS word (R172). -/
inductive Escalation
  | default | none | alert | evacuate
  deriving DecidableEq, Repr

/-- A fault kind's settings (R172). -/
structure FaultSetting where
  logOff     : Bool := false
  escalation : Escalation := .default
  deriving DecidableEq, Repr

/-- The NODE settings (R182). -/
structure NodeSet where
  nodeId        : NodeId := 0
  split         : Nat := 0
  hop           : BitVec 4 := 0
  clock         : Nat := 0
  repeatPeriod  : Nat := 1
  rateWindow    : Nat := 0
  patrol        : Nat := 0
  remoteHold    : Nat := 0
  truckStale    : Nat := 0
  truckForget   : Nat := 1
  silenceTime   : Nat := 0
  silenceAny    : Bool := false
  deriving DecidableEq, Repr

/-- The seven bases of the REGION section (R64). -/
structure Regions where
  report     : Addr := 0
  events     : Addr := 0
  rawAir     : Addr := 0
  txSlots    : Addr := 0
  rxSlots    : Addr := 0
  rxBuffers  : Addr := 0
  partFrames : Addr := 0
  deriving DecidableEq, Repr

/-- The setting copies (R163). The default value is what POWER_ON leaves: every field 0, or the value a section takes for a
written 0 (R1, R55, R130, R131, R152). -/
structure Settings where
  regions  : Regions := {}
  node     : NodeSet := {}
  channels : Vector ChannelSet 24 := Vector.replicate 24 {}
  cells    : Vector CellSet 4 := Vector.replicate 4 {}
  lines    : Vector LineSet 8 := Vector.replicate 8 {}
  segments : Vector SegmentSet 16 := Vector.replicate 16 {}
  chambers : Vector ChamberSet 4 := Vector.replicate 4 {}
  faults   : Vector FaultSetting 12 := Vector.replicate 12 {}
  deriving DecidableEq, Repr

/-- The staged adjustment words (R168). -/
structure Staged where
  channels     : Vector Thresholds 24 := Vector.replicate 24 {}
  rateWindow   : Nat := 0
  repeatPeriod : Nat := 1
  patrol       : Nat := 0
  deriving DecidableEq, Repr

/-! ## The air unit (R2) -/

/-- A channel's fault set. -/
structure FaultFlags where
  fe        : Bool := false
  under     : Bool := false
  saturated : Bool := false
  stale     : Bool := false
  disagree  : Bool := false
  deriving DecidableEq, Repr

/-- A channel's state (R2), with the thresholds, hysteresis and rate limit in effect (R1). -/
structure Channel where
  a16           : Nat := 0
  last          : Nat := 0
  raw           : Option (BitVec 12) := none
  seq           : Option (BitVec 4) := none
  seen          : Bool := false
  computed      : Grade := .clear
  rising        : Bool := false
  windowStart   : Nat := 0
  live          : Grade := .clear
  latched       : Grade := .clear
  faults        : FaultFlags := {}
  stale         : Timer := .off
  disagreeStart : Option Time := none
  waiting       : Option Thresholds := none
  limits        : Thresholds := {}
  deriving DecidableEq, Repr

/-! ## The trip unit (R36, R41) -/

/-- A trip cell's state. -/
inductive CellState
  | idle | ready | tripped | isolated | unconfirmed
  deriving DecidableEq, Repr

/-- A trip cell: its state, its demand, the four input truths as last evaluated, and its confirm timer. -/
structure Cell where
  state   : CellState := .idle
  demand  : Bool := false
  truths  : Vector Bool 4 := Vector.replicate 4 false
  confirm : Timer := .off
  deriving DecidableEq, Repr

/-! ## The level unit (R46) -/

/-- The evacuation level. -/
inductive Level
  | normal | alert | evacuate
  deriving DecidableEq, Repr

/-- A member of the ALERT cause set (R48). The fault alert latch is set exactly while `latch` is a member. -/
inductive AlertMember
  | channel (c : Fin 24)
  | distress
  | cell (i : Fin 4)
  | remote
  | segment (s : Fin 16)
  | chamber (c : Fin 4)
  | latch
  deriving DecidableEq, Repr

/-- The kind of an evacuation cause (R51). -/
inductive CauseKind
  | cell | fault | remote | request
  deriving DecidableEq, Repr

/-- The cause record (R51). -/
structure Cause where
  kind   : CauseKind
  node   : NodeId
  seq    : BitVec 8
  hop    : Option (BitVec 4)
  reason : BitVec 4
  time   : Time
  deriving DecidableEq, Repr

/-- An evacuation cause as it was taken, with the fault kind of a FAULT cause, 0 for any other (R51, R53). -/
structure TakenCause where
  cause : Cause
  fault : Nat
  deriving DecidableEq, Repr

/-- The muster summary as last queued (R61). -/
structure Muster where
  counts   : Vector Nat 4 := Vector.replicate 4 0
  distress : Nat := 0
  lost     : Nat := 0
  entry    : Time := 0
  current  : Bool := false
  deriving DecidableEq, Repr

/-- The level unit (R46). `ended` is the ended cause's origin node and sequence. `taken` is the model's own: the causes taken
since the level was last derived, the one that filled the cause record first, which the derivation hands on (R47, R54). -/
structure LevelUnit where
  level       : Level := .normal
  alerts      : List AlertMember := []
  remote      : Timer := .off
  cause       : Option Cause := none
  ownSeq      : BitVec 8 := 0
  ended       : Option (NodeId × BitVec 8) := none
  repeatTimer : PeriodTimer := {}
  muster      : Muster := {}
  taken       : List TakenCause := []
  deriving DecidableEq, Repr

/-! ## The ring unit (R81, R91, R94) -/

/-- A shadow's state (R81). -/
inductive ShadowState
  | empty | ready | inFlight | unknown
  deriving DecidableEq, Repr

/-- What the modem was shown for an IN_FLIGHT slot (R81). -/
inductive Shown
  | owned | discard
  deriving DecidableEq, Repr

/-- The shadow of a transmit slot (R81). -/
structure Shadow where
  state   : ShadowState := .empty
  scanned : Bool := false
  length  : BitVec 11 := 0
  tag     : BitVec 8 := 0
  dest    : BitVec 12 := 0
  kind    : BitVec 8 := 0
  shown   : Option Shown := none
  deriving DecidableEq, Repr

/-- The slot last shown OWNED with its tag, kind and destination (R81). -/
structure LastShown where
  slot : Fin 64
  tag  : BitVec 8
  kind : BitVec 8
  dest : BitVec 12
  deriving DecidableEq, Repr

/-- A ring's record (R81). The ready count is the number of the ring's READY shadows and is computed from them. -/
structure RingRecord where
  next      : Option (Fin 64) := none
  held      : Nat := 0
  discards  : Nat := 0
  failed    : Nat := 0
  lastShown : Option LastShown := none
  deriving DecidableEq, Repr

/-- The alarm reasons of a chamber (R161). -/
structure Reasons where
  gas     : Bool := false
  silent  : Bool := false
  airlock : Bool := false
  deriving DecidableEq, Repr

/-- The reason of a REVOKE frame (R112). -/
inductive RevokeReason
  | gas | evacuation | lapsed | cleared
  deriving DecidableEq, Repr

/-- A frame the part builds, with the subject and payload its request carries (R91, R112). -/
inductive PartFrame
  | evacuate (node : NodeId) (seq : BitVec 8) (reason : BitVec 4) (hop : BitVec 4)
  | distressRelay (miner : Id) (first : Time) (node : NodeId)
  | airAlarm (channel : Fin 24) (held : Grade) (average : Nat)
  | refugeAlarm (chamber : Id) (reasons : Reasons)
  | halt (segment : Id)
  | revoke (truck segment : Id) (reason : RevokeReason)
  | grant (truck segment : Id) (direction : Heading)
  deriving DecidableEq, Repr

/-- A frame record of a PART ring slot (R94). -/
structure FrameRecord where
  frame     : PartFrame
  seq       : BitVec 8
  withdrawn : Bool
  deriving DecidableEq, Repr

/-- The ring unit: shadows, the records of the PART, REFUGE, CALL and DATA rings (0 to 3), the part send list, the frame
records, the fill index and the part frame sequence. `requests` is the model's own: the frame requests the present event has
made and that its end takes into the list (R92). So is `departed`: the slots whose frame's call has left the table while the frame was
IN_FLIGHT, so that its SENT completion is no activity (R119, R123; log entry 37). -/
structure RingUnit where
  shadows  : Vector Shadow 64 := Vector.replicate 64 {}
  rings    : Vector RingRecord 4 := Vector.replicate 4 {}
  list     : List PartFrame := []
  records  : Vector (Option FrameRecord) 16 := Vector.replicate 16 none
  fill     : Fin 16 := 0
  seq      : BitVec 8 := 0
  requests : List PartFrame := []
  departed : Vector Bool 64 := Vector.replicate 64 false
  deriving DecidableEq, Repr

/-! ## The frame unit (R100, R113) -/

/-- A dispatched frame with the fields its receiving unit is handed (R107 to R110). -/
inductive Frame
  | truckBeacon (truck : Id) (power : Power) (heading : Heading) (origin : NodeId) (current requested : Id)
  | callOpen (call : CallId) (miner : Id) (origin : CallOrigin)
  | callClose (call : CallId)
  | voice (call : CallId)
  | distress (miner : Id) (call : CallId) (node : NodeId)
  | checkIn (chamber : Fin 4) (miner : Id)
  | checkOut (chamber : Fin 4) (miner : Id)
  | refugeStatus (chamber : Fin 4) (airlock : AirlockReport) (o2 co headcount : BitVec 16)
  | evacuate (hop : BitVec 4) (relay cause : NodeId) (seq : BitVec 8) (reason : BitVec 4)
  | airAlarm (origin : NodeId) (channel : Fin 24) (grade : Grade)
  deriving DecidableEq, Repr

/-- A capture entry: each header word, absent while its captured flag is clear (R100). -/
structure Capture where
  h0 : Option Word := none
  h1 : Option Word := none
  h2 : Option Word := none
  h3 : Option Word := none
  deriving DecidableEq, Repr

/-- The last dispatched frame (R113). -/
structure LastFrame where
  slot   : Fin 32
  kind   : BitVec 8
  origin : NodeId
  seq    : BitVec 8
  deriving DecidableEq, Repr

/-- The frame unit. `handover` is the frame dispatched by the last completion whose receiving unit has not taken it yet (R111). -/
structure FrameUnit where
  capture    : Vector Capture 32 := Vector.replicate 32 {}
  dispatched : Nat := 0
  ignored    : Nat := 0
  badCheck   : Nat := 0
  last       : Option LastFrame := none
  handover   : Option Frame := none
  deriving DecidableEq, Repr

/-! ## The call unit (R115, R124) -/

/-- A call's priority (R116). -/
inductive Priority
  | ordinary | refuge | distress
  deriving DecidableEq, Repr

/-- A call entry (R115). -/
structure Call where
  id       : CallId
  miner    : Id
  origin   : CallOrigin
  priority : Priority
  opened   : Time
  last     : Time
  silence  : Timer
  deriving DecidableEq, Repr

/-- A distress entry (R124). -/
structure Distress where
  miner : Id
  node  : NodeId
  first : Time
  last  : Time
  call  : Option CallId
  deriving DecidableEq, Repr

/-- The call unit. `order` lists the occupied positions in the order of admission, oldest first (R115). -/
structure CallUnit where
  table         : Vector (Option Call) 8 := Vector.replicate 8 none
  order         : List (Fin 8) := []
  refused       : Nat := 0
  preempted     : Nat := 0
  silenceCloses : Nat := 0
  distress      : List Distress := []
  overflow      : Nat := 0
  deriving DecidableEq, Repr

/-! ## The roadway unit (R132, R133) -/

/-- A segment's direction (R132). -/
inductive Direction
  | free | inbye | outbye | conflict
  deriving DecidableEq, Repr

/-- A holder: its truck, the granted direction and the grant timer (R132). -/
structure Holder where
  truck : Id
  dir   : Heading
  grant : Timer
  deriving DecidableEq, Repr

/-- A wait queue entry (R132). -/
structure Waiter where
  truck : Id
  dir   : Heading
  deriving DecidableEq, Repr

/-- A segment's state (R132); `marked`: its queue is marked to be served at the end of the event (R142). -/
structure Segment where
  direction    : Direction := .free
  holders      : List Holder := []
  granted      : List Id := []
  unauthorised : List Id := []
  queue        : List Waiter := []
  gated        : Grade := .clear
  marked       : Bool := false
  deriving DecidableEq, Repr

/-- A truck (R133). The truck is LOST exactly while its lost time is present. -/
structure Truck where
  id          : Id
  power       : Power
  heading     : Heading
  lastSegment : Id
  lastBeacon  : Time
  lost        : Option Time
  stale       : Timer
  forget      : Timer
  deriving DecidableEq, Repr

/-- The roadway unit. -/
structure RoadUnit where
  segments  : Vector Segment 16 := Vector.replicate 16 {}
  trucks    : Vector (Option Truck) 32 := Vector.replicate 32 none
  queueFull : Nat := 0
  tableFull : Nat := 0
  deriving DecidableEq, Repr

/-! ## The refuge unit (R153) -/

/-- A chamber's airlock (R153). -/
inductive Airlock
  | unknown | opened | shut
  deriving DecidableEq, Repr

/-- A chamber's state (R153). Occupancy is OCCUPIED while the list is not empty or the overflow is above 0 and is computed. -/
structure Chamber where
  occupants    : List Id := []
  overflow     : Nat := 0
  airlock      : Airlock := .unknown
  lastReport   : Option Time := none
  headcount    : Option (BitVec 16) := none
  silent       : Bool := false
  airlockLong  : Bool := false
  mismatch     : Bool := false
  alarm        : Bool := false
  reasons      : Reasons := {}
  silenceTimer : Timer := .off
  airlockTimer : Timer := .off
  deriving DecidableEq, Repr

/-! ## The fault and event unit (R172, R173, R176) -/

/-- The twelve fault kinds (R172). -/
inductive FaultKind
  | guardWrite | partialWrite | slotCollision | completionStray | shortHeader | badFrame
  | ownWriteStall | eventLost | mirrorMismatch | sensorFault | isolatorNoConfirm | frameDropped
  deriving DecidableEq, Repr

/-- A fault's identifiers (11.1): bus identifiers, or own identifiers with the unit's code, an index and a data word. -/
inductive FaultId
  | bus (init : Initiator) (addr : Addr) (data : Word)
  | own (unit : Nat) (index data : Word)
  deriving DecidableEq, Repr

/-- What the first-fault log holds while HELD (R173). -/
structure LogEntry where
  kind    : FaultKind
  ident   : FaultId
  time    : Time
  further : Nat
  deriving DecidableEq, Repr

/-- The fault and event unit; the log is EMPTY while it is absent. -/
structure FaultUnit where
  counters : Vector Nat 12 := Vector.replicate 12 0
  log      : Option LogEntry := none
  produce  : BitVec 16 := 0
  consume  : BitVec 16 := 0
  patrol   : PeriodTimer := {}
  deriving DecidableEq, Repr

/-! ## The path unit (R26, R69, R71, R74, R167) -/

/-- The kind of an own-write (R69). -/
inductive OwnWriteKind
  | coalescing | trailing | plain
  deriving DecidableEq, Repr

/-- An own-write; its notice names the PART ring slot whose word 0 it is (R69, R72). -/
structure OwnWrite where
  addr   : Addr
  data   : Word
  kind   : OwnWriteKind
  notice : Option (Fin 16) := none
  deriving DecidableEq, Repr

/-- The target of an arming read (R26). -/
inductive ArmTarget
  | channel (c : Fin 24)
  | log
  deriving DecidableEq, Repr

/-- An armed ack arming record (R26). -/
structure Arming where
  target : ArmTarget
  shown  : Nat
  deriving DecidableEq, Repr

/-- What an event hands on to memory, in order: an own-write, a mirror word queued if the event changed it, or a mirror word
queued whatever its value. -/
inductive Post
  | write (w : OwnWrite)
  | changed (offset : Nat)
  | always (offset : Nat)
  deriving DecidableEq, Repr

/-- The path unit. `posts`, `reports`, `outcome` and `shown` are the model's own: what the present event has handed on and has not yet
put into the own-write queue, and the report words that it has put there, the last first, each with the value it had then (log entry
20). `posts` enter in the order they were handed on; then `reports`, the report words that the rules put at
the end of the event (R41, R45, R60, R86, R98, R113, R123, R125, R128, R129, R151, R162); then the outcome word (R164). The sweep
is absent when it has ended. -/
structure PathUnit where
  queue         : List OwnWrite := []
  followUp      : Option Word := none
  arming        : Option Arming := none
  sweep         : Option Nat := none
  scanCursor    : Nat := 0
  patrolCursor  : Nat := 0
  patrolPending : Bool := false
  posts         : List Post := []
  reports       : List Post := []
  outcome       : Option Word := none
  shown         : List (Nat × Word) := []
  deriving DecidableEq, Repr

/-- The kind of the last reset (R170). -/
inductive ResetKind
  | powerOn | resetInput | restart
  deriving DecidableEq, Repr

/-! ## The whole part -/

/-- The state of the part and of the node's RAM. `effective` is the settings put in effect at RUN entry (R166); `pins` the
level the outside gives each line's pin; `sampled` the logical value of each CONFIRM_IN line as last taken; `drive` what the
part drives on each line, absent while the line is undriven (R43); `readData` the data the last bus read returned; `waitCycles`
the memory cycles that the stalls of the last event took, in which the wait line holds a bus access back (R73); `pending` the
commands waiting, first in first out. -/
structure State where
  pending    : List Instr := []
  run        : Bool := false
  strap      : BitVec 2 := 0
  resetKind  : ResetKind := .powerOn
  resetCount : Nat := 0
  copies     : Settings := {}
  staged     : Staged := {}
  effective  : Settings := {}
  mem        : List Host.Cell := []
  readData   : Word := 0
  waitCycles : Nat := 0
  pins       : Vector Bool 8 := Vector.replicate 8 false
  sampled    : Vector Bool 8 := Vector.replicate 8 false
  drive      : Vector (Option Bool) 8 := Vector.replicate 8 none
  time       : Time := 0
  path       : PathUnit := {}
  channels   : Vector Channel 24 := Vector.replicate 24 {}
  rate       : PeriodTimer := {}
  cells      : Vector Cell 4 := Vector.replicate 4 {}
  reevalDue  : Bool := false
  level      : LevelUnit := {}
  ring       : RingUnit := {}
  frame      : FrameUnit := {}
  call       : CallUnit := {}
  road       : RoadUnit := {}
  chambers   : Vector Chamber 4 := Vector.replicate 4 {}
  fault      : FaultUnit := {}
  deriving DecidableEq, Repr

/-- The machine right after POWER_ON with strap value 0 and every pin low (R170; log entries 1 and 2): SETUP, every table
empty, every setting copy cleared, memory with nothing listed, no command waiting. -/
def State.reset : State := {}

end Sys2Proof.Machine
end

