-- ==== Sys2Proof/Machine/Ops.lean ====
section
/-! DEFINITION. The named operations every unit uses: bit fields, tables, memory, timers, what an event hands on, the own-write
queue, faults and event records, the ALERT cause set and the part send list's requests and withdrawals. -/

namespace Sys2Proof.Machine

open Sys2Proof.Config

/-! ## Bit fields -/

/-- Field `lo + n - 1 : lo` of a word (12, "n:m"). -/
def bits {w : Nat} (x : BitVec w) (lo n : Nat) : BitVec n := x.extractLsb' lo n

/-- Field `lo + n - 1 : lo` of a word as a number. -/
def fieldNat {w : Nat} (x : BitVec w) (lo n : Nat) : Nat := (bits x lo n).toNat

/-- Bit `k` of a word. -/
def bitOf {w : Nat} (x : BitVec w) (k : Nat) : Bool := x.getLsbD k

/-- A word laid out from its fields, each given as (low bit, width, value); every other bit is 0 (R179). -/
def layout (fields : List (Nat × Nat × Nat)) : Word :=
  BitVec.ofNat 32 (fields.foldl (fun acc f => acc + (f.2.2 % 2 ^ f.2.1) * 2 ^ f.1) 0)

/-- Fields packed from bit 0 upward from bit `at` on, each given as (width, value); a field that would pass bit 31 is left
out (R184). -/
def packFrom : Nat → List (Nat × Nat) → Nat
  | _, [] => 0
  | pos, (width, value) :: rest =>
    (if pos + width ≤ 32 then (value % 2 ^ width) * 2 ^ pos else 0) + packFrom (pos + width) rest

/-- The detail word of an event record (R184). -/
def detail (fields : List (Nat × Nat)) : Word := BitVec.ofNat 32 (packFrom 0 fields)

/-- The word whose value is `n` modulo 2^32. -/
def word (n : Nat) : Word := BitVec.ofNat 32 n

/-- The address `n` modulo 2^24. -/
def address (n : Nat) : Addr := BitVec.ofNat 24 n

/-- A saturating count's next value (Arithmetic, 00_scope). -/
def saturate (top n : Nat) : Nat := if n < top then n + 1 else n

/-! ## Tables -/

/-- Entry `i` changed by `f`. -/
def modifyAt {α : Type} {n : Nat} (v : Vector α n) (i : Fin n) (f : α → α) : Vector α n := v.set i (f v[i])

/-- Every entry changed by `f`. -/
def mapTable {α β : Type} {n : Nat} (f : α → β) (v : Vector α n) : Vector β n :=
  ⟨⟨v.toList.map f⟩, by simp⟩

/-- The table with the entry `f i` at each index. -/
def tabulate {α : Type} {n : Nat} (f : Fin n → α) : Vector α n := ⟨⟨(List.finRange n).map f⟩, by simp⟩

/-- The first index of a table whose entry satisfies `p`. -/
def findIndex {α : Type} {n : Nat} (v : Vector α n) (p : α → Bool) : Option (Fin n) :=
  (List.finRange n).find? (fun i => p v[i])

/-- How many entries satisfy `p`. -/
def countWhere {α : Type} {n : Nat} (v : Vector α n) (p : α → Bool) : Nat := v.toList.countP p

/-- `f` done for each index in rising order. -/
def forEach {σ : Type} (n : Nat) (f : Fin n → σ → σ) (s : σ) : σ := (List.finRange n).foldl (fun t i => f i t) s

/-! ## Grades -/

/-- A grade's code (R181). -/
def Grade.code : Grade → Nat
  | .clear => 0 | .notice => 1 | .alarm => 2 | .trip => 3

/-- The grade of a code. -/
def Grade.ofCode : Nat → Grade
  | 0 => .clear | 1 => .notice | 2 => .alarm | _ => .trip

/-- The greater of two grades. -/
def Grade.sup (a b : Grade) : Grade := if Grade.code a < Grade.code b then b else a

/-- ALARM or above. -/
def Grade.atLeastAlarm (g : Grade) : Bool := 2 ≤ Grade.code g

/-! ## Memory -/

/-- What the byte at `a` reads as; an unlisted byte reads as the blank byte (log entry 1). -/
def memRead : List Host.Cell → Nat → Byte
  | [], _ => blankByte
  | (k, v) :: rest, a => if k = a then v else memRead rest a

/-- The cells with byte `a` set to `b`, in canonical form: addresses strictly rising and no cell equal to the blank byte. -/
def memWrite : List Host.Cell → Nat → Byte → List Host.Cell
  | [], a, b => if b = blankByte then [] else [(a, b)]
  | (k, v) :: rest, a, b =>
    if a < k then (if b = blankByte then (k, v) :: rest else (a, b) :: (k, v) :: rest)
    else if a = k then (if b = blankByte then rest else (k, b) :: rest)
    else (k, v) :: memWrite rest a b

/-- The canonical form: addresses strictly rising, each above `low` where it is given, and no cell equal to the blank byte. -/
def memOrdered : Option Nat → List Host.Cell → Bool
  | _, [] => true
  | low, (k, v) :: rest =>
    (match low with | none => true | some l => decide (l < k)) && v != blankByte && memOrdered (some k) rest

/-- Memory is in its canonical form. -/
def Memory.wf (m : List Host.Cell) : Bool := memOrdered none m

/-- The address of the word that holds byte address `a` (R62). -/
def wordBase (a : Nat) : Nat := a / 4 * 4

/-- The word at word address `a`; the byte at the lowest address is bits 7:0 (log entry 5). -/
def memWord (m : List Host.Cell) (a : Nat) : Word :=
  memRead m (a + 3) ++ memRead m (a + 2) ++ memRead m (a + 1) ++ memRead m a

/-- Byte lane `k` of a word. -/
def laneByte (w : Word) (k : Nat) : Byte := bits w (8 * k) 8

/-- The lanes of a word written at word address `a` (R62; log entry 5). -/
def memWriteLanes (m : List Host.Cell) (a : Nat) (lanes : BitVec 4) (w : Word) : List Host.Cell :=
  (List.range 4).foldl (fun m k => if bitOf lanes k then memWrite m (a + k) (laneByte w k) else m) m

/-- A whole word written at word address `a`. -/
def memWriteWord (m : List Host.Cell) (a : Nat) (w : Word) : List Host.Cell := memWriteLanes m a 0xF w

/-! ## Timers -/

/-- A start event (R77): a length of 0 leaves the timeout off. -/
def Timer.start (n : Nat) : Timer := if n = 0 then .off else .running 0 n

/-- One unit tick (R77). -/
def Timer.tick : Timer → Timer
  | .running c n => .running (if c < n then c + 1 else c) n
  | t => t

/-- The tick that brings the count to the length has come and the expiry has not been taken (R77; log entry 7). -/
def Timer.due : Timer → Bool
  | .running c n => decide (n ≤ c)
  | _ => false

/-- The code of a timer state field (R183). -/
def Timer.code : Timer → Nat
  | .off => 0 | .running _ _ => 1 | .expired => 2

/-- The timeout is running. -/
def Timer.isRunning (t : Timer) : Bool := Timer.code t == 1

/-- A period timer's state at RUN entry (R78): a period of 0 leaves it stopped. -/
def PeriodTimer.start (p : Nat) : PeriodTimer := { period := if p = 0 then none else some p }

/-- One unit tick of a period timer (R78). -/
def PeriodTimer.tick (t : PeriodTimer) : PeriodTimer :=
  match t.period with
  | none => t
  | some p => if p ≤ t.count + 1 then { t with count := 0, due := true } else { t with count := t.count + 1 }

/-- A newly applied period (R78): staged on a running timer; a stopped timer given a period other than 0 starts at once. -/
def PeriodTimer.apply (p : Nat) (t : PeriodTimer) : PeriodTimer :=
  match t.period with
  | some _ => { t with staged := some p }
  | none => if p = 0 then t else { period := some p }

/-- The end of an expiry (R78): the staged period, if any, becomes the period, and 0 stops the timer; the ticks since the expiry
tick go on counting. -/
def PeriodTimer.expire (t : PeriodTimer) : PeriodTimer :=
  match t.staged with
  | none => { t with due := false }
  | some p => if p = 0 then {} else { period := some p, count := t.count }

/-! ## What an event hands on -/

/-- The units hand on one more own-write or mirror word. -/
def post (p : Post) (s : State) : State := { s with path := { s.path with posts := s.path.posts ++ [p] } }

/-- Mirror words that are queued in their place among what the event hands on, if the event changed them (R17 step 3, R29 step 3,
R54 step 5, R172 step 4). -/
def postChanged (offsets : List Nat) (s : State) : State :=
  { s with path := { s.path with posts := s.path.posts ++ offsets.map Post.changed } }

/-- Mirror words that are queued in their place among what the event hands on, whatever their value (R61, R174 step 4, R178). -/
def postAlways (offsets : List Nat) (s : State) : State :=
  { s with path := { s.path with posts := s.path.posts ++ offsets.map Post.always } }

/-- Report words that are queued at the end of the event, behind everything else its units hand on, if the event changed them
(R41, R45, R60, R98, R113, R129, R151, R162). The order of these words among themselves is the order in which the event's steps name
them, which no rule gives (log entry 38, DESIGN CHOICE). -/
def reportChanged (offsets : List Nat) (s : State) : State :=
  { s with path := { s.path with reports := s.path.reports ++ offsets.map Post.changed } }

/-- Report words that are queued at the end of the event, behind everything else its units hand on, whatever their value. -/
def reportAlways (offsets : List Nat) (s : State) : State :=
  { s with path := { s.path with reports := s.path.reports ++ offsets.map Post.always } }

/-- A word address in the REPORT region. -/
def reportAddr (s : State) (offset : Nat) : Addr := address (s.effective.regions.report.toNat + offset)

/-- A word address in the EVENTS region. -/
def eventsAddr (s : State) (offset : Nat) : Addr := address (s.effective.regions.events.toNat + offset)

/-- A word address in the setting area. -/
def settingAddr (s : State) (offset : Nat) : Addr := address (settingBase s.strap + offset)

/-! ## Faults and event records -/

/-- A fault kind's code (R172). -/
def FaultKind.code : FaultKind → Nat
  | .guardWrite => 1 | .partialWrite => 2 | .slotCollision => 3 | .completionStray => 4
  | .shortHeader => 5 | .badFrame => 6 | .ownWriteStall => 7 | .eventLost => 8
  | .mirrorMismatch => 9 | .sensorFault => 10 | .isolatorNoConfirm => 11 | .frameDropped => 12

/-- A fault kind's place in the FAULTS section and among the counters. -/
def FaultKind.index (k : FaultKind) : Fin 12 := Fin.ofNat 12 (FaultKind.code k - 1)

/-- The unit codes of the first-fault log (12.4). -/
def unitPath : Nat := 1
/-- The air unit's code (12.4). -/
def unitAir : Nat := 2
/-- The trip unit's code (12.4). -/
def unitTrip : Nat := 3
/-- The ring unit's code (12.4). -/
def unitRing : Nat := 5
/-- The fault and event unit's code (12.4). -/
def unitFault : Nat := 10

/-- Steps 1 and 2 of recording a fault (R172): the counter rises and, if the kind is logged, the first-fault log takes it
(R173). -/
def countFault (k : FaultKind) (ident : FaultId) (s : State) : State :=
  let counters := modifyAt s.fault.counters (FaultKind.index k) (saturate countTop)
  let log :=
    if s.effective.faults[FaultKind.index k].logOff then s.fault.log
    else match s.fault.log with
      | none => some { kind := k, ident := ident, time := s.time, further := 0 }
      | some e => some { e with further := saturate 255 e.further }
  { s with fault := { s.fault with counters := counters, log := log } }

/-- Step 4 of recording a fault (R172): the changed counter word and log words. -/
def postFault (k : FaultKind) (s : State) : State :=
  postChanged [0x640 + 4 * ((FaultKind.code k - 1) / 2), 0x660, 0x664, 0x668, 0x66C] s

/-- The occupancy of the event ring (R176). -/
def occupancy (f : FaultUnit) : Nat := (f.produce - f.consume).toNat

/-- An event record added to the ring, or lost where it is full (R176); EVENT_LOST never escalates (R172). The line word is
reported where the ring was empty, since ATTENTION_OUT then rises (R45, R177). -/
def addRecord (kind subject : Nat) (info : Word) (s : State) : State :=
  if !s.run then s
  else if occupancy s.fault = ringRecords then
    postFault .eventLost (countFault .eventLost (.own unitFault (word kind) 0) s)
  else
    let place := 16 + 16 * (s.fault.produce.toNat % 64)
    let produce := s.fault.produce + 1
    let plain (k : Nat) (d : Word) : Post := .write { addr := eventsAddr s (place + 4 * k), data := d, kind := .plain }
    let posts := [plain 0 (word kind), plain 1 s.time, plain 2 (word subject), plain 3 info,
      .write { addr := eventsAddr s 0, data := word produce.toNat, kind := .trailing }]
    let attention : List Post := if occupancy s.fault = 0 then [.changed 0x110] else []
    { s with
      fault := { s.fault with produce := produce }
      path := { s.path with posts := s.path.posts ++ posts, reports := s.path.reports ++ attention } }

/-- A time named in a detail: whole seconds modulo 65,536 (R184). -/
def detailTime (t : Time) : Nat × Nat := (16, t.toNat / 1000)

/-- An id named in a detail takes 16 bits (R184). -/
def detailId (n : Nat) : Nat × Nat := (16, n)

/-! ## The ALERT cause set (R48) -/

/-- A member joins. A member already in the set does not change it. -/
def joinAlert (m : AlertMember) (s : State) : State :=
  if m ∈ s.level.alerts then s
  else reportChanged [0x010] { s with level := { s.level with alerts := s.level.alerts ++ [m] } }

/-- A member leaves. A member not in the set does not change it. -/
def leaveAlert (m : AlertMember) (s : State) : State :=
  if m ∈ s.level.alerts then
    reportChanged [0x010] { s with level := { s.level with alerts := s.level.alerts.filter (· ≠ m) } }
  else s

/-! ## Frame requests and withdrawals -/

/-- The urgency of a part frame's kind, 1 the most urgent (R91). -/
def PartFrame.urgency : PartFrame → Nat
  | .evacuate .. => 1 | .distressRelay .. => 2 | .airAlarm .. => 3 | .refugeAlarm .. => 4
  | .halt .. => 5 | .revoke .. => 6 | .grant .. => 7

/-- The kind code of a part frame (R96). -/
def PartFrame.code : PartFrame → Nat
  | .evacuate .. => 0x10 | .airAlarm .. => 0x11 | .distressRelay .. => 0x12 | .refugeAlarm .. => 0x13
  | .grant .. => 0x18 | .revoke .. => 0x19 | .halt .. => 0x1A

/-- The subject of a part frame (R91) as an event record carries it (R184). -/
def PartFrame.subject : PartFrame → Nat
  | .evacuate .. => 0
  | .distressRelay miner _ _ => miner.toNat
  | .airAlarm c _ _ => c.val
  | .refugeAlarm chamber _ => chamber.toNat
  | .halt seg => seg.toNat
  | .revoke truck seg _ => truck.toNat + seg.toNat * 65536
  | .grant truck seg _ => truck.toNat + seg.toNat * 65536

/-- A unit requests a frame; the list takes it at the end of the event (R92). -/
def requestFrame (f : PartFrame) (s : State) : State :=
  { s with ring := { s.ring with requests := s.ring.requests ++ [f] } }

/-- A unit withdraws every frame that `p` names, at whatever stage it stands (R97). -/
def withdrawFrames (p : PartFrame → Bool) (s : State) : State :=
  let mark : Option FrameRecord → Option FrameRecord
    | some r => some (if p r.frame then { r with withdrawn := true } else r)
    | none => none
  reportChanged [0x170] { s with ring := { s.ring with
    list := s.ring.list.filter (fun f => !p f)
    requests := s.ring.requests.filter (fun f => !p f)
    records := mapTable mark s.ring.records } }

/-! ## Rings (R79) -/

/-- The first slot of ring `r` under the split in effect; `ringStart s 4` is the end of the last ring. -/
def ringStart (s : State) (r : Nat) : Nat := (splitBounds s.effective.node.split).getD r 64

/-- The ring of a slot: 0 PART, 1 REFUGE, 2 CALL, 3 DATA. -/
def ringOf (s : State) (slot : Nat) : Fin 4 :=
  if slot < ringStart s 1 then 0 else if slot < ringStart s 2 then 1 else if slot < ringStart s 3 then 2 else 3

/-- The slot after `slot` in its ring. -/
def slotAfter (s : State) (slot : Nat) : Fin 64 :=
  let r := (ringOf s slot).val
  Fin.ofNat 64 (if slot + 1 = ringStart s (r + 1) then ringStart s r else slot + 1)

/-- The ready count of a ring: the number of its slots whose shadow is READY (R81). -/
def readyCount (s : State) (r : Nat) : Nat :=
  ((s.ring.shadows.toList.take (ringStart s (r + 1))).drop (ringStart s r)).countP (fun h => h.state == .ready)

/-- The report words of a ring and the slot state word of one of its slots (R98): the ring pair, the count pair, the slot state word.
R98 gives the words of one event no order among themselves (log entry 38, DESIGN CHOICE). -/
def postRing (slot : Nat) (s : State) : State :=
  let r := (ringOf s slot).val
  reportChanged [0x120 + 16 * r, 0x124 + 16 * r, 0x128 + 16 * r, 0x12C + 16 * r, 0x160 + 4 * (slot / 16)] s

/-- A slot's shadow changed by `f`, with the report words it bears on. -/
def changeShadow (slot : Fin 64) (f : Shadow → Shadow) (s : State) : State :=
  postRing slot { s with ring := { s.ring with shadows := modifyAt s.ring.shadows slot f } }

/-- A ring's record changed by `f`. -/
def changeRing (r : Fin 4) (f : RingRecord → RingRecord) (s : State) : State :=
  { s with ring := { s.ring with rings := modifyAt s.ring.rings r f } }

/-- The start scan is pending (R74). -/
def scanPending (s : State) : Bool := s.run && s.path.scanCursor < 64

/-! ## The own-write queue (R69 to R73) -/

/-- An own-write for this address is queued. -/
def queued (q : List OwnWrite) (a : Addr) : Bool := q.any (fun w => w.addr == a)

/-- The data of the entry for an address replaced in its place (R70). -/
def coalesce (q : List OwnWrite) (w : OwnWrite) : List OwnWrite :=
  q.map (fun e => if e.addr = w.addr then { e with data := w.data } else e)

/-- The drain notice of a PART ring slot's word 0 (R95): the slot becomes READY and the fill index advances, unless the shadow
has become UNKNOWN. -/
def drainNotice (slot : Fin 16) (s : State) : State :=
  let n : Fin 64 := Fin.ofNat 64 slot.val
  if s.ring.shadows[n].state = .unknown then s
  else
    let next := slotAfter s slot.val
    let s := changeShadow n (fun h => { h with state := .ready, length := 16 }) s
    reportChanged [0x170] { s with ring := { s.ring with fill := Fin.ofNat 16 next.val } }

/-- The oldest entry is written to memory and leaves the queue, and its drain notice is delivered (R72). -/
def drainOldest (s : State) : State :=
  match s.path.queue with
  | [] => s
  | w :: rest =>
    let s := { s with mem := memWriteWord s.mem w.addr.toNat w.data, path := { s.path with queue := rest } }
    match w.notice with
    | some slot => drainNotice slot s
    | none => s

/-- A new entry at the tail. -/
def appendEntry (w : OwnWrite) (s : State) : State :=
  { s with path := { s.path with queue := s.path.queue ++ [w] } }

/-- The stall of a full queue (R73): the oldest entry drains, the new own-write enters, and a bus access is held back one
memory cycle. The OWN_WRITE_STALL fault is recorded by the caller. -/
def stallEnter (w : OwnWrite) (s : State) : State :=
  let s := drainOldest s
  { appendEntry w s with waitCycles := s.waitCycles + 1 }

end Sys2Proof.Machine
end

