-- ==== Sys2Proof/Machine/Flags.lean ====
section
/-! DEFINITION. What the part's state shows outside: the lines' logical values and drives (R42 to R45, R59), the figures and flags
derived from the tables, and every mirror word of the REPORT area (R183). -/

namespace Sys2Proof.Machine

open Sys2Proof.Config

/-! ## Derived views -/

/-- A channel's reported average (R2). -/
def average (c : Channel) : Nat := (c.a16 + 8) / 16

/-- A channel's held grade (R2). -/
def held (c : Channel) : Grade := Grade.sup c.live c.latched

/-- The fault set as bits, FE lowest (R183). -/
def faultBits (f : FaultFlags) : Nat :=
  f.fe.toNat + 2 * f.under.toNat + 4 * f.saturated.toNat + 8 * f.stale.toNat + 16 * f.disagree.toNat

/-- The fault set is not empty. -/
def hasFault (f : FaultFlags) : Bool := f.fe || f.under || f.saturated || f.stale || f.disagree

/-- TRIPPED, ISOLATED or UNCONFIRMED (R44). -/
def tripActive (c : Cell) : Bool := c.state == .tripped || c.state == .isolated || c.state == .unconfirmed

/-- The line that carries a function. -/
def lineWith (s : State) (fn : LineFn) : Option (Fin 8) := findIndex s.effective.lines (fun l => l.fn == fn)

/-- The level of CONFIRM_IN line `i` as last taken, false where no line has the function (R33, R41). -/
def confirmLevel (s : State) (i : Fin 4) : Bool :=
  match lineWith s (.confirmIn i) with
  | some n => s.sampled[n]
  | none => false

/-- A line's logical value in RUN (R42 to R45, R59, R177). -/
def lineValue (s : State) (n : Fin 8) : Bool :=
  match s.effective.lines[n].fn with
  | .none => false
  | .tripOut i => !tripActive s.cells[i]
  | .confirmIn _ => s.sampled[n]
  | .beacon => s.level.level != .normal
  | .siren => s.level.level == .evacuate
  | .attention => occupancy s.fault != 0

/-- A line function is an output (R42). -/
def LineFn.isOutput : LineFn → Bool
  | .none | .confirmIn _ => false
  | .tripOut _ | .beacon | .siren | .attention => true

/-- What the part drives on a line (R42, R43): in SETUP, and on a line with no output function, nothing; else the logical value
turned over by the invert flag. -/
def lineDrive (s : State) (n : Fin 8) : Option Bool :=
  if s.run && LineFn.isOutput s.effective.lines[n].fn then some (lineValue s n ^^ s.effective.lines[n].invert) else none

/-- The drives of all eight lines as the state has them. -/
def lineDrives (s : State) : Vector (Option Bool) 8 := mapTable (lineDrive s) ⟨⟨List.finRange 8⟩, by simp⟩

/-- Every output line follows its function (R44). -/
def driveLines (s : State) : State := { s with drive := lineDrives s }

/-- A chamber is OCCUPIED (R153). -/
def occupied (c : Chamber) : Bool := !c.occupants.isEmpty || c.overflow != 0

/-- The part's count of a chamber (R153). -/
def chamberCount (c : Chamber) : Nat := c.occupants.length + c.overflow

/-- A truck is LOST. -/
def isLost (t : Option Truck) : Bool := match t with | some t => t.lost.isSome | none => false

/-- The number of LOST trucks. -/
def lostCount (s : State) : Nat := countWhere s.road.trucks isLost

/-- The figures of a roll call as the state has them (R61). -/
def figures (s : State) (m : Muster) : Muster :=
  { m with counts := mapTable chamberCount s.chambers, distress := s.call.distress.length, lost := lostCount s }

/-- The truck table position of a truck. -/
def truckPosition (s : State) (id : Id) : Option (Fin 32) :=
  findIndex s.road.trucks (fun t => match t with | some t => t.id == id | none => false)

/-- A used entry of the segment table by its id (R107). -/
def segmentIndex (s : State) (id : Id) : Option (Fin 16) :=
  if id = 0 then none else findIndex s.effective.segments (fun g => g.id == id)

/-- A used entry of the chamber table by its id (R109). -/
def chamberIndex (s : State) (id : Id) : Option (Fin 4) :=
  if id = 0 then none else findIndex s.effective.chambers (fun c => c.id == id)

/-- A truck's place in a list of a report word or a record: its table position, 5 bits (R183, R184). -/
def truckField (s : State) (id : Id) : Nat × Nat :=
  (5, match truckPosition s id with | some p => p.val | none => 0)

/-! ## Codes -/

/-- A level's code (R183). -/
def Level.code : Level → Nat
  | .normal => 0 | .alert => 1 | .evacuate => 2

/-- A cause kind's code (R183). -/
def CauseKind.code : CauseKind → Nat
  | .cell => 0 | .fault => 1 | .remote => 2 | .request => 3

/-- A cell state's code (R183). -/
def CellState.code : CellState → Nat
  | .idle => 0 | .ready => 1 | .tripped => 2 | .isolated => 3 | .unconfirmed => 4

/-- A line function's class (R183). -/
def LineFn.code : LineFn → Nat
  | .none => 0 | .tripOut _ => 1 | .confirmIn _ => 2 | .beacon => 3 | .siren => 4 | .attention => 5

/-- A shadow state's code (R183). -/
def ShadowState.code : ShadowState → Nat
  | .empty => 0 | .ready => 1 | .inFlight => 2 | .unknown => 3

/-- A priority's code, which is also its rank (R183, R115). -/
def Priority.code : Priority → Nat
  | .ordinary => 0 | .refuge => 1 | .distress => 2

/-- A direction's code (R183). -/
def Direction.code : Direction → Nat
  | .free => 0 | .inbye => 1 | .outbye => 2 | .conflict => 3

/-- A heading's code (R181). -/
def Heading.code : Heading → Nat
  | .inbye => 1 | .outbye => 2

/-- An airlock's code (12.4). -/
def Airlock.code : Airlock → Nat
  | .unknown => 0 | .opened => 1 | .shut => 2

/-- A reset kind's code (R183). -/
def ResetKind.code : ResetKind → Nat
  | .powerOn => 1 | .resetInput => 2 | .restart => 3

/-- An initiator's code (12.4). -/
def Initiator.code : Initiator → Nat
  | .controller => 0 | .modem => 1 | .sensor => 2 | .other => 3

/-- Alarm reasons as bits, GAS lowest (R181, 12.4). -/
def reasonBits (r : Reasons) : Nat := r.gas.toNat + 2 * r.silent.toNat + 4 * r.airlock.toNat

/-! ## The mirror words (R183) -/

/-- The identity word pair (R167). -/
def mirrorIdentity (s : State) (second : Bool) : Word :=
  if second then layout [(0, 16, s.resetCount)]
  else layout [(0, 12, s.effective.node.nodeId.toNat), (12, 2, ResetKind.code s.resetKind), (16, 16, partCode)]

/-- Whether any member of each kind of the ALERT cause set stands, in the order of R48's table. R183 puts the kinds in bits 8:2 "in the
order of the table of R48" and does not say at which end it begins: the model puts the first row (channels) in bit 2 and the last (the
fault alert latch) in bit 8 (log entry 36, DESIGN CHOICE). -/
def standingKinds (alerts : List AlertMember) : Nat :=
  let kind : AlertMember → Nat
    | .channel _ => 0 | .distress => 1 | .cell _ => 2 | .remote => 3 | .segment _ => 4 | .chamber _ => 5 | .latch => 6
  (List.range 7).foldl (fun acc k => acc + (alerts.any (fun m => kind m == k)).toNat * 2 ^ k) 0

/-- The level report words and the muster summary, 0x010 to 0x02C (R60, R61). R183 gives the muster words 0x020 and 0x024 the headcounts
"of chambers 0, 1, then 2, 3, 16 bits each" and does not say which half of a word holds which chamber: the model puts chambers 0 and 2
in 15:0 and chambers 1 and 3 in 31:16 (log entry 36, DESIGN CHOICE). -/
def mirrorLevel (s : State) (offset : Nat) : Word :=
  let l := s.level
  let m := l.muster
  match offset with
  | 0x010 => layout [(0, 2, Level.code l.level), (2, 7, standingKinds l.alerts),
      (9, 1, (decide (AlertMember.latch ∈ l.alerts)).toNat), (10, 1, (Timer.isRunning l.remote).toNat),
      (16, 8, l.ownSeq.toNat)]
  | 0x014 => match l.cause with
    | none => 0
    | some c => layout [(0, 1, 1), (1, 2, CauseKind.code c.kind), (3, 12, c.node.toNat), (15, 8, c.seq.toNat),
        (23, 1, c.hop.isSome.toNat), (24, 4, (c.hop.getD 0).toNat), (28, 4, c.reason.toNat)]
  | 0x018 => match l.cause with | none => 0 | some c => c.time
  | 0x01C => match l.ended with | none => 0 | some (n, q) => layout [(0, 1, 1), (1, 12, n.toNat), (13, 8, q.toNat)]
  | 0x020 => layout [(0, 16, m.counts[0]), (16, 16, m.counts[1])]
  | 0x024 => layout [(0, 16, m.counts[2]), (16, 16, m.counts[3])]
  | 0x028 => layout [(0, 4, m.distress), (4, 6, m.lost), (16, 1, m.current.toNat)]
  | _ => m.entry

/-- A channel's word A (R25). -/
def channelWordA (c : Channel) : Word :=
  layout [(0, 2, Grade.code (held c)), (2, 2, Grade.code c.live), (4, 2, Grade.code c.latched), (6, 5, faultBits c.faults),
    (11, 1, c.rising.toNat), (12, 1, c.seen.toNat), (13, 1, c.seq.isSome.toNat)]

/-- A channel's word B (R25). -/
def channelWordB (c : Channel) : Word :=
  layout [(0, 16, average c), (16, 12, (c.raw.getD 0).toNat), (28, 4, (c.seq.getD 0).toNat)]

/-- A cell's report word (R41). R183 puts the truths in 7:4 without an order: the model puts input 1 in bit 4 and input 4 in bit 7
(log entry 36, DESIGN CHOICE). -/
def mirrorCell (s : State) (i : Fin 4) : Word :=
  let c := s.cells[i]
  layout [(0, 3, CellState.code c.state), (3, 1, c.demand.toNat), (4, 1, c.truths[0].toNat), (5, 1, c.truths[1].toNat),
    (6, 1, c.truths[2].toNat), (7, 1, c.truths[3].toNat), (8, 1, (confirmLevel s i).toNat),
    (9, 1, (Timer.isRunning c.confirm).toNat)]

/-- The line report word (R45). -/
def mirrorLines (s : State) : Word :=
  layout ((List.finRange 8).flatMap fun n =>
    [(4 * n.val, 1, (lineValue s n).toNat), (4 * n.val + 1, 3, LineFn.code s.effective.lines[n].fn)])

/-- A ring's word pair and count word pair (R98). -/
def mirrorRing (s : State) (r : Fin 4) (k : Nat) : Word :=
  let g := s.ring.rings[r]
  match k with
  | 0 => layout [(0, 6, match g.next with | some n => n.val | none => 0), (6, 6, readyCount s r.val),
      (12, 1, g.lastShown.isSome.toNat), (13, 6, match g.lastShown with | some l => l.slot.val | none => 0)]
  | 1 => match g.lastShown with
    | some l => layout [(0, 8, l.tag.toNat), (8, 8, l.kind.toNat), (16, 12, l.dest.toNat)]
    | none => 0
  | 2 => layout [(0, 16, g.held), (16, 16, g.discards)]
  | _ => layout [(0, 16, g.failed)]

/-- A slot state word (R98). -/
def mirrorSlots (s : State) (w : Nat) : Word :=
  layout ((List.range 16).map fun k => (2 * k, 2, ShadowState.code s.ring.shadows[Fin.ofNat 64 (16 * w + k)].state))

/-- The send list word (R98). -/
def mirrorSendList (s : State) : Word :=
  layout [(0, 4, s.ring.list.length), (4, 5, countWhere s.ring.records Option.isSome), (9, 4, s.ring.fill.val),
    (16, 8, s.ring.seq.toNat)]

/-- The receive count pair and the last frame pair, 0x180 to 0x18C (R113). -/
def mirrorFrame (s : State) (offset : Nat) : Word :=
  let f := s.frame
  match offset with
  | 0x180 => layout [(0, 16, f.dispatched), (16, 16, f.ignored)]
  | 0x184 => layout [(0, 16, f.badCheck)]
  | 0x188 => match f.last with
    | some l => layout [(0, 1, 1), (1, 5, l.slot.val), (8, 8, l.kind.toNat), (16, 8, l.seq.toNat)]
    | none => 0
  | _ => match f.last with | some l => layout [(0, 12, l.origin.toNat)] | none => 0

/-- A call position's words (R129). R183 gives the one-bit origin field no code: the model writes 0 for HANDSET and 1 for CHAMBER
(log entry 36, DESIGN CHOICE). -/
def mirrorCall (s : State) (p : Fin 8) (k : Nat) : Word :=
  match s.call.table[p] with
  | none => 0
  | some c =>
    match k with
    | 0 => layout [(0, 1, 1), (1, 2, Priority.code c.priority), (3, 1, match c.origin with | .handset => 0 | .chamber _ => 1),
        (4, 2, Timer.code c.silence), (8, 8, c.id.toNat), (16, 16, c.miner.toNat)]
    | 1 => match c.origin with | .handset => 0 | .chamber id => layout [(0, 16, id.toNat)]
    | _ => c.last

/-- A distress position's words (R129). -/
def mirrorDistress (s : State) (p k : Nat) : Word :=
  match s.call.distress[p]? with
  | none => 0
  | some d =>
    match k with
    | 0 => layout [(0, 1, 1), (1, 1, d.call.isSome.toNat), (8, 8, (d.call.getD 0).toNat), (16, 16, d.miner.toNat)]
    | 1 => layout [(0, 12, d.node.toNat)]
    | 2 => d.first
    | _ => d.last

/-- A segment's words (R151). -/
def mirrorSegment (s : State) (i : Fin 16) (k : Nat) : Word :=
  let g := s.road.segments[i]
  match k with
  | 0 => layout [(0, 2, Direction.code g.direction), (2, 2, Grade.code g.gated), (4, 3, g.holders.length),
      (7, 3, g.granted.length), (10, 3, g.unauthorised.length), (13, 4, g.queue.length)]
  | 1 => detail ((g.holders.map (·.truck) ++ g.granted).map (truckField s))
  | _ => detail (((g.queue.take 2).map (·.truck) ++ g.unauthorised).map (truckField s))

/-- A truck position's words (R151). -/
def mirrorTruck (s : State) (p : Fin 32) (k : Nat) : Word :=
  match s.road.trucks[p] with
  | none => 0
  | some t =>
    match k with
    | 0 =>
      let seg := segmentIndex s t.lastSegment
      layout [(0, 1, 1), (1, 1, match t.power with | .diesel => 0 | .electric => 1),
        (2, 1, match t.heading with | .inbye => 0 | .outbye => 1), (3, 1, t.lost.isSome.toNat), (4, 1, seg.isSome.toNat),
        (5, 4, match seg with | some i => i.val | none => 0), (16, 16, t.id.toNat)]
    | _ => t.lastBeacon

/-- The roadway count pair (R151). -/
def mirrorRoad (s : State) (second : Bool) : Word :=
  if second then layout [(0, 16, s.road.queueFull), (16, 16, s.road.tableFull)]
  else layout [(0, 6, countWhere s.road.trucks Option.isSome), (6, 6, lostCount s)]

/-- A chamber's state word, time word pair and occupant words (R162). -/
def mirrorChamber (s : State) (c : Fin 4) (k : Nat) : Word :=
  let h := s.chambers[c]
  match k with
  | 0 => layout [(0, 1, (occupied h).toNat), (1, 2, Airlock.code h.airlock), (3, 1, h.alarm.toNat), (4, 3, reasonBits h.reasons),
      (7, 1, h.silent.toNat), (8, 1, h.airlockLong.toNat), (9, 1, h.mismatch.toNat), (10, 2, Timer.code h.silenceTimer),
      (12, 2, Timer.code h.airlockTimer), (14, 5, h.occupants.length), (19, 8, h.overflow)]
  | 1 => h.lastReport.getD 0
  | 2 => match h.headcount with | some n => layout [(0, 16, n.toNat), (16, 1, 1)] | none => 0
  | k => layout [(0, 16, (h.occupants.getD (2 * (k - 3)) 0).toNat), (16, 16, (h.occupants.getD (2 * (k - 3) + 1) 0).toNat)]

/-- A counter word: two counters (R172). -/
def mirrorCounters (s : State) (k : Nat) : Word :=
  layout [(0, 16, s.fault.counters[Fin.ofNat 12 (2 * k)]), (16, 16, s.fault.counters[Fin.ofNat 12 (2 * k + 1)])]

/-- The four words of the first-fault log (R173). -/
def mirrorLog (s : State) (k : Nat) : Word :=
  match s.fault.log with
  | none => 0
  | some e =>
    match k with
    | 0 =>
      let ident : Nat × Nat := match e.ident with | .bus init _ _ => (0, Initiator.code init) | .own unit _ _ => (1, unit)
      layout [(0, 4, FaultKind.code e.kind), (4, 1, ident.1), (8, 4, ident.2), (16, 8, e.further)]
    | 1 => match e.ident with | .bus _ addr _ => word addr.toNat | .own _ index _ => index
    | 2 => match e.ident with | .bus _ _ data => data | .own _ _ data => data
    | _ => e.time

/-- The internal value of the mirror word at a REPORT offset (R183); 0 where no row names the offset. -/
def mirror (s : State) (offset : Nat) : Word :=
  if offset < 0x010 then mirrorIdentity s (offset == 0x004)
  else if offset < 0x030 then mirrorLevel s offset
  else if offset < 0x040 then 0
  else if offset < 0x100 then
    let c := s.channels[Fin.ofNat 24 ((offset - 0x040) / 8)]
    if offset % 8 = 0 then channelWordA c else channelWordB c
  else if offset < 0x110 then mirrorCell s (Fin.ofNat 4 ((offset - 0x100) / 4))
  else if offset < 0x120 then mirrorLines s
  else if offset < 0x160 then mirrorRing s (Fin.ofNat 4 ((offset - 0x120) / 16)) ((offset - 0x120) % 16 / 4)
  else if offset < 0x170 then mirrorSlots s ((offset - 0x160) / 4)
  else if offset < 0x180 then mirrorSendList s
  else if offset < 0x190 then mirrorFrame s offset
  else if offset < 0x200 then mirrorCall s (Fin.ofNat 8 ((offset - 0x1A0) / 12)) ((offset - 0x1A0) % 12 / 4)
  else if offset = 0x200 then layout [(0, 16, s.call.refused), (16, 16, s.call.preempted)]
  else if offset < 0x210 then
    layout [(0, 16, s.call.silenceCloses), (16, 4, countWhere s.call.table Option.isSome)]
  else if offset < 0x290 then mirrorDistress s ((offset - 0x210) / 16) ((offset - 0x210) % 16 / 4)
  else if offset < 0x300 then layout [(0, 4, s.call.distress.length), (16, 16, s.call.overflow)]
  else if offset < 0x400 then mirrorSegment s (Fin.ofNat 16 ((offset - 0x300) / 12)) ((offset - 0x300) % 12 / 4)
  else if offset < 0x500 then mirrorTruck s (Fin.ofNat 32 ((offset - 0x400) / 8)) ((offset - 0x400) % 8 / 4)
  else if offset < 0x540 then mirrorRoad s (offset == 0x504)
  else if offset < 0x640 then mirrorChamber s (Fin.ofNat 4 ((offset - 0x540) / 52)) ((offset - 0x540) % 52 / 4)
  else if offset < 0x660 then mirrorCounters s ((offset - 0x640) / 4)
  else mirrorLog s ((offset - 0x660) / 4)

/-- Word offsets from `first`, `count` of them. -/
def wordRange (first count : Nat) : List Nat := (List.range count).map (fun k => first + 4 * k)

/-- The mirrored words that the initial sweep writes, in rising address order (R167, R183). -/
def sweepWords : List Nat :=
  wordRange 0x010 8 ++ wordRange 0x040 48 ++ wordRange 0x100 5 ++ wordRange 0x120 16 ++ wordRange 0x160 5
    ++ wordRange 0x180 4 ++ wordRange 0x1A0 26 ++ wordRange 0x210 33 ++ wordRange 0x300 48 ++ wordRange 0x400 66
    ++ wordRange 0x540 52 ++ wordRange 0x640 6 ++ wordRange 0x660 4

/-- The mirrored words that the patrol covers: the identity word and the swept words (R178). -/
def patrolWords : List Nat := [0x000, 0x004] ++ sweepWords

/-- The patrolled word after `offset`; after the last the first (R178). -/
def patrolNext (offset : Nat) : Nat := (patrolWords.find? (fun w => offset < w)).getD 0x000

/-- The level word, cause record, entry time and ended cause (R60). -/
def levelWords : List Nat := [0x010, 0x014, 0x018, 0x01C]

/-- The muster summary's words (R61). -/
def musterWords : List Nat := [0x020, 0x024, 0x028, 0x02C]

/-- A channel's words A and B. -/
def channelWords (c : Fin 24) : List Nat := [0x040 + 8 * c.val, 0x044 + 8 * c.val]

/-- A segment's words. -/
def segmentWords (i : Fin 16) : List Nat := wordRange (0x300 + 12 * i.val) 3

/-- A truck position's words and the roadway count word. -/
def truckWords (p : Fin 32) : List Nat := wordRange (0x400 + 8 * p.val) 2 ++ [0x500]

/-- A chamber's words. -/
def chamberWords (c : Fin 4) : List Nat := wordRange (0x540 + 52 * c.val) 13

/-- A call position's words and the two count words. -/
def callWords (p : Fin 8) : List Nat := wordRange (0x1A0 + 12 * p.val) 3 ++ [0x200, 0x204]

/-- Every distress word and the summary word. -/
def distressWords : List Nat := wordRange 0x210 33

end Sys2Proof.Machine
end

