-- ==== Sys2Proof/Machine/Operands.lean ====
section
/-! DEFINITION. How the part reads the operands of an access: the region map and the write guards (R63 to R66), the words taken
(R65), the fields of setting words (R182), of descriptors (R180) and of gallery link frames (R104, R106, R181). -/

namespace Sys2Proof.Machine

open Sys2Proof.Config

/-! ## Accesses and regions -/

/-- A bus access: its initiator, byte address, active byte lanes and, for a write, its data word (R62). -/
structure Access where
  init  : Initiator
  addr  : Addr
  lanes : BitVec 4
  data  : Word := 0
  deriving DecidableEq, Repr

/-- A full-word access (R62). -/
def Access.isFull (a : Access) : Bool := fullWordAccess a.addr a.lanes

/-- The address of the word an access touches. -/
def Access.wordAddr (a : Access) : Nat := wordBase a.addr.toNat

/-- The kinds of region (4.2). -/
inductive RegionKind
  | setting | report | events | rawAir | txSlots | rxSlots | rxBuffers | partFrames
  deriving DecidableEq, Repr

/-- The seven placed regions of a map with their bases and sizes (4.2). -/
def placedRegions (r : Regions) : List (RegionKind × Nat × Nat) :=
  [(.report, r.report.toNat, 4096), (.events, r.events.toNat, 2048), (.rawAir, r.rawAir.toNat, 64),
    (.txSlots, r.txSlots.toNat, 1024), (.rxSlots, r.rxSlots.toNat, 512), (.rxBuffers, r.rxBuffers.toNat, 8192),
    (.partFrames, r.partFrames.toNat, 1024)]

/-- The regions of the map in effect: the setting area alone in SETUP (R64). -/
def regionMap (s : State) : List (RegionKind × Nat × Nat) :=
  (.setting, settingBase s.strap, 4096) :: (if s.run then placedRegions s.effective.regions else [])

/-- The region a word address falls in, with the byte offset in it (R65). -/
def regionAt (s : State) (a : Nat) : Option (RegionKind × Nat) :=
  match (regionMap s).find? (fun r => decide (r.2.1 ≤ a) && decide (a < r.2.1 + r.2.2)) with
  | some r => some (r.1, a - r.2.1)
  | none => none

/-- An offset of the ADJUSTMENT section (R182). -/
def inAdjustment (offset : Nat) : Bool := decide (0x600 ≤ offset) && decide (offset < 0x78C)

/-- An offset of the CONTROL section (R182). -/
def inControl (offset : Nat) : Bool := decide (0xF00 ≤ offset) && decide (offset < 0xF6C)

/-- The slot of a TX_SLOTS offset lies outside the PART ring (R79). -/
def outsidePart (s : State) (offset : Nat) : Bool := decide (ringStart s 1 ≤ offset / 16)

/-- The write guards of RUN (R66): whether the initiator is a permitted writer of the word at this offset. -/
def permitted (s : State) (init : Initiator) : RegionKind → Nat → Bool
  | .setting, o => init == .controller && (inAdjustment o || inControl o)
  | .report, _ => false
  | .events, o => init == .controller && o == 4
  | .rawAir, _ => init == .sensor
  | .txSlots, o => (init == .controller && outsidePart s o) || (init == .modem && o % 16 == 0)
  | .rxSlots, _ => init == .modem || init == .controller
  | .rxBuffers, _ => init == .modem || init == .controller
  | .partFrames, _ => false

/-- The words taken in RUN (R65). -/
inductive Taken
  | adjustment (offset : Nat)
  | request
  | consume
  | rawAir (n : Fin 16)
  | txWord0 (slot : Fin 64)
  | txWord2 (slot : Fin 64)
  | txModem (slot : Fin 64)
  | rxWord0 (slot : Fin 32)
  | header (buffer : Fin 32) (k : Fin 4)
  deriving DecidableEq, Repr

/-- The taken word that an initiator's write falls on in RUN, if any (R65). -/
def takenWord (s : State) (init : Initiator) : RegionKind → Nat → Option Taken
  | .setting, o =>
    if init = .controller then
      if o = 0xF00 then some .request else if inAdjustment o then some (.adjustment o) else none
    else none
  | .events, o => if init = .controller ∧ o = 4 then some .consume else none
  | .rawAir, o => if init = .sensor then some (.rawAir (Fin.ofNat 16 (o / 4))) else none
  | .txSlots, o =>
    if init = .modem then (if o % 16 = 0 then some (.txModem (Fin.ofNat 64 (o / 16))) else none)
    else if init = .controller ∧ outsidePart s o then
      (if o % 16 = 0 then some (.txWord0 (Fin.ofNat 64 (o / 16)))
       else if o % 16 = 8 then some (.txWord2 (Fin.ofNat 64 (o / 16))) else none)
    else none
  | .rxSlots, o => if init = .modem ∧ o % 16 = 0 then some (.rxWord0 (Fin.ofNat 32 (o / 16))) else none
  | .rxBuffers, o =>
    if init = .modem ∧ o % 256 < 16 then some (.header (Fin.ofNat 32 (o / 256)) (Fin.ofNat 4 (o % 256 / 4))) else none
  | .report, _ => none
  | .partFrames, _ => none

/-! ## Setting words (R182), with the clamps of R1, R32, R42, R50, R55, R114, R130, R131, R152 and R172 -/

/-- A value clamped to lie within `low` and `high` (Arithmetic). -/
def clamp (low high n : Nat) : Nat := max low (min high n)

/-- A base word of the REGION section (R64). -/
def takeRegion (k : Nat) (w : Word) (r : Regions) : Regions :=
  let base : Addr := bits w 0 24
  match k with
  | 0 => { r with report := base }
  | 1 => { r with events := base }
  | 2 => { r with rawAir := base }
  | 3 => { r with txSlots := base }
  | 4 => { r with rxSlots := base }
  | 5 => { r with rxBuffers := base }
  | 6 => { r with partFrames := base }
  | _ => r

/-- A word of the NODE section. -/
def takeNode (k : Nat) (w : Word) (n : NodeSet) : NodeSet :=
  match k with
  | 0 => { n with nodeId := bits w 0 12, split := fieldNat w 16 3, hop := bits w 20 4 }
  | 1 => { n with clock := fieldNat w 0 17 }
  | 2 => { n with
      repeatPeriod := clamp 1 60 (fieldNat w 0 8), rateWindow := clamp 0 60 (fieldNat w 8 8),
      patrol := clamp 0 60 (fieldNat w 16 8) }
  | 3 => { n with remoteHold := clamp 0 3600 (fieldNat w 0 12) }
  | 4 => { n with truckStale := clamp 0 600 (fieldNat w 0 16), truckForget := clamp 1 3600 (fieldNat w 16 16) }
  | 5 => { n with silenceTime := fieldNat w 0 16, silenceAny := fieldNat w 16 2 == 1 }
  | _ => n

/-- The source field of channel word 0: code 3 is taken as OFF. -/
def takeSource (w : Word) : Source :=
  match fieldNat w 0 2 with
  | 1 => .localInput (Fin.ofNat 16 (fieldNat w 4 4))
  | 2 => .chamber (Fin.ofNat 4 (fieldNat w 8 2)) (if bitOf w 10 then .co else .o2)
  | _ => .off

/-- The T1 and T2 word of a channel record or an adjustment block. -/
def takeLow (w : Word) (t : Thresholds) : Thresholds := { t with t1 := fieldNat w 0 16, t2 := fieldNat w 16 16 }

/-- The T3 and H word of a channel record or an adjustment block: H is a field of 12 bits, so it is at most 4,095. -/
def takeHigh (w : Word) (t : Thresholds) : Thresholds := { t with t3 := fieldNat w 0 16, hyst := fieldNat w 16 12 }

/-- The rate limit field. -/
def takeRate (w : Word) (t : Thresholds) : Thresholds := { t with rate := fieldNat w 0 16 }

/-- A word of a channel record (R1). -/
def takeChannel (k : Nat) (w : Word) (c : ChannelSet) : ChannelSet :=
  match k with
  | 0 => { c with
      source := takeSource w, falling := bitOf w 12, alerting := bitOf w 13,
      faultGrade := Grade.ofCode (fieldNat w 16 2), shift := clamp 0 4 (fieldNat w 20 3),
      partner := if bitOf w 29 then some (Fin.ofNat 32 (fieldNat w 24 5)) else none }
  | 1 => { c with zero := fieldNat w 0 12, underMargin := fieldNat w 16 8 }
  | 2 => { c with span := fieldNat w 0 16, fullScale := fieldNat w 16 16 }
  | 3 => { c with limits := takeLow w c.limits }
  | 4 => { c with limits := takeHigh w c.limits }
  | 5 => { c with limits := takeRate w c.limits, staleTime := clamp 0 600 (fieldNat w 16 10) }
  | 6 => { c with agreeLimit := fieldNat w 0 16, agreeTime := clamp 1 600 (fieldNat w 16 10) }
  | _ => c

/-- A cell's mode field: a code that is none of the six is taken as ANY (R32). -/
def takeMode (n : Nat) : CellMode :=
  match n with
  | 1 => .all | 2 => .twoOfFour | 3 => .threeOfFour | 4 => .pairsEither | 5 => .pairsBoth | _ => .any

/-- A selector of 16 bits at bit `lo` of a word. -/
def takeSelector (w : Word) (lo : Nat) : Selector :=
  { index := Fin.ofNat 32 (fieldNat w lo 5), n := Fin.ofNat 4 (fieldNat w (lo + 5) 2),
    code := Fin.ofNat 16 (fieldNat w (lo + 8) 4), invert := bitOf w (lo + 15) }

/-- A word of a cell record (R32). -/
def takeCell (k : Nat) (w : Word) (c : CellSet) : CellSet :=
  match k with
  | 0 => { c with
      enabled := bitOf w 0, mode := takeMode (fieldNat w 1 3), outputInvert := bitOf w 4, evacuateOnTrip := bitOf w 5,
      confirmRequired := bitOf w 6, confirmTimeout := fieldNat w 8 8 }
  | 1 => { c with inputs := (c.inputs.set 0 (takeSelector w 0)).set 1 (takeSelector w 16) }
  | 2 => { c with inputs := (c.inputs.set 2 (takeSelector w 0)).set 3 (takeSelector w 16) }
  | _ => c

/-- A line word (R42): a function code that is none of the table's is taken as NONE. -/
def takeLine (w : Word) : LineSet :=
  let arg : Fin 4 := Fin.ofNat 4 (fieldNat w 4 2)
  let fn : LineFn := match fieldNat w 0 4 with
    | 1 => .tripOut arg | 2 => .confirmIn arg | 3 => .beacon | 4 => .siren | 5 => .attention | _ => .none
  { fn := fn, invert := bitOf w 8 }

/-- A word of a segment record (R130). -/
def takeSegment (k : Nat) (w : Word) (g : SegmentSet) : SegmentSet :=
  match k with
  | 0 => { g with id := bits w 0 16, controlled := bitOf w 16, convoy := clamp 1 4 (fieldNat w 17 3) }
  | 1 => { g with gate := bits w 0 24 }
  | 2 => { g with grantTime := clamp 0 600 (fieldNat w 0 10) }
  | _ => g

/-- A word of a chamber record (R152). -/
def takeChamber (k : Nat) (w : Word) (c : ChamberSet) : ChamberSet :=
  match k with
  | 0 => { c with id := bits w 0 16, capacity := clamp 1 20 (fieldNat w 16 5) }
  | 1 => { c with silenceTime := clamp 0 600 (fieldNat w 0 10), airlockLimit := clamp 0 600 (fieldNat w 16 10) }
  | 2 => { c with
      o2 := if bitOf w 7 then some (Fin.ofNat 32 (fieldNat w 0 5)) else none,
      co := if bitOf w 15 then some (Fin.ofNat 32 (fieldNat w 8 5)) else none }
  | _ => c

/-- A FAULTS word (R172): an escalation code outside 0 to 3 is taken as 0. -/
def takeFaults (w : Word) : FaultSetting :=
  let e : Escalation := match fieldNat w 4 3 with | 1 => .none | 2 => .alert | 3 => .evacuate | _ => .default
  { logOff := bitOf w 0, escalation := e }

/-- A word of the ADJUSTMENT section (R168). R182 does not say which period lies at 0x780, 0x784 and 0x788: the model takes the order in
which R168 lists them (log entry 40, DESIGN CHOICE). -/
def takeStaged (offset : Nat) (w : Word) (g : Staged) : Staged :=
  if offset < 0x780 then
    let c : Fin 24 := Fin.ofNat 24 ((offset - 0x600) / 16)
    match (offset - 0x600) % 16 / 4 with
    | 0 => { g with channels := modifyAt g.channels c (takeLow w) }
    | 1 => { g with channels := modifyAt g.channels c (takeHigh w) }
    | 2 => { g with channels := modifyAt g.channels c (takeRate w) }
    | _ => g
  else if offset = 0x780 then { g with rateWindow := clamp 0 60 (fieldNat w 0 8) }
  else if offset = 0x784 then { g with repeatPeriod := clamp 1 60 (fieldNat w 0 8) }
  else { g with patrol := clamp 0 60 (fieldNat w 0 8) }

/-- A word of a setting section, at its offset in the setting area, taken into the copies (R163). -/
def takeSettings (offset : Nat) (w : Word) (c : Settings) : Settings :=
  if offset < 0x020 then { c with regions := takeRegion (offset / 4) w c.regions }
  else if offset < 0x040 then { c with node := takeNode ((offset - 0x020) / 4) w c.node }
  else if offset < 0x340 then
    { c with
      channels := modifyAt c.channels (Fin.ofNat 24 ((offset - 0x040) / 32))
        (takeChannel ((offset - 0x040) % 32 / 4) w) }
  else if offset < 0x380 then
    { c with cells := modifyAt c.cells (Fin.ofNat 4 ((offset - 0x340) / 16)) (takeCell ((offset - 0x340) % 16 / 4) w) }
  else if offset < 0x3A0 then { c with lines := c.lines.set (Fin.ofNat 8 ((offset - 0x380) / 4)) (takeLine w) }
  else if offset < 0x4A0 then
    { c with
      segments := modifyAt c.segments (Fin.ofNat 16 ((offset - 0x3A0) / 16))
        (takeSegment ((offset - 0x3A0) % 16 / 4) w) }
  else if offset < 0x4E0 then
    { c with
      chambers := modifyAt c.chambers (Fin.ofNat 4 ((offset - 0x4A0) / 16))
        (takeChamber ((offset - 0x4A0) % 16 / 4) w) }
  else if offset < 0x510 then { c with faults := c.faults.set (Fin.ofNat 12 ((offset - 0x4E0) / 4)) (takeFaults w) }
  else c

/-! ## Frames (R104, R106, R181) -/

/-- A two-bit code field with codes 1 and 2 defined. -/
def twoCodes {α : Type} (n : Nat) (one two : α) : Option α :=
  match n with | 1 => some one | 2 => some two | _ => none

/-- A frame's header words as captured (R100). -/
structure Header where
  h0 : Word
  h1 : Word
  h2 : Word
  h3 : Word
  deriving DecidableEq, Repr

/-- The kind field of H0 (R181). -/
def Header.kind (h : Header) : Nat := fieldNat h.h0 24 8

/-- The origin field of H0 (R181). -/
def Header.origin (h : Header) : NodeId := bits h.h0 8 12

/-- The sequence field of H0 (R181). -/
def Header.seq (h : Header) : BitVec 8 := bits h.h0 0 8

/-- How a header's fields parse for its kind (R105 tests 2 to 4). -/
inductive Parse
  | notParsed
  | undefinedField
  | unknownObject
  | frame (f : Frame)
  deriving DecidableEq, Repr

/-- A segment field: an id not in this node's table is handed on as 0 (R107). -/
def knownSegment (s : State) (id : Id) : Id := if (segmentIndex s id).isSome then id else 0

/-- A frame of a kind that names a chamber (R109). -/
def parseChamber (s : State) (id : Id) (defined : Bool) (f : Fin 4 → Frame) : Parse :=
  if id = 0 || !defined then .undefinedField
  else match chamberIndex s id with
    | some c => .frame (f c)
    | none => .unknownObject

/-- Fields that are all defined give the frame (R105 test 3). -/
def parseDefined (defined : Bool) (f : Frame) : Parse := if defined then .frame f else .undefinedField

/-- The fields of a parsed kind (R106, R181); the origin node is tested with them (R105 test 3). -/
def parseFields (s : State) (h : Header) : Parse :=
  let origin := Header.origin h
  let good := nodeDefined origin
  match Header.kind h with
  | 0x01 =>
    match twoCodes (fieldNat h.h1 16 2) Power.diesel .electric, twoCodes (fieldNat h.h1 18 2) Heading.inbye .outbye with
    | some power, some heading =>
      parseDefined (good && bits h.h1 0 16 != 0)
        (.truckBeacon (bits h.h1 0 16) power heading origin (knownSegment s (bits h.h2 0 16))
          (knownSegment s (bits h.h2 16 16)))
    | _, _ => .undefinedField
  | 0x02 =>
    match twoCodes (fieldNat h.h1 24 2) CallOrigin.handset (.chamber (bits h.h2 0 16)) with
    | some call =>
      parseDefined (good && bits h.h1 0 8 != 0 && bits h.h1 8 16 != 0
          && (match call with | .handset => true | .chamber id => id != 0))
        (.callOpen (bits h.h1 0 8) (bits h.h1 8 16) call)
    | none => .undefinedField
  | 0x03 => parseDefined (good && bits h.h1 0 8 != 0) (.callClose (bits h.h1 0 8))
  | 0x04 => parseDefined (good && bits h.h1 0 8 != 0) (.voice (bits h.h1 0 8))
  | 0x05 => parseDefined (good && bits h.h1 8 16 != 0) (.distress (bits h.h1 8 16) (bits h.h1 0 8) origin)
  | 0x06 => parseChamber s (bits h.h2 0 16) (good && bits h.h1 0 16 != 0) (fun c => .checkIn c (bits h.h1 0 16))
  | 0x07 => parseChamber s (bits h.h2 0 16) (good && bits h.h1 0 16 != 0) (fun c => .checkOut c (bits h.h1 0 16))
  | 0x08 =>
    match twoCodes (fieldNat h.h1 16 2) AirlockReport.opened .shut with
    | some airlock =>
      parseChamber s (bits h.h1 0 16) good
        (fun c => .refugeStatus c airlock (bits h.h2 0 16) (bits h.h2 16 16) (bits h.h3 0 16))
    | none => .undefinedField
  | 0x10 =>
    parseDefined (good && nodeDefined (bits h.h1 0 12))
      (.evacuate (bits h.h0 20 4) origin (bits h.h1 0 12) (bits h.h1 12 8) (bits h.h1 20 4))
  | 0x11 =>
    parseDefined (good && decide (fieldNat h.h1 0 8 < 24))
      (.airAlarm origin (Fin.ofNat 24 (fieldNat h.h1 0 8)) (Grade.ofCode (fieldNat h.h1 8 2)))
  | _ => .notParsed

/-- A dispatched frame's fields are ones R106 defines. -/
def Frame.defined : Frame → Bool
  | .truckBeacon truck _ _ origin _ _ => truck != 0 && nodeDefined origin
  | .callOpen call miner origin =>
    call != 0 && miner != 0 && (match origin with | .handset => true | .chamber id => id != 0)
  | .callClose call | .voice call => call != 0
  | .distress miner _ node => miner != 0 && nodeDefined node
  | .checkIn _ miner | .checkOut _ miner => miner != 0
  | .refugeStatus _ _ _ _ _ => true
  | .evacuate _ relay cause _ _ => nodeDefined relay && nodeDefined cause
  | .airAlarm origin _ _ => nodeDefined origin

/-- The header words of a frame the part builds (R96, R112, R181). -/
def builtWords (node : NodeId) (seq : BitVec 8) (f : PartFrame) : List Word :=
  let hop : Nat := match f with | .evacuate _ _ _ hop => hop.toNat | _ => 0
  let h0 := layout [(0, 8, seq.toNat), (8, 12, node.toNat), (20, 4, hop), (24, 8, PartFrame.code f)]
  match f with
  | .evacuate n q reason _ => [h0, layout [(0, 12, n.toNat), (12, 8, q.toNat), (20, 4, reason.toNat)], 0, 0]
  | .distressRelay miner first n => [h0, layout [(0, 16, miner.toNat), (16, 12, n.toNat)], first, 0]
  | .airAlarm c grade avg => [h0, layout [(0, 8, c.val), (8, 2, Grade.code grade)], layout [(0, 16, avg)], 0]
  | .refugeAlarm id reasons => [h0, layout [(0, 16, id.toNat), (16, 3, reasonBits reasons)], 0, 0]
  | .halt seg => [h0, layout [(0, 16, seg.toNat)], 0, 0]
  | .revoke truck seg reason =>
    let code : Nat := match reason with | .gas => 1 | .evacuation => 2 | .lapsed => 3 | .cleared => 4
    [h0, layout [(0, 16, truck.toNat), (16, 16, seg.toNat)], layout [(0, 3, code)], 0]
  | .grant truck seg dir => [h0, layout [(0, 16, truck.toNat), (16, 16, seg.toNat)], layout [(0, 2, Heading.code dir)], 0]

/-! ## Codes of event records (R184) -/

/-- The record kinds' codes. -/
def recStarted : Nat := 0x01
/-- FAULT_RELEASED. -/
def recFaultReleased : Nat := 0x02
/-- ADJUSTMENT_APPLIED. -/
def recAdjustmentApplied : Nat := 0x03
/-- FRAME_DROPPED. -/
def recFrameDropped : Nat := 0x04
/-- GRADE_CHANGE. -/
def recGradeChange : Nat := 0x10
/-- CHANNEL_FAULT. -/
def recChannelFault : Nat := 0x11
/-- ACKNOWLEDGED. -/
def recAcknowledged : Nat := 0x12
/-- CELL_TRIPPED. -/
def recCellTripped : Nat := 0x18
/-- CELL_STATE. -/
def recCellState : Nat := 0x19
/-- LEVEL. -/
def recLevel : Nat := 0x20
/-- CALL_PREEMPTED. -/
def recCallPreempted : Nat := 0x28
/-- CALL_REFUSED. -/
def recCallRefused : Nat := 0x29
/-- CALL_CLOSED. -/
def recCallClosed : Nat := 0x2A
/-- CALL_PRIORITY. -/
def recCallPriority : Nat := 0x2B
/-- DISTRESS_ADDED. -/
def recDistressAdded : Nat := 0x2C
/-- DISTRESS_OVERFLOW. -/
def recDistressOverflow : Nat := 0x2D
/-- DISTRESS_CLEARED. -/
def recDistressCleared : Nat := 0x2E
/-- GRANTED. -/
def recGranted : Nat := 0x30
/-- REVOKED. -/
def recRevoked : Nat := 0x31
/-- GRANT_LAPSED. -/
def recGrantLapsed : Nat := 0x32
/-- SEGMENT_ENTERED. -/
def recSegmentEntered : Nat := 0x33
/-- SEGMENT_LEFT. -/
def recSegmentLeft : Nat := 0x34
/-- ENTRY_WITHOUT_GRANT. -/
def recEntryWithoutGrant : Nat := 0x35
/-- CONFLICT_ON. -/
def recConflictOn : Nat := 0x36
/-- CONFLICT_OFF. -/
def recConflictOff : Nat := 0x37
/-- QUEUE_FULL. -/
def recQueueFull : Nat := 0x38
/-- TRUCK_TABLE_FULL. -/
def recTruckTableFull : Nat := 0x39
/-- TRUCK_LOST. -/
def recTruckLost : Nat := 0x3A
/-- TRUCK_FOUND. -/
def recTruckFound : Nat := 0x3B
/-- TRUCK_FORGOTTEN. -/
def recTruckForgotten : Nat := 0x3C
/-- TRUCK_CLEARED. -/
def recTruckCleared : Nat := 0x3D
/-- CHECKED_IN. -/
def recCheckedIn : Nat := 0x40
/-- CHECKED_OUT. -/
def recCheckedOut : Nat := 0x41
/-- MINER_MOVED. -/
def recMinerMoved : Nat := 0x42
/-- CHAMBER_FULL. -/
def recChamberFull : Nat := 0x43
/-- OVERFLOW_OUT. -/
def recOverflowOut : Nat := 0x44
/-- COUNT_MISMATCH. -/
def recCountMismatch : Nat := 0x45
/-- CHAMBER_FLAG. -/
def recChamberFlag : Nat := 0x46
/-- CHAMBER_ALARM_ON. -/
def recChamberAlarmOn : Nat := 0x47
/-- CHAMBER_ALARM_OFF. -/
def recChamberAlarmOff : Nat := 0x48

end Sys2Proof.Machine
end

