-- ==== Sys2Proof/Machine/RoadOps.lean ====
section
/-! DEFINITION. What the roadway unit does to segments and trucks inside any event: directions, revocations, gas gating, the
evacuation of the roads, serving a queue and forgetting a truck (R137, R139 to R145, R148). -/

namespace Sys2Proof.Machine

open Sys2Proof.Config

/-! ## Segments and trucks -/

/-- A segment changed by `f`, with its report words. -/
def changeSegment (i : Fin 16) (f : Segment → Segment) (s : State) : State :=
  reportChanged (segmentWords i) { s with road := { s.road with segments := modifyAt s.road.segments i f } }

/-- A truck position given new contents, with its report words. -/
def setTruck (p : Fin 32) (t : Option Truck) (s : State) : State :=
  reportChanged (truckWords p) { s with road := { s.road with trucks := s.road.trucks.set p t } }

/-- The segment's queue is marked to be served at the end of the event (R142). -/
def markSegment (i : Fin 16) (s : State) : State := changeSegment i (fun g => { g with marked := true }) s

/-- The entry is used and the part grants its passage (R130). -/
def controlled (s : State) (i : Fin 16) : Bool := s.effective.segments[i].id != 0 && s.effective.segments[i].controlled

/-- A segment's id as a record carries it. -/
def segmentId (s : State) (i : Fin 16) : Id := s.effective.segments[i].id

/-- A truck of the table by its id. -/
def truckOf (s : State) (id : Id) : Option Truck :=
  match truckPosition s id with
  | some p => s.road.trucks[p]
  | none => none

/-- The truck is DIESEL (R133). -/
def isDiesel (s : State) (id : Id) : Bool := match truckOf s id with | some t => t.power == .diesel | none => false

/-- The truck is a holder of the segment. -/
def holds (g : Segment) (id : Id) : Bool := g.holders.any (fun h => h.truck == id)

/-- The truck is a listed occupant of the segment. -/
def occupies (g : Segment) (id : Id) : Bool := g.granted.contains id || g.unauthorised.contains id

/-- The truck stands in the segment's wait queue. -/
def waits (g : Segment) (id : Id) : Bool := g.queue.any (fun w => w.truck == id)

/-! ## Direction (R137) -/

/-- The headings of the listed occupants and the granted directions of the holders. -/
def segmentHeadings (s : State) (g : Segment) : List Heading :=
  (g.granted ++ g.unauthorised).filterMap (fun id => (truckOf s id).map (·.heading)) ++ g.holders.map (·.dir)

/-- A heading as a direction. -/
def headingDirection : Heading → Direction
  | .inbye => .inbye
  | .outbye => .outbye

/-- The direction that the headings give. -/
def directionOf : List Heading → Direction
  | [] => .free
  | h :: rest => if rest.all (fun k => k == h) then headingDirection h else .conflict

/-- A segment's direction derived again, with what a change into or out of CONFLICT hands on (R137). The CONFLICT_ON detail names the
granted occupants before the unauthorised (log entry 34, DESIGN CHOICE). R137 names no subject and no detail of CONFLICT_OFF: the model
writes the segment id and 0 (log entry 39, DESIGN CHOICE). -/
def rederive (i : Fin 16) (s : State) : State :=
  let g := s.road.segments[i]
  let d := directionOf (segmentHeadings s g)
  let id := segmentId s i
  if d = g.direction then s
  else
    let t := changeSegment i (fun g => { g with direction := d }) s
    if d = .conflict then
      let t := addRecord recConflictOn id.toNat (detail ((g.granted ++ g.unauthorised).map (truckField s))) t
      joinAlert (.segment i) (requestFrame (.halt id) t)
    else if g.direction = .conflict then
      markSegment i (leaveAlert (.segment i) (addRecord recConflictOff id.toNat 0 t))
    else t

/-! ## Revocations (R141) -/

/-- A REVOKE reason's code (R181). -/
def RevokeReason.code : RevokeReason → Nat
  | .gas => 1 | .evacuation => 2 | .lapsed => 3 | .cleared => 4

/-- The REVOKE frame request and the REVOKED record of a revocation; `form` is 1 holder, 2 waiter, 3 leave order (R184). -/
def announceRevoke (i : Fin 16) (truck : Id) (reason : RevokeReason) (form : Nat) (s : State) : State :=
  let id := segmentId s i
  addRecord recRevoked truck.toNat (detail [detailId id.toNat, (3, RevokeReason.code reason), (2, form)])
    (requestFrame (.revoke truck id reason) s)

/-- The withdrawal of a truck's GRANT for a segment (R97, R150). -/
def withdrawGrant (truck seg : Id) (s : State) : State :=
  withdrawFrames (fun f => match f with | .grant t g _ => t == truck && g == seg | _ => false) s

/-- A holder leaves the holder list. -/
def dropHolder (i : Fin 16) (truck : Id) (s : State) : State :=
  changeSegment i (fun g => { g with holders := g.holders.filter (fun h => h.truck != truck) }) s

/-- An entry leaves the wait queue. -/
def dropWaiter (i : Fin 16) (truck : Id) (s : State) : State :=
  changeSegment i (fun g => { g with queue := g.queue.filter (fun w => w.truck != truck) }) s

/-- A holder is revoked: the GRANT is withdrawn before the REVOKE is requested, the direction is derived again and the queue is
marked. -/
def revokeHolder (i : Fin 16) (reason : RevokeReason) (truck : Id) (s : State) : State :=
  let s := withdrawGrant truck (segmentId s i) (dropHolder i truck s)
  markSegment i (rederive i (announceRevoke i truck reason 1 s))

/-- A waiter is revoked and the queue is marked. -/
def revokeWaiter (i : Fin 16) (reason : RevokeReason) (truck : Id) (s : State) : State :=
  markSegment i (announceRevoke i truck reason 2 (dropWaiter i truck s))

/-- An occupant is sent a leave order and stays an occupant. -/
def leaveOrder (i : Fin 16) (reason : RevokeReason) (truck : Id) (s : State) : State := announceRevoke i truck reason 3 s

/-- `f` done for each truck of a list in its order. -/
def eachTruck (f : Id → State → State) (trucks : List Id) (s : State) : State := trucks.foldl (fun t id => f id t) s

/-! ## Gas (R143, R144) and evacuation (R145) -/

/-- The highest held grade among the channels of a gate mask (R132). -/
def gatedGrade (s : State) (gate : BitVec 24) : Grade :=
  (List.finRange 24).foldl (fun g c => if bitOf gate c.val then Grade.sup g (held s.channels[c]) else g) .clear

/-- The revocations and leave orders for gas that fall on the trucks `p` names: holders, then waiters, then occupants (R143, R144).
The granted occupants come before the unauthorised, each list in order of joining (log entry 34, DESIGN CHOICE). -/
def revokeForGas (i : Fin 16) (p : Id → Bool) (s : State) : State :=
  let g := s.road.segments[i]
  let s := eachTruck (revokeHolder i .gas) ((g.holders.map (·.truck)).filter p) s
  let s := eachTruck (revokeWaiter i .gas) ((g.queue.map (·.truck)).filter p) s
  eachTruck (leaveOrder i .gas) ((g.granted ++ g.unauthorised).filter p) s

/-- The gated grade of a segment derived again: a rise to ALARM acts on DIESEL trucks, a rise to TRIP on every truck, and a fall
marks the queue. -/
def regateSegment (i : Fin 16) (s : State) : State :=
  let before := s.road.segments[i].gated
  let after := gatedGrade s s.effective.segments[i].gate
  let t := changeSegment i (fun g => { g with gated := after }) s
  if Grade.code before < Grade.code after then
    if after = .trip then revokeForGas i (fun _ => true) t
    else if after = .alarm then markSegment i (revokeForGas i (isDiesel t) t)
    else t
  else if Grade.code after < Grade.code before then markSegment i t
  else t

/-- Every controlled segment whose mask holds one of the channels is gated again, in rising index. -/
def regate (channels : List (Fin 24)) (s : State) : State :=
  forEach 16 (fun i s =>
    if controlled s i && channels.any (fun c => bitOf s.effective.segments[i].gate c.val) then regateSegment i s else s) s

/-- The entry into EVACUATE in one segment: INBYE holders and waiters are revoked and the queue is marked. -/
def evacuateSegment (i : Fin 16) (s : State) : State :=
  let g := s.road.segments[i]
  let s := eachTruck (revokeHolder i .evacuation) ((g.holders.filter (fun h => h.dir == .inbye)).map (·.truck)) s
  let s := eachTruck (revokeWaiter i .evacuation) ((g.queue.filter (fun w => w.dir == .inbye)).map (·.truck)) s
  markSegment i s

/-- The entry into EVACUATE, each controlled segment in rising index. -/
def evacuateRoads (s : State) : State := forEach 16 (fun i s => if controlled s i then evacuateSegment i s else s) s

/-- Every controlled segment's queue is marked (R145, at exit from EVACUATE). -/
def markRoads (s : State) : State := forEach 16 (fun i s => if controlled s i then markSegment i s else s) s

/-! ## Serving a queue (R139, R140) -/

/-- The reason for which a head is removed, if one holds. -/
def removalReason (s : State) (g : Segment) (w : Waiter) : Option RevokeReason :=
  if g.gated = .trip then some .gas
  else if isDiesel s w.truck && Grade.atLeastAlarm g.gated then some .gas
  else if s.level.level = .evacuate ∧ w.dir = .inbye then some .evacuation
  else none

/-- The head may be granted as the segment stands. -/
def grantable (s : State) (i : Fin 16) (g : Segment) (w : Waiter) : Bool :=
  (g.direction == .free || g.direction == headingDirection w.dir)
    && decide (g.holders.length + g.granted.length < s.effective.segments[i].convoy)

/-- The head is granted (R140). The record's direction takes the 2 bits of the frames' heading (log entry 17). -/
def grantHead (i : Fin 16) (w : Waiter) (rest : List Waiter) (s : State) : State :=
  let id := segmentId s i
  let holder : Holder := { truck := w.truck, dir := w.dir, grant := Timer.start s.effective.segments[i].grantTime }
  let s := changeSegment i (fun g => { g with
    queue := rest, holders := g.holders ++ [holder], direction := headingDirection w.dir }) s
  let s := addRecord recGranted w.truck.toNat (detail [detailId id.toNat, (2, Heading.code w.dir)]) s
  requestFrame (.grant w.truck id w.dir) s

/-- The head of a queue examined once: none where the queue is empty or the head stops it. -/
def serveHead (i : Fin 16) (s : State) : Option State :=
  let g := s.road.segments[i]
  match g.queue with
  | [] => none
  | w :: rest =>
    match removalReason s g w with
    | some reason => some (revokeWaiter i reason w.truck s)
    | none => if grantable s i g w then some (grantHead i w rest s) else none

/-- The head examined again and again, at most `n` times. -/
def serveHeads : Nat → Fin 16 → State → State
  | 0, _, s => s
  | n + 1, i, s => match serveHead i s with | some t => serveHeads n i t | none => s

/-- A marked queue is served once and its mark is cleared (R142). -/
def serveSegment (i : Fin 16) (s : State) : State :=
  changeSegment i (fun g => { g with marked := false }) (serveHeads s.road.segments[i].queue.length i s)

/-- The lowest segment whose queue is marked. -/
def firstMarked (s : State) : Option (Fin 16) := findIndex s.road.segments (fun g => g.marked)

/-! ## Forgetting a truck (R148) -/

/-- The truck holds no holder place and no listed occupant place, and stands in no wait queue. -/
def placeless (s : State) (id : Id) : Bool :=
  s.road.segments.toList.all (fun g => !holds g id && !occupies g id && !waits g id)

/-- The first position whose truck is forgettable. -/
def firstForgettable (s : State) : Option (Fin 32) :=
  findIndex s.road.trucks fun t => match t with | some t => t.forget == .expired && placeless s t.id | none => false

/-- A forgettable truck is removed from the table. -/
def forgetTruck (p : Fin 32) (s : State) : State :=
  match s.road.trucks[p] with
  | some t => setTruck p none (addRecord recTruckForgotten t.id.toNat (detail [(1, t.lost.isSome.toNat)]) s)
  | none => s

end Sys2Proof.Machine
end

