-- ==== Sys2Proof/Machine/LevelOps.lean ====
section
/-! DEFINITION. What the level unit does inside any event: the level derived, a change handed on, evacuation causes taken, the
muster summary, and the recording of a fault with its escalation (R47, R49, R51, R53, R54, R56, R61, R172). -/

namespace Sys2Proof.Machine

open Sys2Proof.Config

/-! ## The level (R47) -/

/-- The level that the cause record and the ALERT cause set give. -/
def levelOf (l : LevelUnit) : Level :=
  if l.cause.isSome then .evacuate else if l.alerts.isEmpty then .normal else .alert

/-- The fields of a cause in a LEVEL record (R53, R54): kind, origin node, origin sequence, reason. -/
def causeFields (kind : CauseKind) (node : NodeId) (seq : BitVec 8) (reason : BitVec 4) : List (Nat × Nat) :=
  [(2, CauseKind.code kind), (12, node.toNat), (8, seq.toNat), (4, reason.toNat)]

/-- A LEVEL record (R54, R184): the fault kind of a FAULT cause is its subject. -/
def levelRecord (before after : Level) (subject : Nat) (cause : List (Nat × Nat)) (s : State) : State :=
  addRecord recLevel subject (detail ([(2, Level.code before), (2, Level.code after)] ++ cause)) s

/-- An EVACUATE frame request from the cause record as it stands, made where the hop remaining is present (R56). -/
def requestEvacuate (s : State) : State :=
  match s.level.cause with
  | some c => match c.hop with
    | some hop => requestFrame (.evacuate c.node c.seq c.reason hop) s
    | none => s
  | none => s

/-- The withdrawal of the EVACUATE frame (R56). -/
def withdrawEvacuate (s : State) : State := withdrawFrames (fun f => match f with | .evacuate .. => true | _ => false) s

/-- The muster summary replaced, its four words queued (R61). -/
def setMuster (m : Muster) (s : State) : State := postAlways musterWords { s with level := { s.level with muster := m } }

/-- The muster summary at entry into EVACUATE (R61). -/
def musterEntry (s : State) : State :=
  setMuster (figures s { s.level.muster with current := true, entry := s.time }) s

/-- The muster summary at exit from EVACUATE (R61). -/
def musterExit (s : State) : State := setMuster (figures s { s.level.muster with current := false }) s

/-- While the level is EVACUATE a figure differs from the summary as last queued. -/
def musterStale (s : State) : Bool := s.level.level == .evacuate && figures s s.level.muster != s.level.muster

/-- Step 2 of R54: the readers of a change into or out of EVACUATE. -/
def tellReaders (before after : Level) (s : State) : State :=
  if after = .evacuate then { evacuateRoads s with reevalDue := true }
  else if before = .evacuate then { markRoads s with reevalDue := true }
  else s

/-- The level does not stand as the cause record and the set give it (R47). -/
def levelDue (s : State) : Bool := s.run && levelOf s.level != s.level.level

/-- The LEVEL record of a later cause (R53). -/
def laterRecord (c : TakenCause) (s : State) : State :=
  levelRecord .evacuate .evacuate c.fault (causeFields c.cause.kind c.cause.node c.cause.seq c.cause.reason) s

/-- The LEVEL record of a change (R54 step 1): an entry into EVACUATE carries the cause record, and as its subject the fault kind of
the cause that filled it. -/
def changeRecord (before after : Level) (s : State) : State :=
  match after, s.level.cause with
  | .evacuate, some c =>
    levelRecord before after ((s.level.taken.head?.map (·.fault)).getD 0) (causeFields c.kind c.node c.seq c.reason) s
  | _, _ => levelRecord before after 0 [] s

/-- The level derived anew, a change handed on in the order of R54. The causes taken behind the one that filled the cause record
are later causes, whose records stand behind the entry (R53; log entry 29). -/
def deriveLevel (s : State) : State :=
  let before := s.level.level
  let after := levelOf s.level
  let later := s.level.taken.tail
  if after = before then s
  else
    let s := changeRecord before after s
    let s := { s with level := { s.level with level := after, taken := [] } }
    let s := reportChanged [0x110] (tellReaders before after s)
    let s := if after = .evacuate then requestEvacuate s else if before = .evacuate then withdrawEvacuate s else s
    let s := postChanged levelWords s
    let s := if after = .evacuate then musterEntry s else if before = .evacuate then musterExit s else s
    later.foldl (fun s c => laterRecord c s) s

/-! ## Evacuation causes (R51, R53) -/

/-- A cause fills the cause record if it is absent, and is a later cause otherwise. The level that it gives is derived at the end
of the event (R47); a later cause of the event that fills the record waits for that derivation (log entry 29). -/
def takeCause (c : Cause) (fault : Nat) (s : State) : State :=
  let t : TakenCause := { cause := c, fault := fault }
  match s.level.cause with
  | some _ =>
    if s.level.level = .evacuate then laterRecord t s
    else { s with level := { s.level with taken := s.level.taken ++ [t] } }
  | none => { s with level := { s.level with cause := some c, taken := [t] } }

/-- A local cause: an entry increments the own evacuation sequence before it is copied (R51); a later cause carries it as it
stands (log entry 10). -/
def localCause (kind : CauseKind) (reason : BitVec 4) (fault : Nat) (s : State) : State :=
  let seq := if s.level.cause.isSome then s.level.ownSeq else s.level.ownSeq + 1
  let s := { s with level := { s.level with ownSeq := seq } }
  let cause : Cause :=
    { kind := kind, node := s.effective.node.nodeId, seq := seq, hop := some s.effective.node.hop, reason := reason,
      time := s.time }
  takeCause cause fault s

/-- A REMOTE cause from a frame (R51). -/
def remoteCause (hop : BitVec 4) (node : NodeId) (seq : BitVec 8) (reason : BitVec 4) (s : State) : State :=
  let cause : Cause :=
    { kind := .remote, node := node, seq := seq, hop := if hop = 0 then none else some (hop - 1), reason := reason,
      time := s.time }
  takeCause cause 0 s

/-! ## Recording a fault (R172) -/

/-- A fault kind's default escalation (R172). -/
def FaultKind.defaultEscalation : FaultKind → Escalation
  | .sensorFault => .alert
  | .isolatorNoConfirm => .evacuate
  | .guardWrite | .partialWrite | .slotCollision | .completionStray | .shortHeader | .badFrame | .ownWriteStall
  | .eventLost | .mirrorMismatch | .frameDropped => .none

/-- A fault kind's escalation under the settings in effect; EVENT_LOST's is NONE whatever its word holds. -/
def escalation (s : State) (k : FaultKind) : Escalation :=
  if k = .eventLost then .none
  else match s.effective.faults[FaultKind.index k].escalation with
    | .default => FaultKind.defaultEscalation k
    | e => e

/-- A fault is recorded within the event that found it: counted, logged, handed to the level unit and mirrored. In SETUP no
fault is recorded. -/
def recordFault (k : FaultKind) (ident : FaultId) (s : State) : State :=
  if !s.run then s
  else
    let s := countFault k ident s
    let s := match escalation s k with
      | .alert => joinAlert .latch s
      | .evacuate => localCause .fault 4 (FaultKind.code k) s
      | .default | .none => s
    postFault k s

end Sys2Proof.Machine
end

