-- ==== Sys2Proof/Machine/RingOps.lean ====
section
/-! DEFINITION. The part send list and the building of part frames (R91 to R96). -/

namespace Sys2Proof.Machine

open Sys2Proof.Config

/-- The list changed, with the send list word. -/
def setList (l : List PartFrame) (s : State) : State := reportChanged [0x170] { s with ring := { s.ring with list := l } }

/-- A frame enters behind every entry of its urgency or more urgent, and ahead of every less urgent entry (R92). -/
def insertFrame (f : PartFrame) (l : List PartFrame) : List PartFrame :=
  let ahead (g : PartFrame) : Bool := decide (PartFrame.urgency g ≤ PartFrame.urgency f)
  l.takeWhile ahead ++ f :: l.dropWhile ahead

/-- The frame is an EVACUATE frame. -/
def PartFrame.isEvacuate : PartFrame → Bool
  | .evacuate .. => true
  | .distressRelay .. | .airAlarm .. | .refugeAlarm .. | .halt .. | .revoke .. | .grant .. => false

/-- The frame is a DISTRESS_RELAY that names the miner. -/
def PartFrame.relays (miner : Id) : PartFrame → Bool
  | .distressRelay m _ _ => m == miner
  | .evacuate .. | .airAlarm .. | .refugeAlarm .. | .halt .. | .revoke .. | .grant .. => false

/-- The list with a request that replaces or is absorbed by a waiting entry (R92); none where it is neither. -/
def replaceOrAbsorb (f : PartFrame) (l : List PartFrame) : Option (List PartFrame) :=
  match f with
  | .evacuate .. =>
    if l.any PartFrame.isEvacuate then some (l.map (fun g => if PartFrame.isEvacuate g then f else g)) else none
  | .distressRelay m _ _ => if l.any (PartFrame.relays m) then some l else none
  | .airAlarm .. | .refugeAlarm .. | .halt .. | .revoke .. | .grant .. => none

/-- The least urgent urgency among the waiting entries. -/
def leastUrgent (l : List PartFrame) : Nat := l.foldl (fun u g => max u (PartFrame.urgency g)) 0

/-- The list without its newest entry of an urgency. -/
def dropNewest (u : Nat) (l : List PartFrame) : List PartFrame := (l.reverse.eraseP (fun g => PartFrame.urgency g == u)).reverse

/-- A frame dropped at a full list (R93): the FRAME_DROPPED fault and the FRAME_DROPPED record, whose last field is 1 for a
waiting entry and 0 for the new request (log entry 14). -/
def dropFrame (f : PartFrame) (waiting : Bool) (s : State) : State :=
  let s := recordFault .frameDropped (.own unitRing (word (PartFrame.code f)) 0) s
  addRecord recFrameDropped (PartFrame.subject f) (detail [(8, PartFrame.code f), (1, waiting.toNat)]) s

/-- A frame request taken into the list (R92, R93). -/
def takeRequest (f : PartFrame) (s : State) : State :=
  let l := s.ring.list
  match replaceOrAbsorb f l with
  | some l' => setList l' s
  | none =>
    if l.length < sendListSize then setList (insertFrame f l) s
    else
      let u := leastUrgent l
      match l.reverse.find? (fun g => PartFrame.urgency g == u) with
      | some newest =>
        if PartFrame.urgency f < u then dropFrame newest true (setList (insertFrame f (dropNewest u l)) s)
        else dropFrame f false s
      | none => dropFrame f false s

/-- The shadow of the slot at the fill index. -/
def fillShadow (s : State) : Shadow := s.ring.shadows[Fin.ofNat 64 s.ring.fill.val]

/-- The part send list can be served (R95). -/
def canBuild (s : State) : Bool :=
  s.run && s.path.scanCursor == 64 && (fillShadow s).state == .empty && (s.ring.records[s.ring.fill]).isNone
    && !s.ring.list.isEmpty

/-- A plain own-write. -/
def plainWrite (addr : Nat) (data : Word) : Post := .write { addr := address addr, data := data, kind := .plain }

/-- The seven own-writes of a built frame (R95): the four header words, words 1 and 2 of the slot, and word 0 with its drain
notice. -/
def frameWrites (s : State) (i : Fin 16) (f : PartFrame) (seq : BitVec 8) : List Post :=
  let buffer := s.effective.regions.partFrames.toNat + 64 * i.val
  let slot := s.effective.regions.txSlots.toNat + 16 * i.val
  let header := (builtWords s.effective.node.nodeId seq f).mapIdx (fun k w => plainWrite (buffer + 4 * k) w)
  let word0 : OwnWrite :=
    { addr := address slot, data := layout [(0, 11, 16), (31, 1, 1)], kind := .plain, notice := some i }
  header ++ [plainWrite (slot + 4) (layout [(0, 24, buffer)]),
    plainWrite (slot + 8) (layout [(8, 12, 4095), (20, 8, PartFrame.code f)]), .write word0]

/-- The list served once: the first waiting entry is built into the slot at the fill index (R95). -/
def buildFrame (s : State) : State :=
  match s.ring.list with
  | [] => s
  | f :: rest =>
    let i := s.ring.fill
    let slot : Fin 64 := Fin.ofNat 64 i.val
    let seq := s.ring.seq + 1
    let record : FrameRecord := { frame := f, seq := seq, withdrawn := false }
    let writes := frameWrites s i f seq
    let s := { s with ring := { s.ring with list := rest, seq := seq, records := s.ring.records.set i (some record) } }
    let s := changeShadow slot (fun h => { h with tag := 0, dest := 4095, kind := BitVec.ofNat 8 (PartFrame.code f) }) s
    let s := { s with path := { s.path with posts := s.path.posts ++ writes } }
    reportChanged [0x170] s

end Sys2Proof.Machine
end

