-- ==== Sys2Proof/Machine/Settle.lean ====
section
/-! DEFINITION. The end of an event: what the units have handed on enters the own-write queue, marked segment queues are served,
the level is derived, frame requests are taken and built, and the lines follow (R42, R47, R70 to R73, R92, R95, R142, R148,
R167). -/

namespace Sys2Proof.Machine

open Sys2Proof.Config

/-! ## Entering the own-write queue (R70, R71, R73) -/

/-- A new entry, or a stall where the queue is full: the stall drains the oldest entry, the new one enters, and one
OWN_WRITE_STALL is recorded. -/
def enterNew (w : OwnWrite) (s : State) : State :=
  if s.path.queue.length < queueSize then appendEntry w s
  else recordFault .ownWriteStall (.own unitPath 0 0) (stallEnter w s)

/-- An own-write enters the queue: an address already queued is coalesced in place, or held as the follow-up value for the
produce index. A plain own-write never meets its own address (R70; log entry 11). -/
def enterQueue (w : OwnWrite) (s : State) : State :=
  if queued s.path.queue w.addr then
    match w.kind with
    | .trailing => { s with path := { s.path with followUp := some w.data } }
    | .coalescing | .plain => { s with path := { s.path with queue := coalesce s.path.queue w } }
  else enterNew w s

/-- The own-write of a mirror word with its internal value. -/
def mirrorWrite (s : State) (offset : Nat) : OwnWrite :=
  { addr := reportAddr s offset, data := mirror s offset, kind := .coalescing }

/-- A mirror word enters the queue with its internal value, which the event keeps in mind. -/
def enterMirror (offset : Nat) (s : State) : State :=
  enterQueue (mirrorWrite s offset) { s with path := { s.path with shown := (offset, mirror s offset) :: s.path.shown } }

/-- The value of a mirror word that memory will show without a further own-write of the event that began in `s0`: the value that the
event has queued last or, where it has queued none, the value before the event. -/
def shownValue (s0 s : State) (offset : Nat) : Word := (s.path.shown.lookup offset).getD (mirror s0 offset)

/-- What a unit has handed on enters the queue. A word that the event left as it was is not queued, unless an entry for it is, which
then takes the current value. A word that the event has queued already is queued again only where its value has changed since, whether
its entry still waits or a stall has drained it (R129, R172; log entry 20). -/
def enterPost (s0 : State) (p : Post) (s : State) : State :=
  match p with
  | .write w => enterQueue w s
  | .always offset => if s.path.shown.lookup offset = some (mirror s offset) then s else enterMirror offset s
  | .changed offset =>
    if shownValue s0 s offset != mirror s offset || queued s.path.queue (reportAddr s offset) then enterMirror offset s
    else s

/-- A held follow-up value whose entry has drained (R71). -/
def followUpFree (s : State) : Bool := s.path.followUp.isSome && !queued s.path.queue (eventsAddr s 0)

/-- The follow-up value enters as a new trailing entry (R71). -/
def enterFollowUp (s : State) : State :=
  match s.path.followUp with
  | some d =>
    enterNew { addr := eventsAddr s 0, data := d, kind := .trailing } { s with path := { s.path with followUp := none } }
  | none => s

/-! ## The end of an event -/

/-- The level is to be derived: an event that began in `s0` derives it once (R47), ahead of the queues that the change may mark. -/
def levelFirst (s0 s : State) : Bool := levelDue s && s.level.level == s0.level.level

/-- The work of the units still to be done at the end of the event that began in `s0`, the first in the order of log entry 4: the
level, a marked queue, a forgettable truck, the muster summary, a frame request, the send list. In SETUP the units take nothing. -/
def settleUnits (s0 s : State) : Option State :=
  if !s.run then none
  else if levelFirst s0 s then some (deriveLevel s)
  else
  match firstMarked s with
  | some i => some (serveSegment i s)
  | none =>
  match firstForgettable s with
  | some p => some (forgetTruck p s)
  | none =>
  if musterStale s then some (setMuster (figures s s.level.muster) s)
  else
  match s.ring.requests with
  | f :: rest => some (takeRequest f { s with ring := { s.ring with requests := rest } })
  | [] => if canBuild s then some (buildFrame s) else none

/-- The own-writes still to enter the queue: those handed on, in their order; then the report words; the outcome word last
(R164). With all of them queued the event keeps none of its report words in mind. -/
def settlePath (s0 s : State) : Option State :=
  match s.path.posts with
  | p :: rest => some (enterPost s0 p { s with path := { s.path with posts := rest } })
  | [] =>
    match s.path.reports with
    | p :: rest => some (enterPost s0 p { s with path := { s.path with reports := rest } })
    | [] =>
      match s.path.outcome with
      | some w =>
        some (enterQueue { addr := settingAddr s 0xF04, data := w, kind := .coalescing }
          { s with path := { s.path with outcome := none } })
      | none => if s.path.shown.isEmpty then none else some { s with path := { s.path with shown := [] } }

/-- The next thing that the end of an event does; none where all is done. -/
def settleStep (s0 s : State) : Option State :=
  if followUpFree s then some (enterFollowUp s)
  else match settleUnits s0 s with
    | some t => some t
    | none => settlePath s0 s

/-- The end of an event that began in `s0`, at most `n` things long. -/
def settle : Nat → State → State → State
  | 0, _, s => s
  | n + 1, s0, s => match settleStep s0 s with | some t => settle n s0 t | none => s

/-! ## The initial mirror sweep (R167) -/

/-- The sweep puts the first mirrored word from its cursor on that has no entry queued, if the queue then has room. -/
def sweepPut (s : State) : State :=
  match s.path.sweep with
  | none => s
  | some cursor =>
    if s.path.queue.length < queueSize then
      match sweepWords.find? (fun o => decide (cursor ≤ o) && !queued s.path.queue (reportAddr s o)) with
      | some o =>
        let s := appendEntry (mirrorWrite s o) s
        let next := if sweepWords.any (fun k => decide (o < k)) then some (o + 4) else none
        { s with path := { s.path with sweep := next } }
      | none => { s with path := { s.path with sweep := none } }
    else s

/-- The start of an event: what the model keeps of the last one is cleared. -/
def beginEvent (s : State) : State :=
  { s with
    waitCycles := 0
    path := { s.path with posts := [], reports := [], outcome := none, shown := [] }
    level := { s.level with taken := [] }
    ring := { s.ring with requests := [] } }

/-- A cell at RUN entry (R36). -/
def startCell (set : CellSet) : Cell := { state := if set.enabled then .ready else .idle }

/-- The state that RUN entry gives the part before the cells are evaluated (R36, R46), in the event that has led to `t`: a word that
differs from it has been changed by a unit, and every other mirror word is the sweep's to write (R167). -/
def entryBase (t : State) : State := { t with cells := mapTable startCell t.effective.cells, level := {} }

/-- The state against which an event that began in `s0` and has led to `t` compares the report words. -/
def eventBase (s0 t : State) : State := if t.run && !s0.run then entryBase t else s0

/-- The state against which an event of the level unit compares the report words: the cause record stands in its own, if the level
was last derived without one. -/
def levelBase (s : State) : State :=
  if s.level.level = .evacuate then s else { s with level := { s.level with cause := none } }

/-- An event of the level unit: it derives the level and nothing else acts. -/
def levelEvent (s : State) : State := settle settleBound (levelBase s) s

/-- The level unit's events, at most `n`, that follow an event at whose end a fault was recorded, by its escalation an ALERT cause or
an evacuation cause, behind the event's one derivation of the level (R47, R49, R172; log entry 4). -/
def levelEvents : Nat → State → State
  | 0, s => s
  | n + 1, s => if levelDue s then levelEvents n (levelEvent s) else s

/-- An event: `f` acts, its end is settled, the sweep begins if the event entered RUN, and the lines follow. Two events of the level
unit at most can follow: one to ALERT, one to EVACUATE. -/
def event (f : State → State) (s : State) : State :=
  let s0 := beginEvent s
  let acted := f s0
  let t := settle settleBound (eventBase s0 acted) acted
  driveLines (levelEvents 2 (if t.run && !s0.run then sweepPut t else t))

/-- An event of a unit that acts in RUN alone; in SETUP nothing happens. -/
def runEvent (f : State → State) (s : State) : State := if s.run then event f s else s

end Sys2Proof.Machine
end

