-- ==== Sys2Proof/Machine/TripOps.lean ====
section
/-! DEFINITION. What the trip unit does inside any event: the truths, the demand, a trip, re-evaluation and the confirm line's
effect on a cell (R33 to R35, R37 to R39, R41). -/

namespace Sys2Proof.Machine

open Sys2Proof.Config

/-- The truth of an input before its invert flag (R33, R182); a selector of R33's table alone can be true. -/
def selectorValue (s : State) (sel : Selector) : Bool :=
  match sel.code.val with
  | 1 => true
  | 2 => decide (sel.index.val < 24) && decide (sel.n.val ≤ Grade.code (held s.channels[Fin.ofNat 24 sel.index.val]))
  | 3 => decide (sel.index.val < 24) && hasFault s.channels[Fin.ofNat 24 sel.index.val].faults
  | 4 => decide (sel.index.val < 4) && s.cells[Fin.ofNat 4 sel.index.val].demand
  | 5 => s.level.level == .evacuate
  | 6 => decide (sel.index.val < 4) && confirmLevel s (Fin.ofNat 4 sel.index.val)
  | _ => false

/-- The truth of an input: the selector's value, turned over by the invert flag. -/
def inputTruth (s : State) (sel : Selector) : Bool := selectorValue s sel ^^ sel.invert

/-- The four truths of a cell's inputs. -/
def cellTruths (s : State) (i : Fin 4) : Vector Bool 4 := mapTable (inputTruth s) s.effective.cells[i].inputs

/-- The result of a mode (R34). -/
def modeResult (m : CellMode) (t : Vector Bool 4) : Bool :=
  match m with
  | .any => t[0] || t[1] || t[2] || t[3]
  | .all => t[0] && t[1] && t[2] && t[3]
  | .twoOfFour => decide (2 ≤ countWhere t id)
  | .threeOfFour => decide (3 ≤ countWhere t id)
  | .pairsEither => (t[0] && t[1]) || (t[2] && t[3])
  | .pairsBoth => (t[0] || t[1]) && (t[2] || t[3])

/-- The demand that a cell's inputs give (R34). -/
def cellDemand (s : State) (i : Fin 4) : Bool :=
  modeResult s.effective.cells[i].mode (cellTruths s i) ^^ s.effective.cells[i].outputInvert

/-- A cell changed by `f`. -/
def changeCell (i : Fin 4) (f : Cell → Cell) (s : State) : State := { s with cells := modifyAt s.cells i f }

/-- A cell's report word and the line word (R41, R45). -/
def postCell (i : Fin 4) (s : State) : State := reportChanged [0x110, 0x100 + 4 * i.val] s

/-- A CELL_STATE record with the states before and after. -/
def cellStateRecord (i : Fin 4) (before after : CellState) (s : State) : State :=
  addRecord recCellState i.val (detail [(3, CellState.code before), (3, CellState.code after)]) s

/-- ISOLATOR_NO_CONFIRM for a cell. -/
def noConfirm (i : Fin 4) (s : State) : State := recordFault .isolatorNoConfirm (.own unitTrip (word i.val) 0) s

/-- The truths as bit fields of a CELL_TRIPPED record, input 1 lowest: R37 gives the four no order (log entry 36, DESIGN CHOICE). -/
def truthFields (t : Vector Bool 4) : List (Nat × Nat) :=
  [(1, t[0].toNat), (1, t[1].toNat), (1, t[2].toNat), (1, t[3].toNat)]

/-- The state that a trip reaches: ISOLATED where no confirmation is required or the line already confirms (R37). -/
def tripState (s : State) (i : Fin 4) : CellState :=
  if !s.effective.cells[i].confirmRequired || confirmLevel s i then .isolated else .tripped

/-- A READY cell trips (R37), handing on in the order of R41. -/
def tripCell (i : Fin 4) (s : State) : State :=
  let set := s.effective.cells[i]
  let reached := tripState s i
  let timer := if reached = .tripped then Timer.start set.confirmTimeout else .off
  let s := changeCell i (fun c => { c with state := reached, confirm := timer }) s
  let s := addRecord recCellTripped i.val
    (detail ((3, CellState.code reached) :: truthFields s.cells[i].truths)) s
  let s := if set.evacuateOnTrip then localCause .cell (BitVec.ofNat 4 i.val) 0 s else s
  joinAlert (.cell i) (postCell i s)

/-- A cell re-evaluated (R35): its truths and demand are taken, and a READY cell whose demand is true trips. -/
def evaluateCell (i : Fin 4) (s : State) : State :=
  if s.effective.cells[i].enabled then
    let truths := cellTruths s i
    let demand := cellDemand s i
    let s := postCell i (changeCell i (fun c => { c with truths := truths, demand := demand }) s)
    if demand && s.cells[i].state == .ready then tripCell i s else s
  else s

/-- The selector names a cell whose demand the present event has changed. -/
def demandTouched (s0 s : State) (sel : Selector) : Bool :=
  sel.code == 4 && decide (sel.index.val < 4)
    && s0.cells[Fin.ofNat 4 sel.index.val].demand != s.cells[Fin.ofNat 4 sel.index.val].demand

/-- The cells with a selector that `touched` names, or with a CELL selector naming a cell whose demand changes, are re-evaluated
in rising index (R35). -/
def reevaluate (touched : Selector → Bool) (s0 : State) : State :=
  forEach 4 (fun i s =>
    if s.effective.cells[i].inputs.toList.any (fun sel => touched sel || demandTouched s0 s sel) then evaluateCell i s
    else s) s0

/-- The effect of the confirm line on a cell that requires confirmation (R39). -/
def confirmArrives (i : Fin 4) (level : Bool) (s : State) : State :=
  let c := s.cells[i]
  if !s.effective.cells[i].confirmRequired then s
  else match c.state, level with
    | .tripped, true =>
      postCell i (cellStateRecord i .tripped .isolated
        (changeCell i (fun c => { c with state := .isolated, confirm := .off }) s))
    | .unconfirmed, true =>
      postCell i (cellStateRecord i .unconfirmed .isolated (changeCell i (fun c => { c with state := .isolated, confirm := .off }) s))
    | .isolated, false =>
      postCell i (noConfirm i (cellStateRecord i .isolated .unconfirmed
        (changeCell i (fun c => { c with state := .unconfirmed }) s)))
    | _, _ => s

/-- A change of a CONFIRM_IN line's logical value (R45): the cell's state first, then the cells with a CONFIRM selector. -/
def confirmLine (n : Fin 8) (i : Fin 4) (s : State) : State :=
  let level := s.pins[n] ^^ s.effective.lines[n].invert
  let s := postCell i { s with sampled := s.sampled.set n level }
  reevaluate (fun sel => sel.code == 6 && sel.index.val == i.val) (confirmArrives i level s)

/-- A TRIPPED cell's confirm timer is due (R38). -/
def confirmDue (s : State) (i : Fin 4) : Bool := Timer.due s.cells[i].confirm && s.cells[i].state == .tripped

/-- A cell's confirm timer expires (R38). -/
def confirmExpiry (i : Fin 4) (s : State) : State :=
  postCell i (noConfirm i (cellStateRecord i .tripped .unconfirmed
    (changeCell i (fun c => { c with state := .unconfirmed, confirm := .expired }) s)))

/-- The trip unit's own event after the level has entered or left EVACUATE (R35, R54). -/
def evacuatingReevaluation (s : State) : State :=
  reevaluate (fun sel => sel.code == 5) { s with reevalDue := false }

end Sys2Proof.Machine
end

