-- ==== Sys2Proof/Machine/RefugeOps.lean ====
section
/-! DEFINITION. What the refuge unit does inside any event: the mismatch flag, the alarm reasons and the alarm, and the occupant
lists (R154 to R156, R158, R161, R162). -/

namespace Sys2Proof.Machine

open Sys2Proof.Config

/-- A chamber changed by `f`, with its report words. -/
def changeChamber (c : Fin 4) (f : Chamber → Chamber) (s : State) : State :=
  reportChanged (chamberWords c) { s with chambers := modifyAt s.chambers c f }

/-- A chamber's id. -/
def chamberId (s : State) (c : Fin 4) : Id := s.effective.chambers[c].id

/-- A chamber's settings name a channel, if its index is one of the table's. -/
def namedChannel (o : Option (Fin 32)) : Option (Fin 24) :=
  match o with
  | some k => if k.val < 24 then some (Fin.ofNat 24 k.val) else none
  | none => none

/-- The held grade of a named channel is ALARM or TRIP. -/
def channelAlarms (s : State) (o : Option (Fin 32)) : Bool :=
  match namedChannel o with
  | some k => Grade.atLeastAlarm (held s.channels[k])
  | none => false

/-- The reasons that stand for a chamber (R161). -/
def standingReasons (s : State) (c : Fin 4) : Reasons :=
  let set := s.effective.chambers[c]
  { gas := channelAlarms s set.o2 || channelAlarms s set.co, silent := s.chambers[c].silent,
    airlock := s.chambers[c].airlockLong }

/-- At least one reason stands. -/
def anyReason (r : Reasons) : Bool := r.gas || r.silent || r.airlock

/-- The alarm of a used chamber derived again, with what an entry or an exit hands on (R161). -/
def deriveAlarm (c : Fin 4) (s : State) : State :=
  let id := chamberId s c
  if id = 0 then s
  else
    let before := s.chambers[c].alarm
    let reasons := standingReasons s c
    let isOccupied := occupied s.chambers[c]
    let after := isOccupied && anyReason reasons
    let s := changeChamber c (fun h => { h with alarm := after, reasons := reasons }) s
    if after && !before then
      let s := joinAlert (.chamber c) (addRecord recChamberAlarmOn id.toNat (detail [(3, reasonBits reasons)]) s)
      requestFrame (.refugeAlarm id reasons) s
    else if before && !after then
      leaveAlert (.chamber c) (addRecord recChamberAlarmOff id.toNat (detail [(1, (!isOccupied).toNat)]) s)
    else s

/-- A CHAMBER_FLAG record (R184): flag 1 SILENT or 2 AIRLOCK in 2 bits (log entry 17), with the new value above
it. -/
def flagRecord (c : Fin 4) (flag : Nat) (value : Bool) (s : State) : State :=
  addRecord recChamberFlag (chamberId s c).toNat (detail [(2, flag), (1, value.toNat)]) s

/-- The count mismatch flag derived again (R158). -/
def deriveMismatch (c : Fin 4) (s : State) : State :=
  let h := s.chambers[c]
  let count := chamberCount h
  let flag := match h.headcount with | some n => n.toNat != count | none => false
  if flag = h.mismatch then s
  else
    let s := changeChamber c (fun h => { h with mismatch := flag }) s
    let headcount := match h.headcount with | some n => n.toNat | none => 0
    addRecord recCountMismatch (chamberId s c).toNat (detail [(1, flag.toNat), (16, headcount), (16, count)]) s

/-- The chamber whose list holds a miner. -/
def listedIn (s : State) (m : Id) : Option (Fin 4) := findIndex s.chambers (fun h => h.occupants.contains m)

/-- A miner leaves a chamber's list. -/
def removeMiner (c : Fin 4) (m : Id) (s : State) : State :=
  changeChamber c (fun h => { h with occupants := h.occupants.filter (· ≠ m) }) s

/-- A miner joins a chamber's list, or is counted in its overflow where the list is full (R154, case 3). -/
def joinChamber (c : Fin 4) (m : Id) (recorded : Bool) (s : State) : State :=
  let id := (chamberId s c).toNat
  if s.chambers[c].occupants.length < s.effective.chambers[c].capacity then
    let s := changeChamber c (fun h => { h with occupants := h.occupants ++ [m] }) s
    if recorded then s else addRecord recCheckedIn m.toNat (detail [detailId id]) s
  else
    let s := changeChamber c (fun h => { h with overflow := saturate 255 h.overflow }) s
    addRecord recChamberFull id (detail [detailId m.toNat, (8, s.chambers[c].overflow)]) s

/-- The mismatch flags, then the alarms, of the chambers an event has changed (R162). At a move the chamber left comes before the
chamber joined, an order that R154 does not give (log entry 35, DESIGN CHOICE). -/
def deriveChambers (cs : List (Fin 4)) (s : State) : State :=
  let s := cs.foldl (fun s c => deriveMismatch c s) s
  cs.foldl (fun s c => deriveAlarm c s) s

/-- A CHECK_IN (R154). -/
def checkIn (c : Fin 4) (m : Id) (s : State) : State :=
  match listedIn s m with
  | some d =>
    if d = c then s
    else
      let ids := detail [detailId (chamberId s d).toNat, detailId (chamberId s c).toNat]
      let s := addRecord recMinerMoved m.toNat ids (removeMiner d m s)
      deriveChambers [d, c] (joinChamber c m true s)
  | none => deriveChambers [c] (joinChamber c m false s)

/-- A CHECK_OUT (R155). -/
def checkOut (c : Fin 4) (m : Id) (s : State) : State :=
  let id := (chamberId s c).toNat
  if s.chambers[c].occupants.contains m then
    deriveChambers [c] (addRecord recCheckedOut m.toNat (detail [detailId id, (1, 0)]) (removeMiner c m s))
  else if s.chambers[c].overflow = 0 then s
  else
    let s := changeChamber c (fun h => { h with overflow := h.overflow - 1 }) s
    deriveChambers [c] (addRecord recOverflowOut id (detail [detailId m.toNat, (8, s.chambers[c].overflow)]) s)

/-- A listed miner is checked out by request (R156). -/
def checkOutByRequest (c : Fin 4) (m : Id) (s : State) : State :=
  deriveChambers [c]
    (addRecord recCheckedOut m.toNat (detail [detailId (chamberId s c).toNat, (1, 1)]) (removeMiner c m s))

/-- A chamber's silence timer expires (R159). -/
def chamberSilence (c : Fin 4) (s : State) : State :=
  let s := changeChamber c (fun h => { h with silent := true, silenceTimer := .expired }) s
  deriveAlarm c (flagRecord c 1 true s)

/-- A chamber's airlock timer expires (R160). -/
def airlockExpiry (c : Fin 4) (s : State) : State :=
  let s := changeChamber c (fun h => { h with airlockLong := true, airlockTimer := .expired }) s
  deriveAlarm c (flagRecord c 2 true s)

/-- Steps 2 and 3 of a chamber status (R157, R159, R160). -/
def reportChamber (c : Fin 4) (airlock : AirlockReport) (headcount : BitVec 16) (s : State) : State :=
  let set := s.effective.chambers[c]
  let h := s.chambers[c]
  let s := changeChamber c (fun h => { h with
    lastReport := some s.time, headcount := some headcount, silent := false,
    silenceTimer := Timer.start set.silenceTime }) s
  let s := if h.silent then flagRecord c 1 false s else s
  match airlock with
  | .opened =>
    let timer := if h.airlock = .opened then h.airlockTimer else Timer.start set.airlockLimit
    changeChamber c (fun h => { h with airlock := .opened, airlockTimer := timer }) s
  | .shut =>
    let s := changeChamber c (fun h => { h with airlock := .shut, airlockTimer := .off, airlockLong := false }) s
    if h.airlockLong then flagRecord c 2 false s else s

end Sys2Proof.Machine
end

