-- ==== Sys2Proof/Machine/AirOps.lean ====
section
/-! DEFINITION. The air unit: verdicts, calibration, averaging, grading, the live and latched grades, partner agreement, what a
channel hands on and to whom, rate windows and acknowledgement (R4 to R10, R12 to R20, R22 to R24, R29). -/

namespace Sys2Proof.Machine

open Sys2Proof.Config

/-! ## One reading -/

/-- The verdicts (R180). -/
inductive Verdict
  | taken | duplicate | feFault | under | saturated | notUsed
  deriving DecidableEq, Repr

/-- A verdict's code (R180). -/
def Verdict.code : Verdict → Nat
  | .taken => 1 | .duplicate => 2 | .feFault => 3 | .under => 4 | .saturated => 5 | .notUsed => 6

/-- The verdict of a reading with raw code `r`, sequence `q` and front-end fault `f` (R4, R6, R7). -/
def readingVerdict (set : ChannelSet) (c : Channel) (r : BitVec 12) (q : BitVec 4) (f : Bool) : Verdict :=
  if c.seq = some q then .duplicate
  else if f then .feFault
  else if r = 4095 then .saturated
  else if (r.toNat : Int) - set.zero < -(set.underMargin : Int) then .under
  else .taken

/-- Calibration of a TAKEN reading (R9). -/
def calibrate (set : ChannelSet) (r : BitVec 12) : Nat :=
  let x : Int := ((r.toNat : Int) - set.zero) * set.span
  let v : Int := (x + 2048) / 4096
  min set.fullScale v.toNat

/-- The average moved toward a value (R10). -/
def averaged (shift : Nat) (c : Channel) (v : Nat) : Nat :=
  if !c.seen || shift = 0 then 16 * v
  else ((c.a16 : Int) + (16 * (v : Int) - c.a16) / 2 ^ shift).toNat

/-- A grade's threshold. -/
def threshold (t : Thresholds) : Grade → Nat
  | .clear => 0 | .notice => t.t1 | .alarm => t.t2 | .trip => t.t3

/-- The average reaches a grade's threshold (R12 step 1, R13). -/
def reaches (falling : Bool) (t : Thresholds) (avg : Nat) (g : Grade) : Bool :=
  if falling then decide (avg ≤ threshold t g) else decide (threshold t g ≤ avg)

/-- The average has not gone more than the hysteresis past a grade's threshold (R12 step 2, R13). -/
def keeps (falling : Bool) (t : Thresholds) (avg : Nat) (g : Grade) : Bool :=
  if falling then decide (avg ≤ min 65535 (threshold t g + t.hyst)) else decide (threshold t g - t.hyst ≤ avg)

/-- The highest grade that `p` admits, CLEAR where it admits none. -/
def highest (p : Grade → Bool) : Grade :=
  if p .trip then .trip else if p .alarm then .alarm else if p .notice then .notice else .clear

/-- The computed grade after a reading (R12, R13). -/
def computedGrade (falling : Bool) (t : Thresholds) (avg : Nat) (before : Grade) : Grade :=
  let up := highest (reaches falling t avg)
  if Grade.code before < Grade.code up then up
  else highest (fun g => decide (Grade.code g ≤ Grade.code before) && keeps falling t avg g)

/-- A value averaged and graded: the last value, a16, the sample seen flag, the window start at the first reading, and the
computed grade (R10, R12, R13). -/
def storeValue (set : ChannelSet) (v : Nat) (c : Channel) : Channel :=
  let moved := { c with a16 := averaged set.shift c v, last := v, seen := true }
  let avg := average moved
  { moved with
    windowStart := if c.seen then c.windowStart else avg
    computed := computedGrade set.falling c.limits avg c.computed }

/-- An adjustment in waiting takes effect (R5 step 1, R14). -/
def applyWaiting (c : Channel) : Channel :=
  match c.waiting with
  | some t => { c with limits := t, waiting := none }
  | none => c

/-- The stale timer restarts and STALE is removed (R5 step 2, R8). -/
def restartStale (set : ChannelSet) (c : Channel) : Channel :=
  { c with stale := Timer.start set.staleTime, faults := { c.faults with stale := false } }

/-- The live grade recomputed, the latched grade following a rise (R15, R16). -/
def recomputeLive (set : ChannelSet) (c : Channel) : Channel :=
  let byRising : Grade := if c.rising then .notice else .clear
  let byFault : Grade := if hasFault c.faults then set.faultGrade else .clear
  let live := Grade.sup (Grade.sup c.computed byRising) byFault
  { c with live := live, latched := Grade.sup c.latched live }

/-- A reading that is not DUPLICATE (R5 to R7), before partner agreement and the live grade. -/
def takeReading (set : ChannelSet) (verdict : Verdict) (r : BitVec 12) (q : BitVec 4) (c : Channel) : Channel :=
  let c := restartStale set (applyWaiting c)
  let c := { c with seq := some q, raw := some r }
  match verdict with
  | .feFault => { c with faults := { c.faults with fe := true } }
  | .saturated => { c with faults := { c.faults with saturated := true } }
  | .under => { c with faults := { c.faults with under := true } }
  | .taken =>
    storeValue set (calibrate set r) { c with faults := { c.faults with fe := false, under := false, saturated := false } }
  | .duplicate | .notUsed => c

/-- A chamber value (R8), before partner agreement and the live grade. -/
def takeChamberValue (set : ChannelSet) (w : BitVec 16) (c : Channel) : Channel :=
  let c := applyWaiting c
  if w = 0xFFFF then { c with faults := { c.faults with fe := true } }
  else
    let c := restartStale set c
    storeValue set (min set.fullScale w.toNat) { c with faults := { c.faults with fe := false } }

/-! ## Channels in the state -/

/-- A channel's settings in effect. -/
def channelSet (s : State) (i : Fin 24) : ChannelSet := s.effective.channels[i]

/-- A channel changed by `f`. -/
def changeChannel (i : Fin 24) (f : Channel → Channel) (s : State) : State :=
  { s with channels := modifyAt s.channels i f }

/-- A channel's live grade recomputed. -/
def recomputeChannel (i : Fin 24) (s : State) : State := changeChannel i (recomputeLive (channelSet s i)) s

/-- The channel's partner, if it names one of the table's. -/
def partnerOf (s : State) (i : Fin 24) : Option (Fin 24) := namedChannel (channelSet s i).partner

/-- A channel given a disagreement start and DISAGREE. -/
def setAgreement (start : Option Time) (disagree : Bool) (c : Channel) : Channel :=
  { c with disagreeStart := start, faults := { c.faults with disagree := disagree } }

/-- Partner agreement evaluated at a reading of `i` with partner `j` (R23). R23 does not say whose agreement limit D and agreement
time count where the partners' settings differ: the model takes those of `i` (log entry 30, DESIGN CHOICE). -/
def evaluateAgreement (i j : Fin 24) (s : State) : State :=
  let set := channelSet s i
  let a := s.channels[i]
  let b := s.channels[j]
  if !(a.seen && b.seen) || a.faults.stale || b.faults.stale then s
  else
    let apart := max (average a) (average b) - min (average a) (average b)
    if set.agreeLimit < apart then
      let start := a.disagreeStart.getD s.time
      let late := decide (set.agreeTime * 1000 ≤ (s.time - start).toNat)
      changeChannel j (fun c => setAgreement (some start) (late || c.faults.disagree) c)
        (changeChannel i (fun c => setAgreement (some start) (late || c.faults.disagree) c) s)
    else changeChannel j (setAgreement none false) (changeChannel i (setAgreement none false) s)

/-! ## Handing on (R17 to R20, R25) -/

/-- A fault of `after` is not one of `before`. -/
def faultAdded (before after : FaultFlags) : Bool :=
  (after.fe && !before.fe) || (after.under && !before.under) || (after.saturated && !before.saturated)
    || (after.stale && !before.stale) || (after.disagree && !before.disagree)

/-- A change of the fault set handed on (R18). -/
def handFaults (i : Fin 24) (before after : FaultFlags) (s : State) : State :=
  if before = after then s
  else
    let s := addRecord recChannelFault i.val (detail [(5, faultBits before), (5, faultBits after)]) s
    if faultAdded before after then recordFault .sensorFault (.own unitAir (word i.val) 0) s else s

/-- A GRADE_CHANGE record (R19, R184). -/
def gradeRecord (i : Fin 24) (before after : Grade) (s : State) : State :=
  addRecord recGradeChange i.val (detail [(2, Grade.code before), (2, Grade.code after)]) s

/-- A change of the held grade handed on, with the AIR_ALARM request of a rise of an alerting channel (R19, R20). -/
def handGrade (i : Fin 24) (before after : Grade) (s : State) : State :=
  if before = after then s
  else
    let s := gradeRecord i before after s
    if (channelSet s i).alerting && Grade.atLeastAlarm after && decide (Grade.code before < Grade.code after) then
      requestFrame (.airAlarm i after (average s.channels[i])) s
    else s

/-- What a channel's event hands on, in the order of R17. -/
def handOn (i : Fin 24) (before : Channel) (s : State) : State :=
  let after := s.channels[i]
  let s := handFaults i before.faults after.faults s
  let s := handGrade i (held before) (held after) s
  postChanged (channelWords i) s

/-- The channels whose held grade the event has changed. -/
def gradesChanged (s0 s : State) : List (Fin 24) :=
  (List.finRange 24).filter (fun i => held s0.channels[i] != held s.channels[i])

/-- A GRADE or FAULTED selector names a channel whose held grade, or the emptiness of whose fault set, has changed (R35). -/
def channelTouched (s0 s : State) (sel : Selector) : Bool :=
  if sel.index.val < 24 then
    let k : Fin 24 := Fin.ofNat 24 sel.index.val
    (sel.code == 2 && held s0.channels[k] != held s.channels[k])
      || (sel.code == 3 && hasFault s0.channels[k].faults != hasFault s.channels[k].faults)
  else false

/-- An alerting channel joins the ALERT cause set at a rise to ALARM or above and leaves it at a fall below (R48). -/
def alertChannel (s : State) (i : Fin 24) : State :=
  if !(channelSet s i).alerting then s
  else if Grade.atLeastAlarm (held s.channels[i]) then joinAlert (.channel i) s
  else leaveAlert (.channel i) s

/-- A chamber names one of the channels. -/
def chamberNames (s : State) (c : Fin 4) (channels : List (Fin 24)) : Bool :=
  let set := s.effective.chambers[c]
  channels.any (fun k => namedChannel set.o2 == some k || namedChannel set.co == some k)

/-- The readers of what the channels have become, at the end of the event that began in `s0` (R19): the trip cells, the ALERT
cause set, the gated segments and, where `alarms` is set, the chamber alarms, in that order (log entry 9). -/
def airReaders (alarms : Bool) (s0 s : State) : State :=
  let changed := gradesChanged s0 s
  let t := reevaluate (channelTouched s0 s) s
  let t := changed.foldl alertChannel t
  let t := regate changed t
  if alarms then forEach 4 (fun c t => if chamberNames t c changed then deriveAlarm c t else t) t else t

/-- An arrival of channel `i` (R17): `f` takes it, partner agreement is evaluated where `graded`, and the live grade of the
channel, and of a partner whose DISAGREE has changed, is recomputed and handed on. The channel is handed on before its partner,
an order that R18 and R23 do not give (log entry 31, DESIGN CHOICE). A channel is handed on once for the arrival, not once for an
event that has two of them (log entry 41, DESIGN CHOICE). The readers are told by the caller. -/
def arrival (i : Fin 24) (graded : Bool) (f : Channel → Channel) (s : State) : State :=
  let before := s.channels[i]
  let s := changeChannel i f s
  match (if graded then partnerOf s i else none) with
  | none => handOn i before (recomputeChannel i s)
  | some j =>
    let other := s.channels[j]
    let s := recomputeChannel i (evaluateAgreement i j s)
    if s.channels[j].faults.disagree = other.faults.disagree then handOn i before s
    else handOn j other (handOn i before (recomputeChannel j s))

/-- The single channel with a source (R3, R8). -/
def channelOf (s : State) (source : Source) : Option (Fin 24) := findIndex s.effective.channels (fun c => c.source == source)

/-- The verdict of a reading of raw air word `n` (R3). -/
def rawVerdict (s : State) (n : Fin 16) (w : Word) : Verdict :=
  match channelOf s (.localInput n) with
  | none => .notUsed
  | some i => readingVerdict (channelSet s i) s.channels[i] (bits w 0 12) (bits w 12 4) (bitOf w 16)

/-- A reading of raw air word `n` acts on its channel (R3 to R7). -/
def rawReading (n : Fin 16) (w : Word) (s : State) : State :=
  match channelOf s (.localInput n) with
  | none => s
  | some i =>
    match rawVerdict s n w with
    | .duplicate => s
    | verdict =>
      let take := takeReading (channelSet s i) verdict (bits w 0 12) (bits w 12 4)
      airReaders true s (arrival i (verdict == .taken) take s)

/-- A raw air word with its verdict field replaced (R3, R179). -/
def withVerdict (v : Verdict) (w : Word) : Word := (w &&& ~~~(0xE0000 : Word)) ||| layout [(17, 3, Verdict.code v)]

/-- A chamber value handed to its channel, if one has that source (R8); the readers are told by the caller. The arrival hands its
channels on at once, so where a status changes one channel at both its values, the two channels of the chamber being partners, that
channel is handed on twice in the event (log entry 41, DESIGN CHOICE). -/
def chamberValue (c : Fin 4) (gas : Gas) (w : BitVec 16) (s : State) : State :=
  match channelOf s (.chamber c gas) with
  | none => s
  | some i => arrival i (w != 0xFFFF) (takeChamberValue (channelSet s i) w) s

/-- A channel's stale timer expires (R24). -/
def staleExpiry (i : Fin 24) (s : State) : State :=
  let expire (c : Channel) : Channel := { c with stale := .expired, faults := { c.faults with stale := true } }
  airReaders true s (arrival i false expire s)

/-! ## The rate window (R21, R22) -/

/-- One channel at a rate window expiry (R22). -/
def rateChannel (set : ChannelSet) (c : Channel) : Channel :=
  let avg := average c
  if set.source = .off then c
  else if c.limits.rate = 0 then recomputeLive set { c with rising := false, windowStart := avg }
  else if !c.seen then recomputeLive set c
  else
    let rise : Int := if set.falling then (c.windowStart : Int) - avg else (avg : Int) - c.windowStart
    recomputeLive set { c with rising := decide ((c.limits.rate : Int) ≤ rise), windowStart := avg }

/-- One channel at the expiry that stops the timer, after R22 (R21). -/
def stopRateChannel (set : ChannelSet) (c : Channel) : Channel :=
  let c := { c with rising := false, windowStart := average c }
  if set.source = .off then c else recomputeLive set c

/-- Every channel changed under its settings. -/
def eachChannel (f : ChannelSet → Channel → Channel) (s : State) : State :=
  forEach 24 (fun i s => changeChannel i (f (channelSet s i)) s) s

/-- An expiry of the rate window timer (R21, R22, R78). The channels are handed on in rising index, an order that R22 does not give
(log entry 31, DESIGN CHOICE). -/
def rateExpiry (s : State) : State :=
  let t := eachChannel rateChannel s
  let t := if s.rate.staged = some 0 then eachChannel stopRateChannel t else t
  let t := forEach 24 (fun i t => handOn i s.channels[i] t) t
  airReaders true s { t with rate := PeriodTimer.expire t.rate }

/-! ## Acknowledgement (R29, R30) -/

/-- The acknowledgement of a channel, judged against the grade the arming read showed. -/
def acknowledge (i : Fin 24) (shown : Nat) (s : State) : State :=
  let before := held s.channels[i]
  if shown = Grade.code before then
    let t := changeChannel i (fun c => { c with latched := c.live }) s
    let after := held t.channels[i]
    let t := if after = before then t else gradeRecord i before after t
    let t := addRecord recAcknowledged i.val (detail [(2, shown), (2, Grade.code after)]) t
    airReaders true s (postChanged [0x040 + 8 * i.val] t)
  else s

end Sys2Proof.Machine
end

