-- ==== Sys2Proof/Machine/CallOps.lean ====
section
/-! DEFINITION. What the call unit does inside any event: priorities, admission, activity, closing and the distress list (R115 to
R128). -/

namespace Sys2Proof.Machine

open Sys2Proof.Config

/-! ## The table -/

/-- A call position given new contents, with its words and the count words (R129). -/
def setCall (p : Fin 8) (c : Option Call) (s : State) : State :=
  reportChanged (callWords p) { s with call := { s.call with table := s.call.table.set p c } }

/-- The position that holds a call id (R83, R117). -/
def callPosition (s : State) (id : CallId) : Option (Fin 8) :=
  findIndex s.call.table (fun c => match c with | some c => c.id == id | none => false)

/-- The priority of a call (R116). -/
def priorityOf (s : State) (id : CallId) (miner : Id) (origin : CallOrigin) : Priority :=
  if s.call.distress.any (fun d => d.miner == miner || d.call == some id) then .distress
  else match origin with
    | .chamber _ => .refuge
    | .handset => .ordinary

/-- The silence timer's start (R120). -/
def silenceStart (s : State) : Timer := Timer.start s.effective.node.silenceTime

/-- One call's priority derived again (R116): a change is recorded, and a fall from DISTRESS restarts the silence timer. -/
def rederivePriority (p : Fin 8) (s : State) : State :=
  match s.call.table[p] with
  | none => s
  | some c =>
    let after := priorityOf s c.id c.miner c.origin
    if after = c.priority then s
    else
      let silence := if c.priority = .distress then silenceStart s else c.silence
      let s := addRecord recCallPriority c.id.toNat (detail [(2, Priority.code c.priority), (2, Priority.code after)]) s
      setCall p (some { c with priority := after, silence := silence }) s

/-- Every call's priority derived again, in position order (log entry 15). -/
def rederivePriorities (s : State) : State := forEach 8 rederivePriority s

/-- An activity of a call (R119). -/
def callActivity (p : Fin 8) (s : State) : State :=
  match s.call.table[p] with
  | none => s
  | some c => setCall p (some { c with last := s.time, silence := silenceStart s }) s

/-- A new call admitted into a free position, last in the admission order (R118, case 1). -/
def admitCall (p : Fin 8) (id : CallId) (miner : Id) (origin : CallOrigin) (priority : Priority) (s : State) : State :=
  let entry : Call :=
    { id := id, miner := miner, origin := origin, priority := priority, opened := s.time, last := s.time,
      silence := silenceStart s }
  setCall p (some entry) { s with call := { s.call with order := s.call.order ++ [p] } }

/-- The slot holds a frame of the call that is IN_FLIGHT. -/
def callInFlight (s : State) (id : CallId) (n : Fin 64) : Bool :=
  s.ring.shadows[n].state == .inFlight && s.ring.shadows[n].tag == id

/-- The frames of a call that are IN_FLIGHT when it leaves the table: their SENT completions are no activity of a later call with its id
(R119, R123; log entry 37). -/
def departFrames (id : CallId) (s : State) : State :=
  { s with ring := { s.ring with departed := tabulate (fun n => s.ring.departed[n] || callInFlight s id n) } }

/-- A position freed, and its place in the admission order with it; the frames of call `id` that are IN_FLIGHT are its last (R123). -/
def freeCall (p : Fin 8) (id : CallId) (s : State) : State :=
  setCall p none (departFrames id { s with call := { s.call with order := s.call.order.filter (· ≠ p) } })

/-- The priority of the call at a position, DISTRESS where it is free. -/
def positionPriority (s : State) (p : Fin 8) : Priority :=
  match s.call.table[p] with
  | some c => c.priority
  | none => .distress

/-- Among the calls of the lowest priority present, the earliest in the admission order, if that priority is below the new
call's (R118, case 2). -/
def preemptable (s : State) (priority : Priority) : Option (Fin 8) :=
  let lowest := s.call.order.foldl (fun k p => min k (Priority.code (positionPriority s p))) (Priority.code .distress)
  if lowest < Priority.code priority then
    s.call.order.find? (fun p => Priority.code (positionPriority s p) == lowest)
  else none

/-- The saturating counts of the call unit changed by `f`, with the two count words. -/
def countCall (f : CallUnit → CallUnit) (s : State) : State := reportChanged [0x200, 0x204] { s with call := f s.call }

/-- A call is pre-empted (R118, case 2): its removal, its record and the count. -/
def preemptCall (p : Fin 8) (newId : CallId) (s : State) : State :=
  match s.call.table[p] with
  | none => s
  | some c =>
    let fields := [(2, Priority.code c.priority), detailTime c.opened, detailId newId.toNat]
    let s := addRecord recCallPreempted c.id.toNat (detail fields) (freeCall p c.id s)
    countCall (fun u => { u with preempted := saturate countTop u.preempted }) s

/-- A CALL_OPEN frame (R117, R118). -/
def callOpen (id : CallId) (miner : Id) (origin : CallOrigin) (s : State) : State :=
  match callPosition s id with
  | some p =>
    match s.call.table[p] with
    | none => s
    | some c => callActivity p (rederivePriorities (setCall p (some { c with miner := miner, origin := origin }) s))
  | none =>
    let priority := priorityOf s id miner origin
    match findIndex s.call.table (fun c => c.isNone) with
    | some p => admitCall p id miner origin priority s
    | none =>
      match preemptable s priority with
      | some p => admitCall p id miner origin priority (preemptCall p id s)
      | none =>
        let s := addRecord recCallRefused id.toNat (detail [detailId miner.toNat, (2, Priority.code priority)]) s
        countCall (fun u => { u with refused := saturate countTop u.refused }) s

/-- A call closes (R123); the reason is 1 CLOSE_FRAME, 2 SILENCE or 3 REQUEST (R184), in 2 bits (log entry 17). -/
def closeCall (p : Fin 8) (reason : Nat) (s : State) : State :=
  match s.call.table[p] with
  | none => s
  | some c => addRecord recCallClosed c.id.toNat (detail [(2, reason), (2, Priority.code c.priority)]) (freeCall p c.id s)

/-- A CALL_CLOSE frame (R121). -/
def callClose (id : CallId) (s : State) : State :=
  match callPosition s id with
  | some p => closeCall p 1 s
  | none => s

/-- A VOICE frame (R119). -/
def callVoice (id : CallId) (s : State) : State :=
  match callPosition s id with
  | some p => callActivity p s
  | none => s

/-- A SENT completion of slot `n` of the REFUGE or the CALL ring with tag `tag` (R86, R119): no activity where the frame's call has left
the table while it was IN_FLIGHT (R123). -/
def callSent (n : Fin 64) (tag : BitVec 8) (s : State) : State :=
  if s.effective.node.silenceAny && !s.ring.departed[n] then callVoice tag s else s

/-- A call's silence timer is due. -/
def silenceDue (s : State) (p : Fin 8) : Bool := match s.call.table[p] with | some c => Timer.due c.silence | none => false

/-- A call's silence timer expires (R120). -/
def callSilence (p : Fin 8) (s : State) : State :=
  match s.call.table[p] with
  | none => s
  | some c =>
    if c.priority = .distress then setCall p (some { c with silence := .expired }) s
    else countCall (fun u => { u with silenceCloses := saturate countTop u.silenceCloses }) (closeCall p 2 s)

/-! ## The distress list -/

/-- The distress list changed, with its words (R129). -/
def setDistress (l : List Distress) (s : State) : State :=
  reportChanged distressWords { s with call := { s.call with distress := l } }

/-- The place of a miner's entry in the distress list; the list's length where there is none. -/
def distressPlace (s : State) (miner : Id) : Nat := s.call.distress.findIdx (fun d => d.miner == miner)

/-- A miner's entry leaves the distress list: the words of every position from its own to the old last are queued, each once and
whatever its value, and then the summary word, whose number of entries has changed (R129). -/
def removeDistress (miner : Id) (s : State) : State :=
  let place := distressPlace s miner
  reportChanged [0x290] (reportAlways (wordRange (0x210 + 16 * place) (4 * (s.call.distress.length - place)))
    { s with call := { s.call with distress := s.call.distress.filter (fun e => e.miner != miner) } })

/-- A call id field of a frame: 0 for none (R106). -/
def callField (id : CallId) : Option CallId := if id = 0 then none else some id

/-- The DISTRESS_RELAY request of an entry (R125, R127). -/
def requestRelay (miner : Id) (first : Time) (node : NodeId) (s : State) : State :=
  requestFrame (.distressRelay miner first node) s

/-- The reporting node and call id of a DISTRESS record (R125, R126). -/
def distressDetail (node : NodeId) (id : CallId) : Word := detail [(12, node.toNat), detailId id.toNat]

/-- A DISTRESS frame for a listed miner (R125). -/
def refreshDistress (miner : Id) (id : CallId) (d : Distress) (s : State) : State :=
  let call := if id = 0 then d.call else some id
  let refresh (e : Distress) : Distress := if e.miner = miner then { e with last := s.time, call := call } else e
  let s := setDistress (s.call.distress.map refresh) s
  if call = d.call then s else rederivePriorities s

/-- A DISTRESS frame for an unlisted miner with room in the list (R125). Of the report words, the distress words stand first, then the
changed call words and the level word, which R125 does not place (log entry 38, DESIGN CHOICE). -/
def addDistress (miner : Id) (id : CallId) (node : NodeId) (s : State) : State :=
  let entry : Distress := { miner := miner, node := node, first := s.time, last := s.time, call := callField id }
  let wasEmpty := s.call.distress.isEmpty
  let s := setDistress (s.call.distress ++ [entry]) s
  let s := rederivePriorities (addRecord recDistressAdded miner.toNat (distressDetail node id) s)
  let s := if wasEmpty then joinAlert .distress s else s
  requestRelay miner entry.first node s

/-- A DISTRESS frame for an unlisted miner at a full list (R126). -/
def overflowDistress (miner : Id) (id : CallId) (node : NodeId) (s : State) : State :=
  let s := addRecord recDistressOverflow miner.toNat (distressDetail node id) s
  let s := { s with call := { s.call with overflow := saturate countTop s.call.overflow } }
  requestRelay miner s.time node (reportChanged [0x290] s)

/-- The distress entry of a miner. -/
def distressOf (s : State) (miner : Id) : Option Distress := s.call.distress.find? (fun d => d.miner == miner)

/-- A DISTRESS frame (R125, R126). -/
def callDistress (miner : Id) (id : CallId) (node : NodeId) (s : State) : State :=
  match distressOf s miner with
  | some d => refreshDistress miner id d s
  | none => if s.call.distress.length < distressSize then addDistress miner id node s else overflowDistress miner id node s

/-- The relays of a repeat expiry, in list order (R127). -/
def repeatRelays (s : State) : State := s.call.distress.foldl (fun t d => requestRelay d.miner d.first d.node t) s

/-- A listed miner's entry is cleared (R128). Of the report words, the distress words stand first, then the changed call words and the
level word, which R128 does not place (log entry 38, DESIGN CHOICE). -/
def clearDistress (d : Distress) (s : State) : State :=
  let s := removeDistress d.miner s
  let s := addRecord recDistressCleared d.miner.toNat (detail [detailTime d.first]) s
  let s := rederivePriorities (withdrawFrames (PartFrame.relays d.miner) s)
  if s.call.distress.isEmpty then leaveAlert .distress s else s

end Sys2Proof.Machine
end

