-- ==== Sys2Proof/Machine/BeaconOps.lean ====
section
/-! DEFINITION. The roadway unit's own events: a beacon in its four steps, a lapse, a lost truck, a forget timer and a clearing
(R134 to R138, R146 to R149). -/

namespace Sys2Proof.Machine

open Sys2Proof.Config

/-! ## A beacon (R134 to R138) -/

/-- The roadway unit's counts changed by `f`, with the count word. -/
def countRoad (f : RoadUnit → RoadUnit) (s : State) : State := reportChanged [0x504] { s with road := f s.road }

/-- A beacon of a truck, as handed on (R107). -/
structure Beacon where
  truck     : Id
  power     : Power
  heading   : Heading
  current   : Id
  requested : Id
  deriving DecidableEq, Repr

/-- The truck's record after a beacon, its timers restarted (R134). -/
def beaconRecord (s : State) (b : Beacon) : Truck :=
  { id := b.truck, power := b.power, heading := b.heading, lastSegment := b.current, lastBeacon := s.time, lost := none,
    stale := Timer.start s.effective.node.truckStale, forget := Timer.start s.effective.node.truckForget }

/-- The first step: the truck's record is updated or created; none where the table is full (R134). -/
def beaconTruck (b : Beacon) (s : State) : Option State :=
  match truckPosition s b.truck with
  | some p =>
    let lost : Option Time := match s.road.trucks[p] with | some t => t.lost | none => none
    let s := setTruck p (some (beaconRecord s b)) s
    match lost with
    | some at_ => some (addRecord recTruckFound b.truck.toNat (detail [detailTime at_]) s)
    | none => some s
  | none =>
    match findIndex s.road.trucks (fun t => t.isNone) with
    | some p => some (setTruck p (some (beaconRecord s b)) s)
    | none => none

/-- A truck leaves a segment that it occupies (R135). -/
def leaveSegment (truck : Id) (i : Fin 16) (s : State) : State :=
  let s := changeSegment i (fun g => { g with
    granted := g.granted.filter (· ≠ truck), unauthorised := g.unauthorised.filter (· ≠ truck) }) s
  let s := addRecord recSegmentLeft truck.toNat (detail [detailId (segmentId s i).toNat]) s
  markSegment i (rederive i s)

/-- The second step: the truck leaves every segment it occupies but the current one (R135). -/
def beaconLeave (truck : Id) (current : Option (Fin 16)) (s : State) : State :=
  forEach 16 (fun i s => if occupies s.road.segments[i] truck && current != some i then leaveSegment truck i s else s) s

/-- The third step in a controlled current segment (R136). A holder that enters leaves the holder list, which marks the queue (R142). The
heading of ENTRY_WITHOUT_GRANT takes the 2-bit code of 12.2, and not the 1-bit one of the truck words (log entry 17). -/
def beaconEnter (b : Beacon) (i : Fin 16) (s : State) : State :=
  let g := s.road.segments[i]
  let id := detailId (segmentId s i).toNat
  if holds g b.truck then
    let s := changeSegment i (fun g => { g with
      holders := g.holders.filter (fun h => h.truck != b.truck), granted := g.granted ++ [b.truck] }) s
    markSegment i (rederive i (addRecord recSegmentEntered b.truck.toNat (detail [id]) s))
  else if occupies g b.truck then rederive i s
  else
    let s := if waits g b.truck then markSegment i (dropWaiter i b.truck s) else s
    let unlisted := decide (unauthorisedSize ≤ g.unauthorised.length)
    let s := if unlisted then s else changeSegment i (fun g => { g with unauthorised := g.unauthorised ++ [b.truck] }) s
    let fields := [id, (2, Heading.code b.heading), (1, unlisted.toNat)]
    rederive i (addRecord recEntryWithoutGrant b.truck.toNat (detail fields) s)

/-- The truck's entry leaves every queue but that of segment `i`, and those queues are marked (R138, case 5). -/
def leaveOtherQueues (truck : Id) (i : Fin 16) (s : State) : State :=
  forEach 16 (fun k s =>
    if waits s.road.segments[k] truck && k != i then markSegment k (dropWaiter k truck s) else s) s

/-- The last step for a controlled requested segment, in the first case of R138 that applies. An occupant is a listed one: a truck
that a full unauthorised list has left unlisted (R136) is queued (log entry 33, DESIGN CHOICE). -/
def beaconRequest (b : Beacon) (i : Fin 16) (s : State) : State :=
  let g := s.road.segments[i]
  let entry : Waiter := { truck := b.truck, dir := b.heading }
  if holds g b.truck || occupies g b.truck then s
  else if s.road.segments.toList.any (fun g => holds g b.truck) then s
  else if waits g b.truck then
    markSegment i (changeSegment i (fun g => { g with
      queue := g.queue.map (fun w => if w.truck = b.truck then entry else w) }) s)
  else if g.queue.length = waitQueueSize then
    countRoad (fun r => { r with queueFull := saturate countTop r.queueFull })
      (addRecord recQueueFull b.truck.toNat (detail [detailId (segmentId s i).toNat]) s)
  else
    markSegment i (changeSegment i (fun g => { g with queue := g.queue ++ [entry] }) (leaveOtherQueues b.truck i s))

/-- A segment field that names a controlled segment. -/
def controlledIndex (s : State) (id : Id) : Option (Fin 16) :=
  match segmentIndex s id with
  | some i => if controlled s i then some i else none
  | none => none

/-- A TRUCK_BEACON (R134 to R138). -/
def takeBeacon (b : Beacon) (s : State) : State :=
  match beaconTruck b s with
  | none =>
    countRoad (fun r => { r with tableFull := saturate countTop r.tableFull })
      (addRecord recTruckTableFull b.truck.toNat (detail [detailId b.current.toNat, detailId b.requested.toNat]) s)
  | some s =>
    let current := controlledIndex s b.current
    let s := beaconLeave b.truck current s
    let s := match current with | some i => beaconEnter b i s | none => s
    match controlledIndex s b.requested with
    | some i => beaconRequest b i s
    | none => s

/-! ## Lapse, lost trucks, forgetting, clearing -/

/-- A holder's grant timer is due. -/
def grantDue (s : State) (i : Fin 16) (truck : Id) : Bool :=
  s.road.segments[i].holders.any (fun h => h.truck == truck && Timer.due h.grant)

/-- A holder's grant timer expires (R146). -/
def grantExpiry (i : Fin 16) (truck : Id) (s : State) : State :=
  let id := segmentId s i
  let s := withdrawGrant truck id (dropHolder i truck s)
  let s := requestFrame (.revoke truck id .lapsed) (addRecord recGrantLapsed truck.toNat (detail [detailId id.toNat]) s)
  markSegment i (rederive i s)

/-- A truck's timer, as `f` picks it, is due. -/
def truckDue (s : State) (p : Fin 32) (f : Truck → Timer) : Bool :=
  match s.road.trucks[p] with | some t => Timer.due (f t) | none => false

/-- A truck's stale timer expires: a TRACKED truck becomes LOST and leaves its queue (R147). TRUCK_LOST names the last segment by its id, in
16 bits, and not as the truck words do (log entry 17). -/
def truckStaleExpiry (p : Fin 32) (s : State) : State :=
  match s.road.trucks[p] with
  | none => s
  | some t =>
    match t.lost with
    | some _ => setTruck p (some { t with stale := .expired }) s
    | none =>
      let s := setTruck p (some { t with stale := .expired, lost := some s.time }) s
      let fields := [detailId t.lastSegment.toNat, detailTime t.lastBeacon]
      let s := addRecord recTruckLost t.id.toNat (detail fields) s
      forEach 16 (fun k s =>
        if waits s.road.segments[k] t.id then markSegment k (dropWaiter k t.id s) else s) s

/-- A truck's forget timer expires; the end of the event removes it if it is forgettable (R148). -/
def truckForgetExpiry (p : Fin 32) (s : State) : State :=
  match s.road.trucks[p] with
  | none => s
  | some t => setTruck p (some { t with forget := .expired }) s

/-- The segments in which a truck has a place that `p` finds. -/
def segmentsWhere (s : State) (p : Segment → Bool) : List (Fin 16) :=
  (List.finRange 16).filter (fun i => p s.road.segments[i])

/-- A cleared truck's REVOKE (R149). -/
def requestCleared (truck : Id) (i : Fin 16) (s : State) : State :=
  requestFrame (.revoke truck (segmentId s i) .cleared) s

/-- Every place of a truck in a segment is removed, the direction derived again and the queue marked (R149). -/
def clearPlaces (truck : Id) (i : Fin 16) (s : State) : State :=
  let s := dropWaiter i truck (dropHolder i truck s)
  let s := changeSegment i (fun g => { g with
    granted := g.granted.filter (· ≠ truck), unauthorised := g.unauthorised.filter (· ≠ truck) }) s
  markSegment i (rederive i s)

/-- A truck of the table is cleared (R149). The segments touched are derived again in rising index, an order that R149 does not give (log
entry 32, DESIGN CHOICE). -/
def clearTruck (p : Fin 32) (truck : Id) (s : State) : State :=
  let holding := segmentsWhere s (fun g => holds g truck)
  let occupying := segmentsWhere s (fun g => occupies g truck)
  let waiting := segmentsWhere s (fun g => waits g truck)
  let s := withdrawFrames (fun f => match f with | .grant t _ _ | .revoke t _ _ => t == truck | _ => false) s
  let s := waiting.foldl (fun s i => requestCleared truck i s) (holding.foldl (fun s i => requestCleared truck i s) s)
  let s := (segmentsWhere s (fun g => holds g truck || occupies g truck || waits g truck)).foldl
    (fun s i => clearPlaces truck i s) s
  let places := (holding ++ occupying ++ waiting).flatMap (fun i => [(4, i.val), (1, 1)])
  setTruck p none (addRecord recTruckCleared truck.toNat (detail places) s)

end Sys2Proof.Machine
end

