-- ==== Sys2Proof/Machine/FrameOps.lean ====
section
/-! DEFINITION. The frame unit: header capture, completions, parsing, and a dispatched frame taken by its receiving unit (R50,
R52, R100 to R103, R105, R107 to R111, R113, R157). -/

namespace Sys2Proof.Machine

open Sys2Proof.Config

/-! ## Receiving units -/

/-- An EVACUATE frame (R52), in the first case that applies. -/
def takeEvacuate (hop : BitVec 4) (node : NodeId) (seq : BitVec 8) (reason : BitVec 4) (s : State) : State :=
  if node = s.effective.node.nodeId then s
  else if s.level.ended = some (node, seq) then s
  else
    match s.level.cause with
    | some c =>
      if c.node = node ∧ c.seq = seq then
        let raise := match c.hop with
          | none => decide (1 ≤ hop.toNat)
          | some h => decide (1 ≤ hop.toNat) && decide (h.toNat < hop.toNat - 1)
        if raise then
          reportChanged levelWords { s with level := { s.level with cause := some { c with hop := some (hop - 1) } } }
        else s
      else remoteCause hop node seq reason s
    | none => remoteCause hop node seq reason s

/-- An AIR_ALARM frame from another node (R50). -/
def takeAirAlarm (origin : NodeId) (s : State) : State :=
  if origin = s.effective.node.nodeId then s
  else if s.effective.node.remoteHold = 0 then s
  else joinAlert .remote
    (reportChanged [0x010] { s with level := { s.level with remote := Timer.start s.effective.node.remoteHold } })

/-- A REFUGE_STATUS frame (R157). Each value is an arrival that hands on what it changed before the next is taken (log entry 41,
DESIGN CHOICE); the readers of the two channels are told after both values; the chamber alarms are derived in step 5. -/
def takeStatus (c : Fin 4) (airlock : AirlockReport) (o2 co headcount : BitVec 16) (s : State) : State :=
  let t := chamberValue c .co co (chamberValue c .o2 o2 s)
  let t := airReaders false s t
  let t := deriveMismatch c (reportChamber c airlock headcount t)
  forEach 4 deriveAlarm t

/-- The chamber table entry is used (R152). -/
def usedChamber (s : State) (c : Fin 4) : Bool := chamberId s c != 0

/-- A dispatched frame taken by its receiving unit (R107 to R110). -/
def takeFrame (f : Frame) (s : State) : State :=
  match f with
  | .truckBeacon truck power heading _ current requested =>
    takeBeacon { truck := truck, power := power, heading := heading, current := knownSegment s current,
                 requested := knownSegment s requested } s
  | .callOpen call miner origin => callOpen call miner origin s
  | .callClose call => callClose call s
  | .voice call => callVoice call s
  | .distress miner call node => callDistress miner call node s
  | .checkIn c miner => if usedChamber s c then checkIn c miner s else s
  | .checkOut c miner => if usedChamber s c then checkOut c miner s else s
  | .refugeStatus c airlock o2 co headcount => if usedChamber s c then takeStatus c airlock o2 co headcount s else s
  | .evacuate hop _ node seq reason => takeEvacuate hop node seq reason s
  | .airAlarm origin _ _ => takeAirAlarm origin s

/-- The frame is no longer waiting to be taken. -/
def clearHandover (f : Frame) (s : State) : State :=
  if s.frame.handover = some f then { s with frame := { s.frame with handover := none } } else s

/-- The event in which a receiving unit takes a frame (R111): nothing in SETUP (R99), and nothing for a frame with an undefined
field (R105). -/
def frameEvent (f : Frame) (s : State) : State :=
  runEvent (fun s => if Frame.defined f then takeFrame f (clearHandover f s) else s) s

/-! ## Capture and completion -/

/-- The frame unit changed by `f`. -/
def changeFrame (f : FrameUnit → FrameUnit) (s : State) : State := { s with frame := f s.frame }

/-- A header word captured (R101). -/
def captureWord (k : Fin 4) (w : Word) (c : Capture) : Capture :=
  match k with
  | 0 => { h0 := some w }
  | 1 => { c with h1 := some w }
  | 2 => { c with h2 := some w }
  | 3 => { c with h3 := some w }

/-- A header word's captured flag cleared by a partial write (R68). -/
def uncaptureWord (k : Fin 4) (c : Capture) : Capture :=
  match k with
  | 0 => { c with h0 := none }
  | 1 => { c with h1 := none }
  | 2 => { c with h2 := none }
  | 3 => { c with h3 := none }

/-- A capture entry changed by `f`. -/
def changeCapture (i : Fin 32) (f : Capture → Capture) (s : State) : State :=
  changeFrame (fun u => { u with capture := modifyAt u.capture i f }) s

/-- A capture entry with all four words as a header. -/
def fullHeader (c : Capture) : Option Header :=
  match c.h0, c.h1, c.h2, c.h3 with
  | some h0, some h1, some h2, some h3 => some { h0 := h0, h1 := h1, h2 := h2, h3 := h3 }
  | _, _, _, _ => none

/-- The receive report words (R113). -/
def postFrame (s : State) : State := reportChanged [0x180, 0x184, 0x188, 0x18C] s

/-- An ignored frame (R105). -/
def ignoreFrame (s : State) : State :=
  postFrame (changeFrame (fun u => { u with ignored := saturate countTop u.ignored }) s)

/-- A dispatched frame: the count, the last frame, and the hand-over (R105, R111, R113). -/
def dispatchFrame (i : Fin 32) (h : Header) (f : Frame) (s : State) : State :=
  let last : LastFrame := { slot := i, kind := bits h.h0 24 8, origin := Header.origin h, seq := Header.seq h }
  postFrame (changeFrame (fun u => { u with
    dispatched := saturate countTop u.dispatched, last := some last, handover := some f }) s)

/-- The parsing of a captured header (R105). -/
def parseFrame (i : Fin 32) (h : Header) (s : State) : State :=
  if Header.origin h = s.effective.node.nodeId then ignoreFrame s
  else match parseFields s h with
    | .notParsed => ignoreFrame s
    | .undefinedField =>
      recordFault .badFrame (.bus .modem (address (s.effective.regions.rxBuffers.toNat + 256 * i.val)) h.h0) s
    | .unknownObject => ignoreFrame s
    | .frame f => dispatchFrame i h f s

/-- The judgement of a completion of receive slot `i` with word 0 `w` at `addr` (R102). -/
def judgeCompletion (i : Fin 32) (addr : Addr) (w : Word) (s : State) : State :=
  if fieldNat w 28 2 != 0 then
    postFrame (changeFrame (fun u => { u with badCheck := saturate countTop u.badCheck }) s)
  else
    match fullHeader s.frame.capture[i] with
    | none => recordFault .shortHeader (.bus .modem addr w) s
    | some h =>
      if fieldNat w 0 9 < 16 then recordFault .shortHeader (.bus .modem addr w) s
      else if 256 < fieldNat w 0 9 then recordFault .badFrame (.bus .modem addr w) s
      else parseFrame i h s

/-- A MODEM full-word write of receive word 0 (R102, R103): a completion where the owner is 0. -/
def completion (i : Fin 32) (addr : Addr) (w : Word) (s : State) : State :=
  if bitOf w 31 then s else changeCapture i (fun _ => {}) (judgeCompletion i addr w s)

/-- A frame still waiting to be taken is taken before the next completion is judged (R111). -/
def takeHandover (s : State) : State :=
  match s.frame.handover with
  | some f => frameEvent f s
  | none => s

end Sys2Proof.Machine
end

