-- ==== Sys2Proof/Machine/TxOps.lean ====
section
/-! DEFINITION. The ring unit's part in bus accesses and in the start scan: the modem's reads of word 0, completions and strays,
the controller's descriptor writes and the scan (R82 to R84, R86 to R90). -/

namespace Sys2Proof.Machine

open Sys2Proof.Config

/-! ## The modem's read of word 0 (R83, R84) -/

/-- The answers of R83; a DISCARD for length 0 also records BAD_FRAME. -/
inductive Answer
  | hold | empty | again | discard (badFrame : Bool) | present
  deriving DecidableEq, Repr

/-- The head of a ring (R79); slot 0 where the next index is absent, which RUN never has. -/
def headOf (s : State) (r : Fin 4) : Fin 64 := (s.ring.rings[r].next).getD 0

/-- The slot is the head of its ring. -/
def isHead (s : State) (n : Fin 64) : Bool := s.ring.rings[ringOf s n.val].next == some n

/-- A ring of higher rank has a head whose shadow is READY (R83, case 6e). -/
def higherReady (s : State) (r : Fin 4) : Bool :=
  (List.finRange 4).any (fun k =>
    decide (k.val < r.val) && (s.ring.rings[k].next).isSome && s.ring.shadows[headOf s k].state == .ready)

/-- The frame record of a PART slot, if it is present and not withdrawn (R83, case 6c). -/
def liveRecord (s : State) (n : Fin 64) : Bool :=
  if n.val < 16 then
    match s.ring.records[Fin.ofNat 16 n.val] with
    | some f => !f.withdrawn
    | none => false
  else false

/-- The decision on a READY head (R83, case 6). -/
def readyAnswer (s : State) (n : Fin 64) : Answer :=
  let h := s.ring.shadows[n]
  let r := ringOf s n.val
  if h.length = 0 then .discard true
  else if r ≠ 0 ∧ h.tag ≠ 0 ∧ (callPosition s h.tag).isNone then .discard false
  else if r = 0 ∧ !liveRecord s n then .discard false
  else if r = 3 ∧ s.level.level = .evacuate then .hold
  else if higherReady s r then .hold
  else .present

/-- The decision on a MODEM full-word read of word 0 of slot `n` in RUN (R83). -/
def modemAnswer (s : State) (n : Fin 64) : Answer :=
  if scanPending s then .hold
  else if !isHead s n then .hold
  else match s.ring.shadows[n].state with
    | .empty => .empty
    | .unknown => .hold
    | .inFlight => .again
    | .ready => readyAnswer s n

/-- A transmit word 0 with its owner and discard fields replaced (R84, R179). -/
def withOwner (owner discard : Bool) (w : Word) : Word :=
  (w &&& ~~~(0xC0000000 : Word)) ||| layout [(30, 1, discard.toNat), (31, 1, owner.toNat)]

/-- The owner and discard fields that an answer shows (R84). -/
def shownFields (s : State) (n : Fin 64) : Answer → Bool × Bool
  | .hold | .empty => (false, false)
  | .present => (true, false)
  | .discard _ => (true, true)
  | .again => (true, s.ring.shadows[n].shown == some .discard)

/-- The data that an answer returns, from the word as memory holds it (R84). -/
def shownWord (s : State) (n : Fin 64) (a : Answer) (w : Word) : Word :=
  withOwner (shownFields s n a).1 (shownFields s n a).2 w

/-- A ring's record changed by `f`, with the report words of the ring. -/
def countRing (n : Fin 64) (f : RingRecord → RingRecord) (s : State) : State :=
  postRing n.val (changeRing (ringOf s n.val) f s)

/-- A slot shown to the modem becomes IN_FLIGHT; its frame is of no call that has left since (R84, R123). -/
def showSlot (n : Fin 64) (v : Shown) (s : State) : State :=
  let s := { s with ring := { s.ring with departed := s.ring.departed.set n false } }
  changeShadow n (fun h => { h with state := .inFlight, shown := some v }) s

/-- The effect of an answer on the shadow and the ring record (R84). -/
def applyAnswer (n : Fin 64) (addr : Addr) (w : Word) (a : Answer) (s : State) : State :=
  match a with
  | .hold => countRing n (fun r => { r with held := saturate countTop r.held }) s
  | .empty | .again => s
  | .present =>
    let h := s.ring.shadows[n]
    let last : LastShown := { slot := n, tag := h.tag, kind := h.kind, dest := h.dest }
    countRing n (fun r => { r with lastShown := some last })
      (showSlot n .owned s)
  | .discard badFrame =>
    let s := countRing n (fun r => { r with discards := saturate countTop r.discards })
      (showSlot n .discard s)
    if badFrame then recordFault .badFrame (.bus .modem addr w) s else s

/-- A MODEM full-word read of word 0 of slot `n`, which memory holds as `w` (R83, R84). -/
def modemRead (n : Fin 64) (addr : Addr) (w : Word) (s : State) : State :=
  let a := modemAnswer s n
  applyAnswer n addr w a { s with readData := shownWord s n a w }

/-- The data of a MODEM partial read of a transmit word 0 in RUN: owner and discard are 0 where their lane is active (R84). -/
def partialShown (lanes : BitVec 4) (w : Word) : Word := if bitOf lanes 3 then withOwner false false w else w

/-! ## Completions (R86, R87) -/

/-- A MODEM full-word write of word 0 is the completion of an IN_FLIGHT head (R86), never while the scan is pending (R87). -/
def isCompletion (s : State) (n : Fin 64) : Bool :=
  !scanPending s && isHead s n && s.ring.shadows[n].state == .inFlight

/-- The status written back (R180): 1 is SENT and 3 LINK_FAILED. -/
def writtenStatus (w : Word) : Nat := fieldNat w 28 2

/-- The frame record of a completed PART slot is freed (R86). -/
def freeRecord (n : Fin 64) (s : State) : State :=
  reportChanged [0x170] { s with ring := { s.ring with records := s.ring.records.set (Fin.ofNat 16 n.val) none } }

/-- The completion of slot `n` with the written word `w` (R86). The list is served (step 3) at the end of the event, ahead of the
report words (step 4). -/
def completeSlot (n : Fin 64) (w : Word) (s : State) : State :=
  let r := ringOf s n.val
  let tag := s.ring.shadows[n].tag
  let s := changeShadow n (fun h => { h with state := .empty, shown := none }) s
  let s := countRing n (fun g => { g with next := some (slotAfter s n.val) }) s
  let s :=
    if writtenStatus w = 1 ∧ tag ≠ 0 ∧ (r = 1 ∨ r = 2) then callSent n tag s
    else if writtenStatus w = 3 then countRing n (fun g => { g with failed := saturate countTop g.failed }) s
    else s
  if r = 0 then freeRecord n s else s

/-- A MODEM full-word write of word 0 of slot `n` (R86, R87). -/
def modemWriteback (n : Fin 64) (addr : Addr) (w : Word) (s : State) : State :=
  if isCompletion s n then completeSlot n w s else recordFault .completionStray (.bus .modem addr w) s

/-! ## Controller writes (R88 to R90) -/

/-- A CONTROLLER full-word write of word 0 of slot `n` (R82, R88). -/
def controllerWord0 (n : Fin 64) (addr : Addr) (w : Word) (s : State) : State :=
  let h := s.ring.shadows[n]
  if !h.scanned then s
  else if h.state = .inFlight then recordFault .slotCollision (.bus .controller addr w) s
  else if bitOf w 31 then changeShadow n (fun h => { h with state := .ready, length := bits w 0 11 }) s
  else changeShadow n (fun h => { h with state := .empty, length := bits w 0 11 }) s

/-- A CONTROLLER full-word write of word 2 of slot `n` (R89). -/
def controllerWord2 (n : Fin 64) (addr : Addr) (w : Word) (s : State) : State :=
  if s.ring.shadows[n].state = .inFlight then recordFault .slotCollision (.bus .controller addr w) s
  else changeShadow n (fun h => { h with tag := bits w 0 8, dest := bits w 8 12, kind := bits w 20 8 }) s

/-- An accepted partial write on word 0 or word 2 of slot `n` (R90). -/
def unknownSlot (n : Fin 64) (s : State) : State :=
  changeShadow n (fun h => { h with state := .unknown, shown := none }) s

/-! ## The start scan (R74, R82) -/

/-- The slot that a scan read judges takes its shadow from word 0. -/
def scanSlot (n : Fin 64) (w : Word) (s : State) : State :=
  let judge (h : Shadow) : Shadow :=
    if h.state = .unknown then { h with scanned := true }
    else if bitOf w 31 then { h with scanned := true, state := .ready, length := bits w 0 11 }
    else { h with scanned := true, state := .empty }
  changeShadow n judge s

/-- Every ring's next index at its first slot (R81, R82). -/
def firstIndices (s : State) : State :=
  forEach 4 (fun r s => changeRing r (fun g => { g with next := some (Fin.ofNat 64 (ringStart s r.val)) }) s) s

/-- The ring and count words of every ring (R98, R183), which the model takes to be the ring report words of R82 (log
entry 28). -/
def ringWords : List Nat := wordRange 0x120 16

/-- The end of the scan (R82): the next indices, the fill index, and the ring report words, which are queued whatever their value;
the send list word and the slot state words only if they changed (log entry 28). -/
def endScan (s : State) : State :=
  let s := firstIndices s
  reportChanged [0x170] (reportAlways ringWords { s with ring := { s.ring with fill := 0 } })

/-- A read of the start scan at its cursor (R74, R82). -/
def scanRead (s : State) : State :=
  let n : Fin 64 := Fin.ofNat 64 s.path.scanCursor
  let w := memWord s.mem (s.effective.regions.txSlots.toNat + 16 * n.val)
  let s := scanSlot n w { s with path := { s.path with scanCursor := s.path.scanCursor + 1 } }
  if s.path.scanCursor = 64 then endScan s else s

end Sys2Proof.Machine
end

