-- ==== Sys2Proof/Machine/SetupOps.lean ====
section
/-! DEFINITION. Resets, the start checks and RUN entry (R165 to R167, R170). -/

namespace Sys2Proof.Machine

open Sys2Proof.Config

/-! ## Resets (R170) -/

/-- What a reset of any kind leaves: SETUP, every table, list, timer and index empty, no line driven; memory, the pins, the
waiting commands and the reset count are kept. A setting copy is kept except at POWER_ON. -/
def resetPart (kind : ResetKind) (count : Nat) (strap : BitVec 2) (copies : Settings) (staged : Staged) (s : State) : State :=
  { pending := s.pending, strap := strap, resetKind := kind, resetCount := count, copies := copies, staged := staged,
    mem := s.mem, readData := s.readData, pins := s.pins }

/-- POWER_ON clears the copies and staged words and sets the reset count to 0 (R170). -/
def powerOnReset (strap : BitVec 2) (s : State) : State := resetPart .powerOn 0 strap {} {} s

/-- RESET_INPUT and RESTART keep the copies and add 1 to the reset count (R170). -/
def warmReset (kind : ResetKind) (strap : BitVec 2) (s : State) : State :=
  resetPart kind (saturate countTop s.resetCount) strap s.copies s.staged s

/-! ## Start checks (R165) -/

/-- No two of the entries of a list are related by `p`. -/
def noTwo {α : Type} (p : α → α → Bool) : List α → Bool
  | [] => true
  | a :: rest => rest.all (fun b => !p a b) && noTwo p rest

/-- Two byte ranges share a byte. -/
def rangesMeet (a b : Nat × Nat) : Bool := decide (a.1 < b.1 + b.2) && decide (b.1 < a.1 + a.2)

/-- The seven regions and the setting area as byte ranges. -/
def allRanges (s : State) : List (Nat × Nat) :=
  (settingBase s.strap, 4096) :: (placedRegions s.copies.regions).map (fun r => r.2)

/-- Every base is a multiple of its region's size. -/
def regionsAligned (r : Regions) : Bool := (placedRegions r).all (fun e => e.2.1 % e.2.2 == 0)

/-- The thresholds are strictly ordered by the channel's sense and none exceeds full scale (CHANNEL_ORDER). -/
def thresholdsOrdered (c : ChannelSet) (t : Thresholds) : Bool :=
  c.fullScale != 0 && decide (t.t1 ≤ c.fullScale) && decide (t.t2 ≤ c.fullScale) && decide (t.t3 ≤ c.fullScale)
    && (if c.falling then decide (t.t3 < t.t2) && decide (t.t2 < t.t1) else decide (t.t1 < t.t2) && decide (t.t2 < t.t3))

/-- The channels whose source is not OFF. -/
def usedChannels (c : Settings) : List ChannelSet := c.channels.toList.filter (fun e => e.source != .off)

/-- A channel's partner, if it names one, names it back and is another used channel (PARTNER_MUTUAL). -/
def partnerMutual (c : Settings) (i : Fin 24) : Bool :=
  match c.channels[i].partner with
  | none => true
  | some k =>
    if k.val < 24 then
      let other := c.channels[Fin.ofNat 24 k.val]
      k.val != i.val && other.source != .off && other.partner == some (Fin.ofNat 32 i.val)
    else false

/-- A selector that an enabled cell `i` may carry (CELL_SOURCE). -/
def selectorDefined (i : Fin 4) (sel : Selector) : Bool :=
  match sel.code.val with
  | 0 => true
  | 1 => true
  | 2 => decide (sel.index.val < 24) && sel.n != 0
  | 3 => decide (sel.index.val < 24)
  | 4 => decide (sel.index.val < i.val)
  | 5 => true
  | 6 => decide (sel.index.val < 4)
  | _ => false

/-- An enabled cell's lines are there (CELL_LINE). -/
def cellLines (c : Settings) (i : Fin 4) : Bool :=
  !c.cells[i].enabled
    || (c.lines.toList.any (fun l => l.fn == .tripOut i)
      && (!c.cells[i].confirmRequired || c.lines.toList.any (fun l => l.fn == .confirmIn i)))

/-- A chamber's channel setting names the channel with the source, or none (CHAMBER_CHANNEL). -/
def chamberChannel (c : Settings) (k : Fin 4) (gas : Gas) (o : Option (Fin 32)) : Bool :=
  match o with
  | none => true
  | some n => decide (n.val < 24) && c.channels[Fin.ofNat 24 n.val].source == .chamber k gas

/-- Every chamber's channel settings (CHAMBER_CHANNEL). -/
def chamberChannels (c : Settings) : Bool :=
  (List.finRange 4).all fun k =>
    c.chambers[k].id == 0 || (chamberChannel c k .o2 c.chambers[k].o2 && chamberChannel c k .co c.chambers[k].co)

/-- The used ids of a table are distinct. -/
def idsDistinct (ids : List Id) : Bool := noTwo (fun a b => a == b) (ids.filter (fun i => i != 0))

/-- The start checks in order, each with its code and whether it passes (R165, R182). -/
def startChecks (s : State) : List (Nat × Bool) :=
  let c := s.copies
  [(0x11, decide (8000 ≤ c.node.clock) && decide (c.node.clock ≤ 100000)),
    (0x12, decide (1 ≤ c.node.split) && decide (c.node.split ≤ 4)),
    (0x13, regionsAligned c.regions),
    (0x14, noTwo rangesMeet (allRanges s)),
    (0x15, nodeDefined c.node.nodeId),
    (0x16, noTwo (fun a b => a.source == b.source) (usedChannels c)),
    (0x17, (usedChannels c).all (fun e => thresholdsOrdered e e.limits)),
    (0x18, (List.finRange 24).all (fun i => c.channels[i].source == .off || partnerMutual c i)),
    (0x19, (List.finRange 4).all (fun i =>
      !c.cells[i].enabled || c.cells[i].inputs.toList.all (selectorDefined i))),
    (0x1A, noTwo (fun a b => a.fn == b.fn && a.fn != .none) c.lines.toList),
    (0x1B, (List.finRange 4).all (cellLines c)),
    (0x1C, idsDistinct (c.segments.toList.map (·.id))),
    (0x1D, idsDistinct (c.chambers.toList.map (·.id))),
    (0x1E, chamberChannels c)]

/-- The first start check that fails, by its code. -/
def failingCheck (s : State) : Option Nat :=
  match (startChecks s).find? (fun k => !k.2) with
  | some k => some k.1
  | none => none

/-! ## RUN entry (R166) -/

/-- A channel at RUN entry (R2): the values after a reset, with the thresholds of its copy and its stale timer started. -/
def startChannel (set : ChannelSet) : Channel :=
  { limits := set.limits, stale := if set.source = .off then .off else Timer.start set.staleTime }

/-- A chamber at RUN entry (R153, R159). -/
def startChamber (set : ChamberSet) : Chamber :=
  { silenceTimer := if set.id = 0 then .off else Timer.start set.silenceTime }

/-- The logical values of the lines as RUN entry samples them (R43). -/
def sampleLines (s : State) (lines : Vector LineSet 8) : Vector Bool 8 :=
  mapTable (fun n => s.pins[n] ^^ lines[n].invert) (⟨⟨List.finRange 8⟩, by simp⟩ : Vector (Fin 8) 8)

/-- The settings put in effect and every unit given its state of RUN entry (R166, steps 1, 2, 4, 5 and 7). -/
def enterRun (s : State) : State :=
  let c := s.copies
  let s := { s with
    run := true
    effective := c
    time := 0
    sampled := sampleLines s c.lines
    channels := mapTable startChannel c.channels
    cells := mapTable startCell c.cells
    chambers := mapTable startChamber c.chambers
    rate := PeriodTimer.start c.node.rateWindow
    level := { s.level with repeatTimer := PeriodTimer.start c.node.repeatPeriod }
    fault := { s.fault with patrol := PeriodTimer.start c.node.patrol }
    path := { s.path with sweep := some 0x010, scanCursor := 0, patrolCursor := 0x000, patrolPending := false } }
  firstIndices s

/-- The identity word, the produce index 0 and the STARTED record (R166 step 3, R176). -/
def announceStart (s : State) : State :=
  let s := postAlways [0x000, 0x004] s
  let s := post (.write { addr := eventsAddr s 0, data := 0, kind := .trailing }) s
  addRecord recStarted s.effective.node.nodeId.toNat (detail [(2, ResetKind.code s.resetKind), (16, s.resetCount)]) s

/-- RUN entry (R166), less its outcome word; every cell is evaluated with the level NORMAL (R36), which is derived at the end. -/
def runEntry (s : State) : State := reevaluate (fun _ => true) (announceStart (enterRun s))

end Sys2Proof.Machine
end

