-- ==== Sys2Proof/Machine/RequestOps.lean ====
section
/-! DEFINITION. The ten requests and their outcome word (R40, R57, R58, R122, R128, R149, R156, R164, R165, R169, R171). -/

namespace Sys2Proof.Machine

open Sys2Proof.Config

/-! ## The request word and the outcome word (R182) -/

/-- A request word. -/
def requestWord (code : Nat) (tag : BitVec 8) (arg : BitVec 16) : Word :=
  layout [(0, 16, arg.toNat), (16, 8, tag.toNat), (24, 8, code)]

/-- The code of a request word. -/
def requestCode (w : Word) : Nat := fieldNat w 24 8

/-- The argument of a request word. -/
def requestArg (w : Word) : Nat := fieldNat w 0 16

/-- The outcome codes and the reason codes (R182). -/
def outDone : Nat := 1
/-- REFUSED. -/
def outRefused : Nat := 2
/-- UNKNOWN_REQUEST. -/
def outUnknown : Nat := 3
/-- BAD_ARGUMENT. -/
def outBad : Nat := 4
/-- NOT_RUNNING. -/
def notRunning : Nat := 1
/-- ALREADY_RUNNING. -/
def alreadyRunning : Nat := 2
/-- CELLS_ACTIVE. -/
def cellsActive : Nat := 3
/-- LEVEL_ACTIVE. -/
def levelActive : Nat := 4
/-- AIR_ACTIVE. -/
def airActive : Nat := 5
/-- DEMAND_STANDING. -/
def demandStanding : Nat := 6
/-- NOT_TRIPPED. -/
def notTripped : Nat := 7
/-- NOT_FOUND. -/
def notFound : Nat := 8

/-- The outcome word that echoes a request word's code and tag (R164, R182). -/
def outcomeWord (w : Word) (outcome reason : Nat) : Word :=
  layout [(0, 8, reason), (8, 4, outcome), (16, 8, fieldNat w 16 8), (24, 8, requestCode w)]

/-- A request's answer: its outcome, the detail, and the state its effects leave. -/
structure Reply where
  outcome : Nat
  reason  : Nat := 0
  after   : State

/-- DONE with an effect. -/
def Reply.done (t : State) : Reply := { outcome := outDone, after := t }

/-- REFUSED for a reason, with no effect. -/
def Reply.refuse (reason : Nat) (s : State) : Reply := { outcome := outRefused, reason := reason, after := s }

/-- BAD_ARGUMENT, with no effect. -/
def Reply.bad (s : State) : Reply := { outcome := outBad, after := s }

/-! ## The requests -/

/-- A cell is TRIPPED, ISOLATED or UNCONFIRMED. -/
def cellsTripped (s : State) : Bool := s.cells.toList.any tripActive

/-- An alerting channel has held grade ALARM or TRIP. -/
def alertingHeld (s : State) : Bool :=
  (List.finRange 24).any (fun i => (channelSet s i).alerting && Grade.atLeastAlarm (held s.channels[i]))

/-- START in SETUP (R165, R166). -/
def requestStart (s : State) : Reply :=
  match failingCheck s with
  | some check => Reply.refuse check s
  | none => Reply.done (runEntry s)

/-- RESTART in RUN (R171); `strap` is the level of the strap lines. -/
def requestRestart (strap : BitVec 2) (s : State) : Reply :=
  if cellsTripped s then Reply.refuse cellsActive s
  else if s.level.level ≠ .normal then Reply.refuse levelActive s
  else Reply.done (warmReset .restart strap s)

/-- A tripped cell returns to READY (R40). -/
def resetCell (i : Fin 4) (s : State) : State :=
  let before := s.cells[i].state
  let s := changeCell i (fun c => { c with state := .ready, confirm := .off }) s
  leaveAlert (.cell i) (postCell i (cellStateRecord i before .ready s))

/-- RESET_CELL in RUN (R40). -/
def requestResetCell (arg : Nat) (s : State) : Reply :=
  if 3 < arg then Reply.bad s
  else
    let i : Fin 4 := Fin.ofNat 4 arg
    if !tripActive s.cells[i] then Reply.refuse notTripped s
    else if s.cells[i].demand then Reply.refuse demandStanding s
    else Reply.done (resetCell i s)

/-- EVACUATE in RUN (R57). -/
def requestEvacuation (arg : Nat) (s : State) : Reply :=
  if 8 ≤ arg ∧ arg ≤ 15 then Reply.done (localCause .request (BitVec.ofNat 4 arg) 0 s) else Reply.bad s

/-- The evacuation in force ends (R58); the level is derived anew at the end of the event (R47). -/
def endEvacuation (s : State) : State :=
  match s.level.cause with
  | some c =>
    reportChanged levelWords { s with level := { s.level with cause := none, ended := some (c.node, c.seq) } }
  | none => s

/-- END_EVACUATION in RUN (R58). -/
def requestEnd (s : State) : Reply :=
  if cellsTripped s then Reply.refuse cellsActive s
  else if alertingHeld s then Reply.refuse airActive s
  else Reply.done (endEvacuation s)

/-- The ADJUSTMENT_APPLIED record (R169); T3 would pass bit 31 of the detail and is left out (R184). -/
def adjustmentRecord (arg : Nat) (fields : List (Nat × Nat)) (s : State) : State :=
  addRecord recAdjustmentApplied arg (detail fields) s

/-- APPLY_ADJUSTMENT in RUN (R169). -/
def requestAdjust (arg : Nat) (s : State) : Reply :=
  if arg = 0xFF then
    if s.level.level = .evacuate then Reply.refuse levelActive s
    else
      let s := { s with
        rate := PeriodTimer.apply s.staged.rateWindow s.rate
        level := { s.level with repeatTimer := PeriodTimer.apply s.staged.repeatPeriod s.level.repeatTimer }
        fault := { s.fault with patrol := PeriodTimer.apply s.staged.patrol s.fault.patrol } }
      Reply.done (adjustmentRecord arg [] s)
  else if 23 < arg then Reply.bad s
  else
    let i : Fin 24 := Fin.ofNat 24 arg
    let t := s.staged.channels[i]
    if (channelSet s i).source = .off then Reply.bad s
    else if s.level.level = .evacuate then Reply.refuse levelActive s
    else if Grade.atLeastAlarm (held s.channels[i]) then Reply.refuse airActive s
    else if !thresholdsOrdered (channelSet s i) t then Reply.bad s
    else
      let s := changeChannel i (fun c => { c with waiting := some t }) s
      Reply.done (adjustmentRecord arg [(16, t.t1), (16, t.t2), (16, t.t3)] s)

/-- CLEAR_DISTRESS in RUN (R128). -/
def requestClearDistress (arg : Nat) (s : State) : Reply :=
  if arg = 0 then Reply.bad s
  else match distressOf s (BitVec.ofNat 16 arg) with
    | some d => Reply.done (clearDistress d s)
    | none => Reply.refuse notFound s

/-- CLOSE_CALL in RUN (R122). -/
def requestCloseCall (arg : Nat) (s : State) : Reply :=
  if arg = 0 ∨ 255 < arg then Reply.bad s
  else match callPosition s (BitVec.ofNat 8 arg) with
    | some p => Reply.done (closeCall p 3 s)
    | none => Reply.refuse notFound s

/-- CLEAR_TRUCK in RUN (R149). -/
def requestClearTruck (arg : Nat) (s : State) : Reply :=
  if arg = 0 then Reply.bad s
  else match truckPosition s (BitVec.ofNat 16 arg) with
    | some p => Reply.done (clearTruck p (BitVec.ofNat 16 arg) s)
    | none => Reply.refuse notFound s

/-- CHECK_OUT_MINER in RUN (R156). -/
def requestCheckOut (arg : Nat) (s : State) : Reply :=
  if arg = 0 then Reply.bad s
  else match listedIn s (BitVec.ofNat 16 arg) with
    | some c => Reply.done (checkOutByRequest c (BitVec.ofNat 16 arg) s)
    | none => Reply.refuse notFound s

/-- A request judged (R164). -/
def judgeRequest (strap : BitVec 2) (w : Word) (s : State) : Reply :=
  let arg := requestArg w
  if !requestCodeKnown (bits w 24 8) then { outcome := outUnknown, after := s }
  else if !s.run then
    (if requestCode w = 1 then requestStart s else Reply.refuse notRunning s)
  else match requestCode w with
    | 1 => Reply.refuse alreadyRunning s
    | 2 => requestRestart strap s
    | 3 => requestResetCell arg s
    | 4 => requestEvacuation arg s
    | 5 => requestEnd s
    | 6 => requestAdjust arg s
    | 7 => requestClearDistress arg s
    | 8 => requestCloseCall arg s
    | 9 => requestClearTruck arg s
    | _ => requestCheckOut arg s

/-- A request executed: its effect, and the outcome word to be queued after everything else of the event (R164). -/
def executeRequest (strap : BitVec 2) (w : Word) (s : State) : State :=
  let r := judgeRequest strap w s
  { r.after with path := { r.after.path with outcome := some (outcomeWord w r.outcome r.reason) } }

end Sys2Proof.Machine
end

