-- ==== Sys2Proof/Machine/PathOps.lean ====
section
/-! DEFINITION. The path unit: bus writes and reads classified, passed, taken, rewritten or dropped, the ack arming record, the
release of the first-fault log, the consume index and the patrol (R26 to R28, R62 to R68, R163, R168, R172 to R174, R177,
R178). -/

namespace Sys2Proof.Machine

open Sys2Proof.Config

/-! ## Writes -/

/-- The write reaches memory with data `w`: the active lanes of the word. -/
def reachMemory (a : Access) (w : Word) (s : State) : State := { s with mem := memWriteLanes s.mem a.wordAddr a.lanes w }

/-- A bus fault's identifiers (11.1). -/
def busIdent (a : Access) : FaultId := .bus a.init a.addr a.data

/-- A write in SETUP (R163, R168): every write reaches memory, and a CONTROLLER full word in the setting area is taken. -/
def setupWrite (strap : BitVec 2) (a : Access) (s : State) : State :=
  let s := reachMemory a a.data s
  if a.init = .controller ∧ a.isFull then
    match regionAt s a.wordAddr with
    | some (.setting, o) =>
      if o = 0xF00 then event (executeRequest strap a.data) s
      else if inAdjustment o then { s with staged := takeStaged o a.data s.staged }
      else { s with copies := takeSettings o a.data s.copies }
    | some _ | none => s
  else s

/-- The consume index and the data that reach memory for a written value (R177): the value itself, or what clamps it. -/
def clampConsume (f : FaultUnit) (w : BitVec 16) : BitVec 16 :=
  let d := (w - f.consume).toNat
  if d ≤ occupancy f then w else if d < 32768 then f.produce else f.consume

/-- A word with its consume index field replaced (R179). -/
def withConsume (c : BitVec 16) (w : Word) : Word := (w &&& 0xFFFF0000) ||| layout [(0, 16, c.toNat)]

/-- The consume index taken (R177). -/
def takeConsume (c : BitVec 16) (s : State) : State :=
  reportChanged [0x110] { s with fault := { s.fault with consume := c } }

/-- A full-word write of a taken word (R65): what reaches memory and what the unit does. -/
def takeWrite (strap : BitVec 2) (a : Access) (t : Taken) (s : State) : State :=
  match t with
  | .adjustment o => let s := reachMemory a a.data s; { s with staged := takeStaged o a.data s.staged }
  | .request => event (executeRequest strap a.data) (reachMemory a a.data s)
  | .consume =>
    let c := clampConsume s.fault (bits a.data 0 16)
    event (takeConsume c) (reachMemory a (withConsume c a.data) s)
  | .rawAir n =>
    let v := rawVerdict s n a.data
    let t := reachMemory a (withVerdict v a.data) s
    if v = .notUsed ∨ v = .duplicate then t else event (rawReading n a.data) t
  | .txWord0 n => event (controllerWord0 n a.addr a.data) (reachMemory a a.data s)
  | .txWord2 n => event (controllerWord2 n a.addr a.data) (reachMemory a a.data s)
  | .txModem n => event (modemWriteback n a.addr a.data) (reachMemory a a.data s)
  | .rxWord0 i =>
    if bitOf a.data 31 then reachMemory a a.data s
    else event (completion i a.addr a.data) (reachMemory a a.data (takeHandover s))
  | .header i k => changeCapture i (captureWord k a.data) (reachMemory a a.data s)

/-- What the unit does that would have taken the word of an accepted partial write (R68). -/
def missWrite (t : Taken) (s : State) : State :=
  match t with
  | .txWord0 n | .txWord2 n | .txModem n => unknownSlot n s
  | .header i k => changeCapture i (uncaptureWord k) s
  | .adjustment _ | .request | .consume | .rawAir _ | .rxWord0 _ => s

/-- A write in RUN (R65 to R68). -/
def runWrite (strap : BitVec 2) (a : Access) (s : State) : State :=
  match regionAt s a.wordAddr with
  | none => reachMemory a a.data s
  | some (k, o) =>
    if !permitted s a.init k o then event (recordFault .guardWrite (busIdent a)) s
    else match takenWord s a.init k o with
      | none => reachMemory a a.data s
      | some t =>
        if a.isFull then takeWrite strap a t s
        else event (fun s => missWrite t (recordFault .partialWrite (busIdent a) s)) (reachMemory a a.data s)

/-- A bus write (R65); `strap` is what the strap lines show if the write is an accepted RESTART. -/
def serveWrite (strap : BitVec 2) (a : Access) (s : State) : State :=
  if s.run then runWrite strap a s else setupWrite strap a s

/-! ## Reads -/

/-- The kind code that the first-fault log shows, 0 while EMPTY (R174). -/
def currentKind (s : State) : Nat := match s.fault.log with | some e => FaultKind.code e.kind | none => 0

/-- The release of the first-fault log, judged against the kind the arming read showed (R174): an accepted one queues the four log
words, whatever they hold. -/
def release (shown : Nat) (s : State) : State :=
  if shown = currentKind s then
    let further := match s.fault.log with | some e => e.further | none => 0
    let s := leaveAlert .latch { s with fault := { s.fault with log := none } }
    let s := addRecord recFaultReleased 0 (detail [(4, shown), (8, further)]) s
    postAlways [0x660, 0x664, 0x668, 0x66C] s
  else s

/-- The arming that a read of a REPORT word makes, from the data it returns (R27). -/
def armingOf (k : RegionKind) (o : Nat) (w : Word) : Option Arming :=
  match k with
  | .report =>
    if 0x040 ≤ o ∧ o < 0x100 ∧ o % 8 = 0 then
      some { target := .channel (Fin.ofNat 24 ((o - 0x040) / 8)), shown := fieldNat w 0 2 }
    else if o = 0x660 then some { target := .log, shown := fieldNat w 0 4 }
    else none
  | .setting | .events | .rawAir | .txSlots | .rxSlots | .rxBuffers | .partFrames => none

/-- The ack arming record changed. -/
def setArming (a : Option Arming) (s : State) : State := { s with path := { s.path with arming := a } }

/-- The effect of a consuming read on an armed record (R28): an acknowledgement, a release, or nothing. -/
def consumeArming (k : RegionKind) (o : Nat) (a : Arming) (s : State) : State :=
  match k, a.target with
  | .setting, .channel c => if o = 0xF08 + 4 * c.val then event (acknowledge c a.shown) s else s
  | .setting, .log => if o = 0xF68 then event (release a.shown) s else s
  | _, _ => s

/-- The read is one that consumes (R28): any word of REPORT or of the CONTROL section. -/
def consumes (k : RegionKind) (o : Nat) : Bool := k == .report || (k == .setting && inControl o)

/-- A CONTROLLER full-word read in RUN that returned `w` (R27, R28): it is first a consuming read and then arms anew. -/
def armRead (k : RegionKind) (o : Nat) (w : Word) (s : State) : State :=
  if consumes k o then
    let t := match s.path.arming with
      | some a => consumeArming k o a (setArming none s)
      | none => s
    setArming (armingOf k o w) t
  else s

/-- A bus read (R62, R65): the word as memory holds it, but for a MODEM read of a transmit word 0 in RUN. -/
def serveRead (a : Access) (s : State) : State :=
  let w := memWord s.mem a.wordAddr
  let passed := { s with readData := w }
  if !s.run then passed
  else match regionAt s a.wordAddr with
    | none => passed
    | some (k, o) =>
      if k = .txSlots ∧ a.init = .modem ∧ o % 16 = 0 then
        if a.isFull then event (modemRead (Fin.ofNat 64 (o / 16)) a.addr w) s
        else { s with readData := partialShown a.lanes w }
      else if a.init = .controller ∧ a.isFull then armRead k o w passed
      else passed

/-! ## The patrol (R178) -/

/-- A patrolled word whose memory contents differ from its internal value is rewritten and MIRROR_MISMATCH is recorded. -/
def mirrorMismatch (offset : Nat) (w : Word) (s : State) : State :=
  recordFault .mirrorMismatch (.own unitFault (word (reportAddr s offset).toNat) w) (postAlways [offset] s)

/-- A patrol read at its cursor. -/
def patrolRead (s : State) : State :=
  let offset := s.path.patrolCursor
  let a := reportAddr s offset
  let w := memWord s.mem a.toNat
  let t := { s with path := { s.path with patrolCursor := patrolNext offset, patrolPending := false } }
  if queued s.path.queue a || w == mirror s offset then t else event (mirrorMismatch offset w) t

end Sys2Proof.Machine
end

