-- ==== Sys2Proof/Machine/Requests.lean ====
section
/-! DEFINITION. The meanings of the resets and of the eleven rows of requests: each request is the CONTROLLER's full-word write of
the request word (R164). -/

namespace Sys2Proof.Machine

open Sys2Proof.Config

/-- The write of the request word (R164). -/
def requestAccess (s : State) (code : Nat) (tag : BitVec 8) (arg : BitVec 16) : Access :=
  { init := .controller, addr := settingAddr s 0xF00, lanes := 0xF, data := requestWord code tag arg }

/-- POWER_ON (R170). -/
def execPowerOn (strap : BitVec 2) (s : State) : Host.Outcome State Fault Refusal := .next (powerOnReset strap s)

/-- RESET_INPUT (R170). -/
def execResetInput (strap : BitVec 2) (s : State) : Host.Outcome State Fault Refusal :=
  .next (warmReset .resetInput strap s)

/-- START (R165, R166). -/
def execStart (tag : BitVec 8) (arg : BitVec 16) (s : State) : Host.Outcome State Fault Refusal :=
  .next (serveWrite s.strap (requestAccess s 0x01 tag arg) s)

/-- RESTART (R171); the strap operand is what the strap lines show if the reset samples them. -/
def execRestart (strap : BitVec 2) (tag : BitVec 8) (arg : BitVec 16) (s : State) : Host.Outcome State Fault Refusal :=
  .next (serveWrite strap (requestAccess s 0x02 tag arg) s)

/-- RESET_CELL (R40). -/
def execResetCell (tag : BitVec 8) (arg : BitVec 16) (s : State) : Host.Outcome State Fault Refusal :=
  .next (serveWrite s.strap (requestAccess s 0x03 tag arg) s)

/-- EVACUATE (R57). -/
def execEvacuate (tag : BitVec 8) (arg : BitVec 16) (s : State) : Host.Outcome State Fault Refusal :=
  .next (serveWrite s.strap (requestAccess s 0x04 tag arg) s)

/-- END_EVACUATION (R58). -/
def execEndEvacuation (tag : BitVec 8) (arg : BitVec 16) (s : State) : Host.Outcome State Fault Refusal :=
  .next (serveWrite s.strap (requestAccess s 0x05 tag arg) s)

/-- APPLY_ADJUSTMENT (R169). -/
def execApplyAdjustment (tag : BitVec 8) (arg : BitVec 16) (s : State) : Host.Outcome State Fault Refusal :=
  .next (serveWrite s.strap (requestAccess s 0x06 tag arg) s)

/-- CLEAR_DISTRESS (R128). -/
def execClearDistress (tag : BitVec 8) (arg : BitVec 16) (s : State) : Host.Outcome State Fault Refusal :=
  .next (serveWrite s.strap (requestAccess s 0x07 tag arg) s)

/-- CLOSE_CALL (R122). -/
def execCloseCall (tag : BitVec 8) (arg : BitVec 16) (s : State) : Host.Outcome State Fault Refusal :=
  .next (serveWrite s.strap (requestAccess s 0x08 tag arg) s)

/-- CLEAR_TRUCK (R149). -/
def execClearTruck (tag : BitVec 8) (arg : BitVec 16) (s : State) : Host.Outcome State Fault Refusal :=
  .next (serveWrite s.strap (requestAccess s 0x09 tag arg) s)

/-- CHECK_OUT_MINER (R156). -/
def execCheckOutMiner (tag : BitVec 8) (arg : BitVec 16) (s : State) : Host.Outcome State Fault Refusal :=
  .next (serveWrite s.strap (requestAccess s 0x0A tag arg) s)

/-- A write of the request word with a code that is none of the ten (R164). -/
def execUnknownRequest (code tag : BitVec 8) (arg : BitVec 16) (s : State) : Host.Outcome State Fault Refusal :=
  .next (serveWrite s.strap (requestAccess s code.toNat tag arg) s)

end Sys2Proof.Machine
end

