-- ==== Sys2Proof/Machine/Bus.lean ====
section
/-! DEFINITION. The meanings of the bus accesses. Each row names the access as the spec does where it falls as the row says; the
path unit classifies the access by its address, lanes and initiator, whatever the row (R65; log entry 6). -/

namespace Sys2Proof.Machine

open Sys2Proof.Config

/-- A full-word access of an initiator. -/
def fullAccess (init : Initiator) (addr : Addr) (data : Word) : Access :=
  { init := init, addr := addr, lanes := 0xF, data := data }

/-- SETTING_WRITE: a CONTROLLER write into the setting area (R163). -/
def execSettingWrite (addr : Addr) (data : Word) (s : State) : Host.Outcome State Fault Refusal :=
  .next (serveWrite s.strap (fullAccess .controller addr data) s)

/-- ADJUSTMENT_WRITE: a CONTROLLER write into the ADJUSTMENT section (R168). -/
def execAdjustmentWrite (addr : Addr) (data : Word) (s : State) : Host.Outcome State Fault Refusal :=
  .next (serveWrite s.strap (fullAccess .controller addr data) s)

/-- CONSUME_INDEX_WRITE: a CONTROLLER write of the consume index (R177). -/
def execConsumeIndexWrite (addr : Addr) (data : Word) (s : State) : Host.Outcome State Fault Refusal :=
  .next (serveWrite s.strap (fullAccess .controller addr data) s)

/-- RAW_AIR_WRITE: a SENSOR write of a raw air word (R3). -/
def execRawAirWrite (addr : Addr) (data : Word) (s : State) : Host.Outcome State Fault Refusal :=
  .next (serveWrite s.strap (fullAccess .sensor addr data) s)

/-- CHANNEL_ARMING_READ: a CONTROLLER read of a channel's word A (R27). -/
def execChannelArmingRead (addr : Addr) (s : State) : Host.Outcome State Fault Refusal :=
  .next (serveRead (fullAccess .controller addr 0) s)

/-- LOG_ARMING_READ: a CONTROLLER read of the first log word (R27, R173). -/
def execLogArmingRead (addr : Addr) (s : State) : Host.Outcome State Fault Refusal :=
  .next (serveRead (fullAccess .controller addr 0) s)

/-- ACK_WORD_READ: a CONTROLLER read of a channel's ack word (R28, R29). -/
def execAckWordRead (channel : Fin 24) (s : State) : Host.Outcome State Fault Refusal :=
  .next (serveRead (fullAccess .controller (settingAddr s (0xF08 + 4 * channel.val)) 0) s)

/-- RELEASE_WORD_READ: a CONTROLLER read of the release word (R28, R174). -/
def execReleaseWordRead (s : State) : Host.Outcome State Fault Refusal :=
  .next (serveRead (fullAccess .controller (settingAddr s 0xF68) 0) s)

/-- CONSUMING_READ: a CONTROLLER read of any other word of REPORT or of the CONTROL section (R28). -/
def execConsumingRead (addr : Addr) (s : State) : Host.Outcome State Fault Refusal :=
  .next (serveRead (fullAccess .controller addr 0) s)

/-- TX_WORD0_CONTROLLER_WRITE (R88). -/
def execTxWord0ControllerWrite (addr : Addr) (data : Word) (s : State) : Host.Outcome State Fault Refusal :=
  .next (serveWrite s.strap (fullAccess .controller addr data) s)

/-- TX_WORD2_CONTROLLER_WRITE (R89). -/
def execTxWord2ControllerWrite (addr : Addr) (data : Word) (s : State) : Host.Outcome State Fault Refusal :=
  .next (serveWrite s.strap (fullAccess .controller addr data) s)

/-- MODEM_TX_READ (R83, R84). -/
def execModemTxRead (addr : Addr) (s : State) : Host.Outcome State Fault Refusal :=
  .next (serveRead (fullAccess .modem addr 0) s)

/-- MODEM_TX_PARTIAL_READ (R84). -/
def execModemTxPartialRead (addr : Addr) (lanes : BitVec 4) (s : State) : Host.Outcome State Fault Refusal :=
  .next (serveRead { init := .modem, addr := addr, lanes := lanes } s)

/-- MODEM_TX_WRITEBACK (R86, R87). -/
def execModemTxWriteback (addr : Addr) (data : Word) (s : State) : Host.Outcome State Fault Refusal :=
  .next (serveWrite s.strap (fullAccess .modem addr data) s)

/-- HEADER_CAPTURE_WRITE (R101). -/
def execHeaderCaptureWrite (addr : Addr) (data : Word) (s : State) : Host.Outcome State Fault Refusal :=
  .next (serveWrite s.strap (fullAccess .modem addr data) s)

/-- RECEIVE_COMPLETION (R102). -/
def execReceiveCompletion (addr : Addr) (data : Word) (s : State) : Host.Outcome State Fault Refusal :=
  .next (serveWrite s.strap (fullAccess .modem addr data) s)

/-- PARTIAL_WRITE (R68). -/
def execPartialWrite (init : Initiator) (addr : Addr) (lanes : BitVec 4) (data : Word) (s : State) :
    Host.Outcome State Fault Refusal :=
  .next (serveWrite s.strap { init := init, addr := addr, lanes := lanes, data := data } s)

/-- GUARD_WRITE: a write that the guards forbid (R66, R67). -/
def execGuardWrite (init : Initiator) (addr : Addr) (lanes : BitVec 4) (data : Word) (s : State) :
    Host.Outcome State Fault Refusal :=
  .next (serveWrite s.strap { init := init, addr := addr, lanes := lanes, data := data } s)

/-- PLAIN_WRITE: a write that passes and is not taken (R65). -/
def execPlainWrite (init : Initiator) (addr : Addr) (lanes : BitVec 4) (data : Word) (s : State) :
    Host.Outcome State Fault Refusal :=
  .next (serveWrite s.strap { init := init, addr := addr, lanes := lanes, data := data } s)

end Sys2Proof.Machine
end

