-- ==== Sys2Proof/Machine/Idle.lean ====
section
/-! DEFINITION. The meanings of the lines' changes, of the idle memory cycles (R72, R74, R82, R178) and of the 1 ms tick (R76 to
R78). An idle cycle is given to the first claimant of R74; a row whose claimant has no claim finds the cycle given elsewhere and
has no effect (log entry 8). -/

namespace Sys2Proof.Machine

open Sys2Proof.Config

/-- A change of a CONFIRM_IN line's logical value is an event of the trip unit in RUN (R45). -/
def lineEvent (n : Fin 8) (pin : Bool) (s : State) : State :=
  match s.effective.lines[n].fn with
  | .confirmIn i =>
    if s.run && (pin ^^ s.effective.lines[n].invert) != s.sampled[n] then
      event (confirmLine n i) { s with pins := s.pins.set n pin }
    else { s with pins := s.pins.set n pin }
  | .none | .tripOut _ | .beacon | .siren | .attention => { s with pins := s.pins.set n pin }

/-- CONFIRM_IN_CHANGE (R39, R45). -/
def execConfirmInChange (line : Fin 8) (pin : Bool) (s : State) : Host.Outcome State Fault Refusal :=
  .next (lineEvent line pin s)

/-- An idle memory cycle given to draining (R72), with the sweep's word at its end (R167). -/
def drainCycle (s : State) : State := if s.path.queue.isEmpty then s else sweepPut (event drainOldest s)

/-- DRAIN. -/
def execDrain (s : State) : Host.Outcome State Fault Refusal := .next (drainCycle s)

/-- An idle memory cycle given to the start scan (R74, R82). -/
def scanCycle (s : State) : State := if s.path.queue.isEmpty && scanPending s then event scanRead s else s

/-- START_SCAN_READ. -/
def execStartScanRead (s : State) : Host.Outcome State Fault Refusal := .next (scanCycle s)

/-- An idle memory cycle given to the patrol (R74, R178). -/
def patrolCycle (s : State) : State :=
  if s.run && s.path.queue.isEmpty && !scanPending s && s.path.patrolPending then patrolRead s else s

/-- PATROL_READ. -/
def execPatrolRead (s : State) : Host.Outcome State Fault Refusal := .next (patrolCycle s)

/-! ## The tick -/

/-- A 100 ms tick: the confirm and silence timeouts (R77). -/
def tickTenths (s : State) : State :=
  let call : Option Call → Option Call
    | some c => some { c with silence := Timer.tick c.silence }
    | none => none
  { s with
    cells := mapTable (fun c => { c with confirm := Timer.tick c.confirm }) s.cells
    call := { s.call with table := mapTable call s.call.table } }

/-- A truck's two timeouts at a 1 s tick. -/
def tickTruck : Option Truck → Option Truck
  | some t => some { t with stale := Timer.tick t.stale, forget := Timer.tick t.forget }
  | none => none

/-- A segment's grant timers at a 1 s tick. -/
def tickSegment (g : Segment) : Segment :=
  { g with holders := g.holders.map (fun h => { h with grant := Timer.tick h.grant }) }

/-- A chamber's two timeouts at a 1 s tick. -/
def tickChamber (h : Chamber) : Chamber :=
  { h with silenceTimer := Timer.tick h.silenceTimer, airlockTimer := Timer.tick h.airlockTimer }

/-- A 1 s tick: every other timeout (R77) and the three period timers (R78). -/
def tickSeconds (s : State) : State :=
  { s with
    channels := mapTable (fun c => { c with stale := Timer.tick c.stale }) s.channels
    rate := PeriodTimer.tick s.rate
    level := { s.level with remote := Timer.tick s.level.remote, repeatTimer := PeriodTimer.tick s.level.repeatTimer }
    fault := { s.fault with patrol := PeriodTimer.tick s.fault.patrol }
    road := { s.road with
      trucks := mapTable tickTruck s.road.trucks, segments := mapTable tickSegment s.road.segments }
    chambers := mapTable tickChamber s.chambers }

/-- A 1 ms tick (R76): in SETUP the time base is stopped. -/
def tick (s : State) : State :=
  if s.run then
    let t := { s with time := s.time + 1 }
    let t := if t.time.toNat % 100 = 0 then tickTenths t else t
    if t.time.toNat % 1000 = 0 then tickSeconds t else t
  else s

/-- TIME_BASE_TICK. -/
def execTimeBaseTick (s : State) : Host.Outcome State Fault Refusal := .next (tick s)

end Sys2Proof.Machine
end

