-- ==== Sys2Proof/Machine/Expiries.lean ====
section
/-! DEFINITION. The meanings of the expiries. An expiry comes where its timer is due: the tick that brings its count to its length
has come and the expiry has not been taken (R77, R78; log entry 7). Where it is not due there is no expiry and nothing happens. -/

namespace Sys2Proof.Machine

open Sys2Proof.Config

/-- An expiry in RUN, if it is due. -/
def expiryEvent (due : Bool) (f : State → State) (s : State) : State := if s.run && due then event f s else s

/-- STALE_TIMER_EXPIRY (R24). -/
def execStaleTimerExpiry (channel : Fin 24) (s : State) : Host.Outcome State Fault Refusal :=
  .next (expiryEvent (Timer.due s.channels[channel].stale) (staleExpiry channel) s)

/-- RATE_WINDOW_EXPIRY (R21, R22). -/
def execRateWindowExpiry (s : State) : Host.Outcome State Fault Refusal := .next (expiryEvent s.rate.due rateExpiry s)

/-- The repeat timer expires (R55, R127). -/
def repeatExpiry (s : State) : State :=
  let s := { s with level := { s.level with repeatTimer := PeriodTimer.expire s.level.repeatTimer } }
  repeatRelays (if s.level.level = .evacuate then requestEvacuate s else s)

/-- REPEAT_TIMER_EXPIRY (R55, R127). -/
def execRepeatTimerExpiry (s : State) : Host.Outcome State Fault Refusal :=
  .next (expiryEvent s.level.repeatTimer.due repeatExpiry s)

/-- The patrol timer expires: a patrol read becomes pending (R74, R178). -/
def patrolExpiry (s : State) : State :=
  { s with
    fault := { s.fault with patrol := PeriodTimer.expire s.fault.patrol }
    path := { s.path with patrolPending := true } }

/-- PATROL_TIMER_EXPIRY (R178). -/
def execPatrolTimerExpiry (s : State) : Host.Outcome State Fault Refusal :=
  .next (if s.run && s.fault.patrol.due then patrolExpiry s else s)

/-- The remote alert timer expires (R50). -/
def remoteExpiry (s : State) : State :=
  leaveAlert .remote (reportChanged [0x010] { s with level := { s.level with remote := .expired } })

/-- REMOTE_ALERT_EXPIRY (R50). -/
def execRemoteAlertExpiry (s : State) : Host.Outcome State Fault Refusal :=
  .next (expiryEvent (Timer.due s.level.remote) remoteExpiry s)

/-- CONFIRM_TIMER_EXPIRY (R38). -/
def execConfirmTimerExpiry (cell : Fin 4) (s : State) : Host.Outcome State Fault Refusal :=
  .next (expiryEvent (confirmDue s cell) (confirmExpiry cell) s)

/-- CALL_SILENCE_EXPIRY (R120). -/
def execCallSilenceExpiry (position : Fin 8) (s : State) : Host.Outcome State Fault Refusal :=
  .next (expiryEvent (silenceDue s position) (callSilence position) s)

/-- GRANT_TIMER_EXPIRY (R146). -/
def execGrantTimerExpiry (segment : Fin 16) (truck : Id) (s : State) : Host.Outcome State Fault Refusal :=
  .next (expiryEvent (grantDue s segment truck) (grantExpiry segment truck) s)

/-- TRUCK_STALE_EXPIRY (R147). -/
def execTruckStaleExpiry (position : Fin 32) (s : State) : Host.Outcome State Fault Refusal :=
  .next (expiryEvent (truckDue s position Truck.stale) (truckStaleExpiry position) s)

/-- TRUCK_FORGET_EXPIRY (R148). -/
def execTruckForgetExpiry (position : Fin 32) (s : State) : Host.Outcome State Fault Refusal :=
  .next (expiryEvent (truckDue s position Truck.forget) (truckForgetExpiry position) s)

/-- CHAMBER_SILENCE_EXPIRY (R159). -/
def execChamberSilenceExpiry (chamber : Fin 4) (s : State) : Host.Outcome State Fault Refusal :=
  .next (expiryEvent (Timer.due s.chambers[chamber].silenceTimer) (chamberSilence chamber) s)

/-- AIRLOCK_TIMER_EXPIRY (R160). -/
def execAirlockTimerExpiry (chamber : Fin 4) (s : State) : Host.Outcome State Fault Refusal :=
  .next (expiryEvent (Timer.due s.chambers[chamber].airlockTimer) (airlockExpiry chamber) s)

/-- EVACUATING_REEVALUATION (R35, R54): the trip unit's event that follows a change into or out of EVACUATE. -/
def execEvacuatingReevaluation (s : State) : Host.Outcome State Fault Refusal :=
  .next (expiryEvent s.reevalDue evacuatingReevaluation s)

end Sys2Proof.Machine
end

