-- ==== Sys2Proof/Machine/Frames.lean ====
section
/-! DEFINITION. The meanings of the dispatched frames: each is an event of its receiving unit (R107 to R111). -/

namespace Sys2Proof.Machine

/-- TRUCK_BEACON (R134 to R138). -/
def execTruckBeacon (truck : Id) (power : Power) (heading : Heading) (origin : NodeId) (current requested : Id) (s : State) :
    Host.Outcome State Fault Refusal :=
  .next (frameEvent (.truckBeacon truck power heading origin current requested) s)

/-- CALL_OPEN (R117, R118). -/
def execCallOpen (call : CallId) (miner : Id) (origin : CallOrigin) (s : State) : Host.Outcome State Fault Refusal :=
  .next (frameEvent (.callOpen call miner origin) s)

/-- CALL_CLOSE (R121). -/
def execCallClose (call : CallId) (s : State) : Host.Outcome State Fault Refusal :=
  .next (frameEvent (.callClose call) s)

/-- VOICE (R119). -/
def execVoice (call : CallId) (s : State) : Host.Outcome State Fault Refusal := .next (frameEvent (.voice call) s)

/-- DISTRESS (R125, R126). -/
def execDistress (miner : Id) (call : CallId) (node : NodeId) (s : State) : Host.Outcome State Fault Refusal :=
  .next (frameEvent (.distress miner call node) s)

/-- CHECK_IN (R154). -/
def execCheckIn (chamber : Fin 4) (miner : Id) (s : State) : Host.Outcome State Fault Refusal :=
  .next (frameEvent (.checkIn chamber miner) s)

/-- CHECK_OUT (R155). -/
def execCheckOut (chamber : Fin 4) (miner : Id) (s : State) : Host.Outcome State Fault Refusal :=
  .next (frameEvent (.checkOut chamber miner) s)

/-- REFUGE_STATUS (R157). -/
def execRefugeStatus (chamber : Fin 4) (airlock : AirlockReport) (o2 co headcount : BitVec 16) (s : State) :
    Host.Outcome State Fault Refusal :=
  .next (frameEvent (.refugeStatus chamber airlock o2 co headcount) s)

/-- EVACUATE_FRAME (R52). -/
def execEvacuateFrame (hop : BitVec 4) (relay cause : NodeId) (seq : BitVec 8) (reason : BitVec 4) (s : State) :
    Host.Outcome State Fault Refusal :=
  .next (frameEvent (.evacuate hop relay cause seq reason) s)

/-- AIR_ALARM_FRAME (R50). -/
def execAirAlarmFrame (origin : NodeId) (channel : Fin 24) (grade : Grade) (s : State) :
    Host.Outcome State Fault Refusal :=
  .next (frameEvent (.airAlarm origin channel grade) s)

end Sys2Proof.Machine
end

