-- ==== Sys2Proof/Machine/Dispatch.lean ====
section
/-! DEFINITION. The meaning of each command: one arm per constructor of Instr. -/

namespace Sys2Proof.Machine

/-- A command's effect on everything but the queue of waiting commands. -/
def exec (i : Instr) (s : State) : Host.Outcome State Fault Refusal :=
  match i with
  | .powerOn strap => Sys2Proof.Machine.execPowerOn strap s
  | .resetInput strap => Sys2Proof.Machine.execResetInput strap s
  | .start tag arg => Sys2Proof.Machine.execStart tag arg s
  | .restart strap tag arg => Sys2Proof.Machine.execRestart strap tag arg s
  | .resetCell tag arg => Sys2Proof.Machine.execResetCell tag arg s
  | .evacuate tag arg => Sys2Proof.Machine.execEvacuate tag arg s
  | .endEvacuation tag arg => Sys2Proof.Machine.execEndEvacuation tag arg s
  | .applyAdjustment tag arg => Sys2Proof.Machine.execApplyAdjustment tag arg s
  | .clearDistress tag arg => Sys2Proof.Machine.execClearDistress tag arg s
  | .closeCall tag arg => Sys2Proof.Machine.execCloseCall tag arg s
  | .clearTruck tag arg => Sys2Proof.Machine.execClearTruck tag arg s
  | .checkOutMiner tag arg => Sys2Proof.Machine.execCheckOutMiner tag arg s
  | .unknownRequest code tag arg => Sys2Proof.Machine.execUnknownRequest code tag arg s
  | .settingWrite addr data => Sys2Proof.Machine.execSettingWrite addr data s
  | .adjustmentWrite addr data => Sys2Proof.Machine.execAdjustmentWrite addr data s
  | .consumeIndexWrite addr data => Sys2Proof.Machine.execConsumeIndexWrite addr data s
  | .rawAirWrite addr data => Sys2Proof.Machine.execRawAirWrite addr data s
  | .channelArmingRead addr => Sys2Proof.Machine.execChannelArmingRead addr s
  | .logArmingRead addr => Sys2Proof.Machine.execLogArmingRead addr s
  | .ackWordRead channel => Sys2Proof.Machine.execAckWordRead channel s
  | .releaseWordRead => Sys2Proof.Machine.execReleaseWordRead s
  | .consumingRead addr => Sys2Proof.Machine.execConsumingRead addr s
  | .txWord0ControllerWrite addr data => Sys2Proof.Machine.execTxWord0ControllerWrite addr data s
  | .txWord2ControllerWrite addr data => Sys2Proof.Machine.execTxWord2ControllerWrite addr data s
  | .modemTxRead addr => Sys2Proof.Machine.execModemTxRead addr s
  | .modemTxPartialRead addr lanes => Sys2Proof.Machine.execModemTxPartialRead addr lanes s
  | .modemTxWriteback addr data => Sys2Proof.Machine.execModemTxWriteback addr data s
  | .headerCaptureWrite addr data => Sys2Proof.Machine.execHeaderCaptureWrite addr data s
  | .receiveCompletion addr data => Sys2Proof.Machine.execReceiveCompletion addr data s
  | .partialWrite init addr lanes data => Sys2Proof.Machine.execPartialWrite init addr lanes data s
  | .guardWrite init addr lanes data => Sys2Proof.Machine.execGuardWrite init addr lanes data s
  | .plainWrite init addr lanes data => Sys2Proof.Machine.execPlainWrite init addr lanes data s
  | .confirmInChange line pin => Sys2Proof.Machine.execConfirmInChange line pin s
  | .drain => Sys2Proof.Machine.execDrain s
  | .startScanRead => Sys2Proof.Machine.execStartScanRead s
  | .patrolRead => Sys2Proof.Machine.execPatrolRead s
  | .timeBaseTick => Sys2Proof.Machine.execTimeBaseTick s
  | .staleTimerExpiry channel => Sys2Proof.Machine.execStaleTimerExpiry channel s
  | .rateWindowExpiry => Sys2Proof.Machine.execRateWindowExpiry s
  | .repeatTimerExpiry => Sys2Proof.Machine.execRepeatTimerExpiry s
  | .patrolTimerExpiry => Sys2Proof.Machine.execPatrolTimerExpiry s
  | .remoteAlertExpiry => Sys2Proof.Machine.execRemoteAlertExpiry s
  | .confirmTimerExpiry cell => Sys2Proof.Machine.execConfirmTimerExpiry cell s
  | .callSilenceExpiry position => Sys2Proof.Machine.execCallSilenceExpiry position s
  | .grantTimerExpiry segment truck => Sys2Proof.Machine.execGrantTimerExpiry segment truck s
  | .truckStaleExpiry position => Sys2Proof.Machine.execTruckStaleExpiry position s
  | .truckForgetExpiry position => Sys2Proof.Machine.execTruckForgetExpiry position s
  | .chamberSilenceExpiry chamber => Sys2Proof.Machine.execChamberSilenceExpiry chamber s
  | .airlockTimerExpiry chamber => Sys2Proof.Machine.execAirlockTimerExpiry chamber s
  | .truckBeacon truck power heading origin current requested => Sys2Proof.Machine.execTruckBeacon truck power heading origin current requested s
  | .callOpen call miner origin => Sys2Proof.Machine.execCallOpen call miner origin s
  | .callClose call => Sys2Proof.Machine.execCallClose call s
  | .voice call => Sys2Proof.Machine.execVoice call s
  | .distress miner call node => Sys2Proof.Machine.execDistress miner call node s
  | .checkIn chamber miner => Sys2Proof.Machine.execCheckIn chamber miner s
  | .checkOut chamber miner => Sys2Proof.Machine.execCheckOut chamber miner s
  | .refugeStatus chamber airlock o2 co headcount => Sys2Proof.Machine.execRefugeStatus chamber airlock o2 co headcount s
  | .evacuateFrame hop relay cause seq reason => Sys2Proof.Machine.execEvacuateFrame hop relay cause seq reason s
  | .airAlarmFrame origin channel grade => Sys2Proof.Machine.execAirAlarmFrame origin channel grade s
  | .evacuatingReevaluation => Sys2Proof.Machine.execEvacuatingReevaluation s

end Sys2Proof.Machine
end

