-- ==== Sys2Proof/Safety.lean ====
section
/-! DEFINITION. What statements say of states: what a command leaves as it was, which bytes of memory a command may change,
what the start checks judge (R165), and the laws that the part keeps (Laws 1, 2, 4 to 10 and 12 of the spec). -/

namespace Sys2Proof.Machine

open Sys2Proof.Config

/-! ## Frames -/

/-- The areas of the state that a command may change by its own effect. What is not listed under an area here (the own-write
queue, the lines, records, frame requests, grants and the level) may change at the end of any event. -/
inductive Area
  | readData | air | trip | level | ring | frame | call | road | refuge | fault | path
  deriving DecidableEq, Repr

/-- What no command but a reset, START, a setting write or a tick changes: the part's mode, its settings, the pins and time. -/
def SameBase (s t : State) : Prop :=
  t.pending = s.pending ∧ t.run = s.run ∧ t.strap = s.strap ∧ t.resetKind = s.resetKind ∧ t.resetCount = s.resetCount
    ∧ t.copies = s.copies ∧ t.staged = s.staged ∧ t.effective = s.effective ∧ t.pins = s.pins ∧ t.time = s.time

/-- The ALERT members that only their own events change; the latch and a segment's member may change at the end of any
event. -/
def AlertMember.settled : AlertMember → Bool
  | .latch | .segment _ => false
  | .channel _ | .distress | .cell _ | .remote | .chamber _ => true

/-- The level unit but for the level itself, an evacuation cause first taken, the own sequence, and what it hands on. -/
def SameLevel (s t : State) : Prop :=
  t.level.remote = s.level.remote ∧ t.level.repeatTimer = s.level.repeatTimer ∧ t.level.ended = s.level.ended
    ∧ (s.level.cause.isSome → t.level.cause = s.level.cause)
    ∧ (∀ m, AlertMember.settled m = true → (m ∈ t.level.alerts ↔ m ∈ s.level.alerts))

/-- The roadway unit's counts, every occupant list, and every truck but one whose forget timer has expired. -/
def SameRoad (s t : State) : Prop :=
  t.road.queueFull = s.road.queueFull ∧ t.road.tableFull = s.road.tableFull
    ∧ (∀ i : Fin 16, t.road.segments[i].granted = s.road.segments[i].granted
        ∧ t.road.segments[i].unauthorised = s.road.segments[i].unauthorised)
    ∧ (∀ p : Fin 32, t.road.trucks[p] = s.road.trucks[p]
        ∨ (t.road.trucks[p] = none ∧ ∃ k, s.road.trucks[p] = some k ∧ k.forget = .expired))

/-- The fault and event unit but for the log, the produce index and the three faults that the end of an event may record:
OWN_WRITE_STALL, EVENT_LOST and FRAME_DROPPED. -/
def SameFault (s t : State) : Prop :=
  t.fault.consume = s.fault.consume ∧ t.fault.patrol = s.fault.patrol
    ∧ (∀ k : Fin 12, k ≠ 6 → k ≠ 7 → k ≠ 11 → t.fault.counters[k] = s.fault.counters[k])

/-- The path unit but for the own-write queue and the sweep. -/
def SamePath (s t : State) : Prop :=
  t.path.arming = s.path.arming ∧ t.path.scanCursor = s.path.scanCursor ∧ t.path.patrolCursor = s.path.patrolCursor
    ∧ t.path.patrolPending = s.path.patrolPending

/-- `t` differs from `s` only in the listed areas and in what the end of any event may change. The ring's `departed` flags are the
model's own (log entry 37, DEDUCED). -/
def SameBut (changed : List Area) (s t : State) : Prop :=
  SameBase s t
    ∧ (.readData ∉ changed → t.readData = s.readData)
    ∧ (.air ∉ changed → t.channels = s.channels ∧ t.rate = s.rate)
    ∧ (.trip ∉ changed → t.cells = s.cells ∧ t.sampled = s.sampled)
    ∧ (.level ∉ changed → SameLevel s t)
    ∧ (.ring ∉ changed → t.ring.rings = s.ring.rings)
    ∧ (.ring ∉ changed → .call ∉ changed → t.ring.departed = s.ring.departed)
    ∧ (.frame ∉ changed → t.frame = s.frame)
    ∧ (.call ∉ changed → t.call = s.call)
    ∧ (.road ∉ changed → SameRoad s t)
    ∧ (.refuge ∉ changed → t.chambers = s.chambers)
    ∧ (.fault ∉ changed → SameFault s t)
    ∧ (.path ∉ changed → SamePath s t)

/-- A call with id `id` has left the table: its frames that were IN_FLIGHT have departed, and no others (R123, log entry 37). -/
def FramesDepart (id : CallId) (s t : State) : Prop :=
  ∀ n : Fin 64, t.ring.departed[n] = (s.ring.departed[n] || callInFlight s id n)

/-- A stall's fault and a dropped frame's fault are not set to EVACUATE, so that the end of an event gives no evacuation cause
(R49, R73, R93). -/
def NoEndCause (s : State) : Prop := escalation s .ownWriteStall ≠ .evacuate ∧ escalation s .frameDropped ≠ .evacuate

/-- The end of an event leaves the slot's shadow as it is: the slot lies outside the PART ring, or it is UNKNOWN (R90), or it is not
EMPTY and no own-write of its word 0 is on its way (R95). -/
def SlotStays (s : State) (n : Fin 64) : Prop :=
  ringStart s 1 ≤ n.val ∨ s.ring.shadows[n].state = .unknown
    ∨ (s.ring.shadows[n].state ≠ .empty ∧ ∀ w ∈ s.path.queue, ∀ k ∈ w.notice, k.val ≠ n.val)

/-- Nothing is left over for the end of an event to do. -/
def Settled (s : State) : Prop := settleStep (beginEvent s) (beginEvent s) = none

/-! ## Start checks (R165) -/

/-- CHANNEL_ORDER's test of thresholds against a channel's sense and full scale (R165; R169 case 4). -/
def ThresholdsInOrder (c : ChannelSet) (t : Thresholds) : Prop :=
  c.fullScale ≠ 0 ∧ t.t1 ≤ c.fullScale ∧ t.t2 ≤ c.fullScale ∧ t.t3 ≤ c.fullScale
    ∧ (c.falling = false → t.t1 < t.t2 ∧ t.t2 < t.t3) ∧ (c.falling = true → t.t2 < t.t1 ∧ t.t3 < t.t2)

/-- The selector of an input of cell `i` is one of those of R33, with an index and an n that CELL_SOURCE allows (R165; codes 12.3):
FALSE, TRUE, EVACUATING; GRADE and FAULTED of a channel, GRADE with n from 1; CELL of a lower cell; CONFIRM of one of four. -/
def SelectorAllowed (i : Fin 4) (q : Selector) : Prop :=
  q.code.val = 0 ∨ q.code.val = 1 ∨ q.code.val = 5
    ∨ (q.code.val = 2 ∧ q.index.val ≤ 23 ∧ 1 ≤ q.n.val) ∨ (q.code.val = 3 ∧ q.index.val ≤ 23)
    ∨ (q.code.val = 4 ∧ q.index.val < i.val) ∨ (q.code.val = 6 ∧ q.index.val ≤ 3)

/-- The seven regions of the copies, and the setting area, each as its base and its size (4.2). -/
def regionRanges (s : State) : List (Nat × Nat) :=
  let r := s.copies.regions
  [(settingBase s.strap, 4096), (r.report.toNat, 4096), (r.events.toNat, 2048), (r.rawAir.toNat, 64), (r.txSlots.toNat, 1024),
    (r.rxSlots.toNat, 512), (r.rxBuffers.toNat, 8192), (r.partFrames.toNat, 1024)]

/-- The setting copies pass the start check of the given order number (R165): CLOCK_RANGE is 1, CHAMBER_CHANNEL 14. -/
def StartCheckPasses (s : State) (check : Nat) : Prop :=
  let c := s.copies
  match check with
  | 1 => 8000 ≤ c.node.clock ∧ c.node.clock ≤ 100000
  | 2 => c.node.split = 1 ∨ c.node.split = 2 ∨ c.node.split = 3 ∨ c.node.split = 4
  | 3 => ∀ r ∈ (regionRanges s).tail, r.1 % r.2 = 0
  | 4 => (regionRanges s).Pairwise fun a b => ∀ x : Nat, a.1 ≤ x → x < a.1 + a.2 → ¬(b.1 ≤ x ∧ x < b.1 + b.2)
  | 5 => 1 ≤ c.node.nodeId.toNat ∧ c.node.nodeId.toNat ≤ 4094
  | 6 => ∀ i j : Fin 24, i ≠ j → c.channels[i].source ≠ .off → c.channels[i].source ≠ c.channels[j].source
  | 7 => ∀ i : Fin 24, c.channels[i].source ≠ .off → ThresholdsInOrder c.channels[i] c.channels[i].limits
  | 8 => ∀ i : Fin 24, c.channels[i].source ≠ .off → ∀ k ∈ c.channels[i].partner,
      ∃ j : Fin 24, j.val = k.val ∧ j ≠ i ∧ c.channels[j].source ≠ .off ∧ ∃ m ∈ c.channels[j].partner, m.val = i.val
  | 9 => ∀ i : Fin 4, c.cells[i].enabled = true → ∀ k : Fin 4, SelectorAllowed i c.cells[i].inputs[k]
  | 10 => ∀ m n : Fin 8, m ≠ n → c.lines[m].fn ≠ .none → c.lines[m].fn ≠ c.lines[n].fn
  | 11 => ∀ i : Fin 4, c.cells[i].enabled = true → (∃ n : Fin 8, c.lines[n].fn = .tripOut i)
      ∧ (c.cells[i].confirmRequired = true → ∃ n : Fin 8, c.lines[n].fn = .confirmIn i)
  | 12 => ∀ i j : Fin 16, i ≠ j → c.segments[i].id ≠ 0 → c.segments[i].id ≠ c.segments[j].id
  | 13 => ∀ i j : Fin 4, i ≠ j → c.chambers[i].id ≠ 0 → c.chambers[i].id ≠ c.chambers[j].id
  | 14 => ∀ k : Fin 4, c.chambers[k].id ≠ 0 →
      (∀ n ∈ c.chambers[k].o2, ∃ i : Fin 24, i.val = n.val ∧ c.channels[i].source = .chamber k .o2)
      ∧ (∀ n ∈ c.chambers[k].co, ∃ i : Fin 24, i.val = n.val ∧ c.channels[i].source = .chamber k .co)
  | _ => True

/-! ## Event records -/

/-- The four words of an event record, in its place in the EVENTS region (R176, R184). -/
def recordWords (s : State) (kind subject : Nat) (info : Word) : List OwnWrite :=
  let place := 16 + 16 * (s.fault.produce.toNat % 64)
  [{ addr := eventsAddr s place, data := word kind, kind := .plain },
   { addr := eventsAddr s (place + 4), data := s.time, kind := .plain },
   { addr := eventsAddr s (place + 8), data := word subject, kind := .plain },
   { addr := eventsAddr s (place + 12), data := info, kind := .plain }]

/-- The own-write of the produce index that counts one record more (R71, R176). -/
def produceWrite (s : State) : OwnWrite :=
  { addr := eventsAddr s 0, data := word (s.fault.produce + 1).toNat, kind := .trailing }

/-- The sweep at `cursor` comes to the word at `o` (R167): the first swept word from the cursor on that has no entry in `q`. -/
def SweepNext (s : State) (q : List OwnWrite) (cursor o : Nat) : Prop :=
  ∃ before after, sweepWords = before ++ o :: after ∧ cursor ≤ o ∧ queued q (reportAddr s o) = false
    ∧ ∀ k ∈ before, k < cursor ∨ queued q (reportAddr s k) = true

/-- The sweep's cursor once it has put the word at `o` (R167): past it, or the sweep ended behind the last swept word. -/
def sweepAfter (o : Nat) : Option Nat := if o = 0x66C then none else some (o + 4)

/-! ## Part frames -/

/-- The seven own-writes of a frame built into the slot at the fill index (R95, R96): the four header words into the slot's buffer,
word 1 with the buffer's address, word 2 with tag 0, destination 4,095 and the kind, word 0 with owner 1, length 16 and the drain
notice. -/
def builtWrites (s : State) (f : PartFrame) : List OwnWrite :=
  let buffer := s.effective.regions.partFrames.toNat + 64 * s.ring.fill.val
  let slot := s.effective.regions.txSlots.toNat + 16 * s.ring.fill.val
  let plain (a : Nat) (d : Word) : OwnWrite := { addr := address a, data := d, kind := .plain }
  (builtWords s.effective.node.nodeId (s.ring.seq + 1) f).mapIdx (fun k w => plain (buffer + 4 * k) w)
    ++ [plain (slot + 4) (word (buffer % 2 ^ 24)), plain (slot + 8) (word (PartFrame.code f * 2 ^ 20 + 4095 * 2 ^ 8)),
      { plain slot 0x80000010 with notice := some s.ring.fill }]

/-- The report words of the ring at the fill index, the slot state word of its slot, and the send list word (R98, R183). -/
def fillWords (s : State) : List Nat :=
  wordRange (0x120 + 16 * (ringOf s s.ring.fill.val).val) 4 ++ [0x160 + 4 * (s.ring.fill.val / 16), 0x170]

/-- The frame is a REVOKE frame. -/
def PartFrame.isRevoke : PartFrame → Bool
  | .revoke .. => true
  | .evacuate .. | .distressRelay .. | .airAlarm .. | .refugeAlarm .. | .halt .. | .grant .. => false

/-- The frame is the GRANT of a truck in a segment. -/
def PartFrame.grants (truck seg : Id) : PartFrame → Bool
  | .grant t g _ => t == truck && g == seg
  | .evacuate .. | .distressRelay .. | .airAlarm .. | .refugeAlarm .. | .halt .. | .revoke .. => false

/-! ## Memory -/

/-- The words that the part writes of itself (R66): the outcome word and, in RUN, the REPORT region, the EVENTS region but the
consume index, the PART_FRAMES region, and words 0 to 2 of the PART ring's slots. -/
def OwnWord (s : State) (a : Addr) : Prop :=
  a = settingAddr s 0xF04
    ∨ (s.run = true
      ∧ ((∃ o, o < 4096 ∧ o % 4 = 0 ∧ a = reportAddr s o)
        ∨ (∃ o, o < 2048 ∧ o % 4 = 0 ∧ o ≠ 4 ∧ a = eventsAddr s o)
        ∨ (∃ o, o < 1024 ∧ o % 4 = 0 ∧ a = address (s.effective.regions.partFrames.toNat + o))
        ∨ (∃ n k, n < ringStart s 1 ∧ k < 3 ∧ a = address (s.effective.regions.txSlots.toNat + 16 * n + 4 * k))))

/-- A byte of one of the part's own words. -/
def OwnByte (s : State) (b : Nat) : Prop := ∃ a, OwnWord s a ∧ a.toNat ≤ b ∧ b < a.toNat + 4

/-- The bus write that a command is, if it is one. -/
def busWrite (c : Instr) (s : State) : Option Access :=
  match c with
  | .start tag arg => some (requestAccess s 0x01 tag arg)
  | .restart _ tag arg => some (requestAccess s 0x02 tag arg)
  | .resetCell tag arg => some (requestAccess s 0x03 tag arg)
  | .evacuate tag arg => some (requestAccess s 0x04 tag arg)
  | .endEvacuation tag arg => some (requestAccess s 0x05 tag arg)
  | .applyAdjustment tag arg => some (requestAccess s 0x06 tag arg)
  | .clearDistress tag arg => some (requestAccess s 0x07 tag arg)
  | .closeCall tag arg => some (requestAccess s 0x08 tag arg)
  | .clearTruck tag arg => some (requestAccess s 0x09 tag arg)
  | .checkOutMiner tag arg => some (requestAccess s 0x0A tag arg)
  | .unknownRequest code tag arg => some (requestAccess s code.toNat tag arg)
  | .settingWrite addr data | .adjustmentWrite addr data | .consumeIndexWrite addr data
  | .txWord0ControllerWrite addr data | .txWord2ControllerWrite addr data => some (fullAccess .controller addr data)
  | .rawAirWrite addr data => some (fullAccess .sensor addr data)
  | .modemTxWriteback addr data | .headerCaptureWrite addr data | .receiveCompletion addr data =>
    some (fullAccess .modem addr data)
  | .partialWrite init addr lanes data | .guardWrite init addr lanes data | .plainWrite init addr lanes data =>
    some { init := init, addr := addr, lanes := lanes, data := data }
  | .powerOn _ | .resetInput _ | .channelArmingRead _ | .logArmingRead _ | .ackWordRead _ | .releaseWordRead
  | .consumingRead _ | .modemTxRead _ | .modemTxPartialRead _ _ | .confirmInChange _ _ | .drain | .startScanRead
  | .patrolRead | .timeBaseTick | .staleTimerExpiry _ | .rateWindowExpiry | .repeatTimerExpiry | .patrolTimerExpiry
  | .remoteAlertExpiry | .confirmTimerExpiry _ | .callSilenceExpiry _ | .grantTimerExpiry _ _ | .truckStaleExpiry _
  | .truckForgetExpiry _ | .chamberSilenceExpiry _ | .airlockTimerExpiry _ | .truckBeacon _ _ _ _ _ _ | .callOpen _ _ _
  | .callClose _ | .voice _ | .distress _ _ _ | .checkIn _ _ | .checkOut _ _ | .refugeStatus _ _ _ _ _
  | .evacuateFrame _ _ _ _ _ | .airAlarmFrame _ _ _ | .evacuatingReevaluation => none

/-- The request word that a row of requests writes, if the command is one. -/
def requestWordOf (c : Instr) : Option Word :=
  match c with
  | .start tag arg => some (requestWord 0x01 tag arg)
  | .restart _ tag arg => some (requestWord 0x02 tag arg)
  | .resetCell tag arg => some (requestWord 0x03 tag arg)
  | .evacuate tag arg => some (requestWord 0x04 tag arg)
  | .endEvacuation tag arg => some (requestWord 0x05 tag arg)
  | .applyAdjustment tag arg => some (requestWord 0x06 tag arg)
  | .clearDistress tag arg => some (requestWord 0x07 tag arg)
  | .closeCall tag arg => some (requestWord 0x08 tag arg)
  | .clearTruck tag arg => some (requestWord 0x09 tag arg)
  | .checkOutMiner tag arg => some (requestWord 0x0A tag arg)
  | .unknownRequest code tag arg => some (requestWord code.toNat tag arg)
  | _ => none

/-- A command is the write of an END_EVACUATION request that is accepted (R58, the second half of Law 8): in RUN, with every cell
READY or IDLE and no alerting channel at held grade ALARM or above. -/
def EndsEvacuation (c : Instr) (s : State) : Prop :=
  s.run = true ∧ cellsTripped s = false ∧ alertingHeld s = false
    ∧ ∃ a : Access, busWrite c s = some a ∧ a.init = .controller ∧ a.isFull = true
        ∧ a.wordAddr = settingBase s.strap + 0xF00 ∧ requestCode a.data = 5

/-- The write guards drop the access (R66). -/
def dropped (s : State) (a : Access) : Bool :=
  s.run && match regionAt s a.wordAddr with | some (k, o) => !permitted s a.init k o | none => false

/-- The word that a write which is not dropped puts on the memory's data lanes (R65): the consume index clamped (R177), the
verdict filled in a raw air word (R3), any other write as the bus carries it. -/
def storedData (s : State) (a : Access) : Word :=
  if s.run && a.isFull then
    match regionAt s a.wordAddr with
    | some (k, o) =>
      match takenWord s a.init k o with
      | some .consume => withConsume (clampConsume s.fault (bits a.data 0 16)) a.data
      | some (.rawAir n) => withVerdict (rawVerdict s n a.data) a.data
      | _ => a.data
    | none => a.data
  else a.data

/-- The byte is in an active lane of the word that a command's bus write stores to; a dropped write stores nothing. -/
def storedByte (c : Instr) (s : State) (b : Nat) : Bool :=
  match busWrite c s with
  | some a => !dropped s a && decide (a.wordAddr ≤ b) && decide (b < a.wordAddr + 4) && bitOf a.lanes (b - a.wordAddr)
  | none => false

/-! ## The laws of the part -/

/-- Law 1 (R16): no channel's latched grade is below its live grade, so that the held grade is the latched grade. -/
def LatchedCoversLive (s : State) : Prop :=
  ∀ i : Fin 24, Grade.code s.channels[i].live ≤ Grade.code s.channels[i].latched

/-- Law 2 (R43, R44): what the part drives on every line is what its function gives it, and in SETUP nothing. -/
def LinesFollow (s : State) : Prop := s.drive = lineDrives s

/-- The level is as the cause record and the ALERT cause set give it (R47). -/
def LevelFollows (s : State) : Prop :=
  (s.level.cause.isSome = true → s.level.level = .evacuate)
    ∧ (s.level.cause = none → s.level.level = if s.level.alerts = [] then .normal else .alert)

/-- A muster summary gives the roll call of the state (R61): each chamber's count, the distress entries and the LOST trucks. -/
def MusterShows (s : State) (m : Muster) : Prop :=
  (∀ c : Fin 4, m.counts[c] = s.chambers[c].occupants.length + s.chambers[c].overflow)
    ∧ m.distress = s.call.distress.length ∧ m.lost = lostCount s

/-- The muster summary is current exactly in EVACUATE, and there it gives the roll call (R61). -/
def MusterFollows (s : State) : Prop :=
  s.level.muster.current = decide (s.level.level = .evacuate)
    ∧ (s.level.level = .evacuate → MusterShows s s.level.muster)

/-- What an event leaves of the muster summary (R61): within an evacuation it gives the roll call as the event leaves it, its entry time
and its current flag standing; below EVACUATE it stays. -/
def MusterGoesOn (s t : State) : Prop :=
  (s.level.level = .evacuate → s.level.cause ≠ none →
      t.level.muster.current = s.level.muster.current ∧ t.level.muster.entry = s.level.muster.entry
      ∧ MusterShows t t.level.muster)
    ∧ (s.level.level ≠ .evacuate → s.level.cause = none → NoEndCause s → t.level.muster = s.level.muster)

/-- Law 5 (R133, R138): a truck is a holder in at most one segment and an occupant in at most one, stands at most once in all wait
queues together, and waits for no segment that it holds or occupies. Two more clauses, which the rules do not state and the cases of
R138 and R140 give: a truck that waits holds no segment, and a holder is no listed occupant of its segment. -/
def TruckPlacesKept (s : State) : Prop :=
  (∀ i : Fin 16, (s.road.segments[i].holders.map (·.truck)).Nodup
      ∧ (s.road.segments[i].granted ++ s.road.segments[i].unauthorised).Nodup
      ∧ (s.road.segments[i].queue.map (·.truck)).Nodup)
    ∧ (∀ (i j : Fin 16) (id : Id), i ≠ j →
        (holds s.road.segments[i] id = true → holds s.road.segments[j] id = false)
        ∧ (occupies s.road.segments[i] id = true → occupies s.road.segments[j] id = false)
        ∧ (waits s.road.segments[i] id = true → waits s.road.segments[j] id = false ∧ holds s.road.segments[j] id = false))
    ∧ (∀ (i : Fin 16) (id : Id),
        (waits s.road.segments[i] id = true → holds s.road.segments[i] id = false ∧ occupies s.road.segments[i] id = false)
        ∧ (holds s.road.segments[i] id = true → occupies s.road.segments[i] id = false))

/-- The settings bound (Law 4, R139): holders and granted occupants of a segment are within its convoy limit, and in SETUP the
roads are empty. -/
def GrantsKept (s : State) : Prop :=
  (s.run = false → s.road = {})
    ∧ (s.run = true → ∀ i : Fin 16,
        s.road.segments[i].holders.length + s.road.segments[i].granted.length ≤ s.effective.segments[i].convoy)

/-- No wait queue holds more than 8 entries and no unauthorised list more than 4 trucks (R132). -/
def RoadListsKept (s : State) : Prop :=
  ∀ i : Fin 16, s.road.segments[i].queue.length ≤ waitQueueSize ∧ s.road.segments[i].unauthorised.length ≤ unauthorisedSize

/-- Law 6 (R154): a miner appears at most once in all occupant lists together, and in RUN no list passes its capacity. -/
def ChambersKept (s : State) : Prop :=
  (∀ c : Fin 4, s.chambers[c].occupants.Nodup)
    ∧ (∀ c d : Fin 4, c ≠ d → ∀ m ∈ s.chambers[c].occupants, m ∉ s.chambers[d].occupants)
    ∧ (s.run = true → ∀ c : Fin 4, s.chambers[c].occupants.length ≤ s.effective.chambers[c].capacity)

/-- Law 7 (R115, R118) and R124: distinct call ids, the admission order naming each occupied position once, and at most 8
distress entries of distinct miners. -/
def CallsKept (s : State) : Prop :=
  (∀ p q : Fin 8, ∀ c ∈ s.call.table[p], ∀ d ∈ s.call.table[q], c.id = d.id → p = q)
    ∧ s.call.order.Nodup ∧ (∀ p : Fin 8, p ∈ s.call.order ↔ s.call.table[p].isSome = true)
    ∧ s.call.distress.length ≤ distressSize ∧ (s.call.distress.map (·.miner)).Nodup

/-- Law 9 (R69, R70): at most 32 own-writes with distinct addresses, each to one of the part's own words; a drain notice and the
fill index name a PART ring slot; in SETUP no follow-up value, no sweep, and the fill index at slot 0. -/
def QueueKept (s : State) : Prop :=
  s.path.queue.length ≤ queueSize ∧ (s.path.queue.map (·.addr)).Nodup
    ∧ (∀ w ∈ s.path.queue, OwnWord s w.addr)
    ∧ (∀ w ∈ s.path.queue, ∀ n ∈ w.notice, s.run = true ∧ n.val < ringStart s 1)
    ∧ (s.run = true → s.ring.fill.val < ringStart s 1)
    ∧ (s.run = false → s.ring.fill = 0 ∧ s.path.followUp = none ∧ s.path.sweep = none)

/-- The patrol cursor stands at a patrolled word (R178). -/
def PatrolKept (s : State) : Prop := s.path.patrolCursor ∈ patrolWords

/-- Laws 10 and 12 (R176, R93): the event ring holds at most 64 records; the send list at most 8 frames, never two EVACUATE
frames, never two DISTRESS_RELAY frames for one miner, and in order of urgency (R91). -/
def CapacitiesKept (s : State) : Prop :=
  occupancy s.fault ≤ ringRecords ∧ s.ring.list.length ≤ sendListSize
    ∧ s.ring.list.countP PartFrame.isEvacuate ≤ 1 ∧ (∀ m : Id, s.ring.list.countP (PartFrame.relays m) ≤ 1)
    ∧ (s.ring.list.map PartFrame.urgency).Pairwise (· ≤ ·)

end Sys2Proof.Machine
end

