-- ==== Sys2Proof/Certificates/Slice0/Obligations.lean ====
section
/-! DEFINITION. The statements for the provers, in the order of OBLIGATIONS.json. -/

open Sys2Proof Sys2Proof.Machine Sys2Proof.Config

/-! ## The machine -/

/-- A step is the command at the front of the queue executed with the queue's rest. On an empty queue the part idles: that
clause is the model's choice (log entry 3). -/
def Obligations.StepRunsTheFrontCommand : Prop :=
  (∀ (c : Instr) (rest : List Instr) (s : State), step { s with pending := c :: rest } = exec c { s with pending := rest })
    ∧ ∀ s : State, s.pending = [] → step s = .next s

/-- Every command completes, and none touches the commands that wait behind it. -/
def Obligations.CommandsCompleteAndKeepTheQueue : Prop :=
  ∀ (c : Instr) (s : State), ∃ t, exec c s = .next t ∧ t.pending = s.pending

/-! ## Resets and requests -/

/-- What POWER_ON and RESET_INPUT leave (R170): SETUP with every table empty and no line driven; memory is not touched;
POWER_ON clears the setting copies and the staged words, RESET_INPUT keeps them and counts. Of the state after reset, the effective
settings cleared (log entry 21) and the sampled lines low (log entry 2) are the model's choices, as is the strap value that comes
with the command (log entry 19). -/
def Obligations.ResetsLeaveSetup : Prop :=
  ∀ (strap : BitVec 2) (s : State),
    exec (.powerOn strap) s = .next { State.reset with
      pending := s.pending, strap := strap, mem := s.mem, readData := s.readData, pins := s.pins }
    ∧ exec (.resetInput strap) s = .next { State.reset with
      pending := s.pending, strap := strap, resetKind := .resetInput, resetCount := saturate countTop s.resetCount,
      copies := s.copies, staged := s.staged, mem := s.mem, readData := s.readData, pins := s.pins }

/-- An accepted RESTART (R171): the reset of R170 in the same event, the request word in memory, and DONE as the only entry of
the emptied own-write queue, at the setting area of the new strap value. Of the state after reset, the effective settings cleared
(log entry 21) and the sampled lines low (log entry 2) are the model's choices, as is the strap value that comes with the command
(log entry 19). -/
def Obligations.RestartAccepted : Prop :=
  ∀ (strap : BitVec 2) (tag : BitVec 8) (arg : BitVec 16) (s : State),
    s.run = true → cellsTripped s = false → s.level.level = .normal →
    exec (.restart strap tag arg) s = .next { State.reset with
      pending := s.pending, strap := strap, resetKind := .restart, resetCount := saturate countTop s.resetCount,
      copies := s.copies, staged := s.staged, readData := s.readData, pins := s.pins,
      mem := memWriteWord s.mem (settingBase s.strap + 0xF00) (requestWord 2 tag arg),
      path := { queue := [{ addr := settingAddr { s with strap := strap } 0xF04, kind := .coalescing,
                            data := outcomeWord (requestWord 2 tag arg) outDone 0 }] } }

/-- A request that is not DONE (R164): its event is the queueing of the outcome word and nothing else, and no unit changes. -/
def Obligations.RefusedRequestsChangeNothing : Prop :=
  ∀ (c : Instr) (w : Word) (s : State), requestWordOf c = some w →
    (judgeRequest s.strap w s).outcome ≠ outDone →
    ∃ t, exec c s = .next t ∧
      t = event (fun u => { u with path := { u.path with
            outcome := some (outcomeWord w (judgeRequest s.strap w s).outcome (judgeRequest s.strap w s).reason) } })
          { s with mem := memWriteWord s.mem (settingBase s.strap + 0xF00) w }
      ∧ SameBut [] s t

/-- The outcome and the detail of every request, in the order in which each is judged (R40, R57, R58, R122, R128, R149, R156,
R164, R165, R169, R171). START in SETUP is DONE exactly where the copies pass each of the fourteen start checks, and else refused with
the code of the first that they fail, 0x11 to 0x1E in the order of R165 (StartCheckPasses says of each check what it judges); an
adjustment's thresholds are judged by CHANNEL_ORDER's test. -/
def Obligations.RequestOutcomes : Prop :=
  ∀ (strap : BitVec 2) (w : Word) (s : State),
    let r := judgeRequest strap w s
    let code := requestCode w
    let arg := requestArg w
    let answer := (r.outcome, r.reason)
    (code = 0 ∨ 10 < code → answer = (outUnknown, 0))
    ∧ (s.run = false → 2 ≤ code → code ≤ 10 → answer = (outRefused, notRunning))
    ∧ (s.run = false → code = 1 →
        answer = match failingCheck s with | some check => (outRefused, check) | none => (outDone, 0))
    ∧ (s.run = true → code = 1 → answer = (outRefused, alreadyRunning))
    ∧ (s.run = true → code = 2 → answer =
        if cellsTripped s then (outRefused, cellsActive)
        else if s.level.level ≠ .normal then (outRefused, levelActive) else (outDone, 0))
    ∧ (s.run = true → code = 3 → answer =
        if 3 < arg then (outBad, 0)
        else if !tripActive s.cells[Fin.ofNat 4 arg] then (outRefused, notTripped)
        else if s.cells[Fin.ofNat 4 arg].demand then (outRefused, demandStanding) else (outDone, 0))
    ∧ (s.run = true → code = 4 → answer = if 8 ≤ arg ∧ arg ≤ 15 then (outDone, 0) else (outBad, 0))
    ∧ (s.run = true → code = 5 → answer =
        if cellsTripped s then (outRefused, cellsActive)
        else if alertingHeld s then (outRefused, airActive) else (outDone, 0))
    ∧ (s.run = true → code = 6 → arg = 0xFF → answer =
        if s.level.level = .evacuate then (outRefused, levelActive) else (outDone, 0))
    ∧ (s.run = true → code = 6 → arg ≠ 0xFF → answer =
        if 23 < arg ∨ s.effective.channels[Fin.ofNat 24 arg].source = .off then (outBad, 0)
        else if s.level.level = .evacuate then (outRefused, levelActive)
        else if Grade.atLeastAlarm (held s.channels[Fin.ofNat 24 arg]) then (outRefused, airActive)
        else if !thresholdsOrdered s.effective.channels[Fin.ofNat 24 arg] s.staged.channels[Fin.ofNat 24 arg] then (outBad, 0)
        else (outDone, 0))
    ∧ (s.run = true → code = 7 → answer =
        if arg = 0 then (outBad, 0)
        else if s.call.distress.any (fun d => d.miner == BitVec.ofNat 16 arg) then (outDone, 0) else (outRefused, notFound))
    ∧ (s.run = true → code = 8 → answer =
        if arg = 0 ∨ 255 < arg then (outBad, 0)
        else if (callPosition s (BitVec.ofNat 8 arg)).isSome then (outDone, 0) else (outRefused, notFound))
    ∧ (s.run = true → code = 9 → answer =
        if arg = 0 then (outBad, 0)
        else if (truckPosition s (BitVec.ofNat 16 arg)).isSome then (outDone, 0) else (outRefused, notFound))
    ∧ (s.run = true → code = 10 → answer =
        if arg = 0 then (outBad, 0)
        else if s.chambers.toList.any (fun h => h.occupants.contains (BitVec.ofNat 16 arg)) then (outDone, 0)
        else (outRefused, notFound))
    ∧ (failingCheck s = none ↔ ∀ check, 1 ≤ check → check ≤ 14 → StartCheckPasses s check)
    ∧ (∀ check, 1 ≤ check → check ≤ 14 →
        (failingCheck s = some (0x10 + check) ↔
          ¬StartCheckPasses s check ∧ ∀ k, 1 ≤ k → k < check → StartCheckPasses s k))
    ∧ (∀ (c : ChannelSet) (t : Thresholds), thresholdsOrdered c t = true ↔ ThresholdsInOrder c t)

/-- An accepted START enters RUN (R166): the copies in effect, node time 0, every channel, cell and chamber as RUN entry leaves
it, a cell tripped exactly where its demand is true, the timers started, the lines sampled and driven, the scan pending. From the
tables that every reset leaves and an empty own-write queue, and with no stall, the queue holds in order (steps 3, 6 and 8, R167,
R176): the identity words, the produce index 0, the STARTED record, the CELL_TRIPPED record of each cell that trips in rising index,
the LEVEL record of the change that they bring, the report words that they change, the outcome word, and, where there is room, the first
word of the sweep; the produce index of the records is the follow-up value. Behind the LEVEL record stand, in an order that is not stated
here, the level word, the line word and the cell words of the cells that trip, and nothing but words of records and of REPORT. With no
cell enabled nothing stalls and the cells hand on nothing. The order of a CELL_TRIPPED detail's truths is log entry 36's (DESIGN CHOICE),
the place of the report words behind the records log entry 20's (DEDUCED). -/
def Obligations.StartEntersRun : Prop :=
  ∀ (tag : BitVec 8) (arg : BitVec 16) (s : State), s.run = false → failingCheck s = none →
    ∃ t, exec (.start tag arg) s = .next t ∧
      t.run = true ∧ t.effective = s.copies ∧ t.time = 0
      ∧ (∀ i : Fin 24, t.channels[i] = { ({} : Channel) with
          limits := s.copies.channels[i].limits,
          stale := if s.copies.channels[i].source = .off then .off else Timer.start s.copies.channels[i].staleTime })
      ∧ (∀ c : Fin 4, t.chambers[c] = { ({} : Chamber) with
          silenceTimer := if s.copies.chambers[c].id = 0 then .off else Timer.start s.copies.chambers[c].silenceTime })
      ∧ (∀ i : Fin 4, s.copies.cells[i].enabled = false → t.cells[i] = {})
      ∧ (∀ i : Fin 4, s.copies.cells[i].enabled = true →
          t.cells[i].state ≠ .idle ∧ tripActive t.cells[i] = t.cells[i].demand)
      ∧ t.rate = PeriodTimer.start s.copies.node.rateWindow
      ∧ t.level.repeatTimer = PeriodTimer.start s.copies.node.repeatPeriod
      ∧ t.fault.patrol = PeriodTimer.start s.copies.node.patrol
      ∧ t.path.scanCursor = 0 ∧ t.path.patrolCursor = 0 ∧ t.path.patrolPending = false
      ∧ (∀ n : Fin 8, t.sampled[n] = (s.pins[n] ^^ s.copies.lines[n].invert)) ∧ t.drive = lineDrives t
      ∧ (∀ r : Fin 4, t.ring.rings[r].next = some (Fin.ofNat 64 (ringStart t r.val)))
      ∧ t.pending = s.pending ∧ t.strap = s.strap ∧ t.resetKind = s.resetKind ∧ t.resetCount = s.resetCount
      ∧ t.copies = s.copies ∧ t.staged = s.staged ∧ t.pins = s.pins ∧ t.readData = s.readData
      ∧ t.frame = s.frame ∧ t.call = s.call ∧ t.path.arming = s.path.arming
      ∧ (s.level = {} → s.road = {} → s.fault = {} → s.ring.list = [] → s.path.queue = [] → s.path.followUp = none →
          let announced : List OwnWrite :=
            [mirrorWrite t 0x000, mirrorWrite t 0x004, { addr := eventsAddr t 0, data := 0, kind := .trailing }]
              ++ recordWords { t with fault := {} } 0x01 s.copies.node.nodeId.toNat
                  (detail [(2, ResetKind.code s.resetKind), (16, s.resetCount)])
          let outcome : OwnWrite :=
            { addr := settingAddr s 0xF04, data := outcomeWord (requestWord 1 tag arg) outDone 0, kind := .coalescing }
          let tripped : List (Fin 4) := (List.finRange 4).filter (fun i => tripActive t.cells[i])
          let records : List OwnWrite := (tripped.mapIdx (fun j i =>
            recordWords { t with fault := { produce := BitVec.ofNat 16 (1 + j) } } 0x18 i.val
              (detail ((3, CellState.code t.cells[i].state) :: truthFields t.cells[i].truths)))).flatten
          let change : List OwnWrite := if tripped = [] then [] else
            recordWords { t with fault := { produce := BitVec.ofNat 16 (1 + tripped.length) } } 0x20 0
              (detail ([(2, 0), (2, Level.code t.level.level)] ++ match t.level.cause with
                | some c => [(2, CauseKind.code c.kind), (12, c.node.toNat), (8, c.seq.toNat), (4, c.reason.toNat)]
                | none => []))
          (t.waitCycles = 0 → ∃ reports : List OwnWrite,
            (let q := announced ++ records ++ change ++ reports ++ [outcome]
             (∃ o, SweepNext t q 0x010 o ∧ t.path.queue = q ++ [mirrorWrite t o] ∧ t.path.sweep = sweepAfter o)
              ∨ (t.path.queue = q ∧ q.length = 32 ∧ t.path.sweep = some 0x010))
            ∧ (∀ i ∈ tripped, mirrorWrite t (0x100 + 4 * i.val) ∈ reports ∧ mirrorWrite t 0x110 ∈ reports
                ∧ mirrorWrite t 0x010 ∈ reports)
            ∧ (∀ w ∈ reports, (∃ o ∈ sweepWords, w = mirrorWrite t o)
                ∨ (w.kind = .plain ∧ ∃ o, 16 ≤ o ∧ o < 16 + 16 * t.fault.produce.toNat ∧ w.addr = eventsAddr t o))
            ∧ ((∀ i : Fin 4, s.copies.cells[i].enabled = false) → reports = [])
            ∧ t.path.followUp = some (word t.fault.produce.toNat))
          ∧ ((∀ i : Fin 4, s.copies.cells[i].enabled = false) → t.waitCycles = 0 ∧ t.fault.produce = 1))

/-- An EVACUATE request with reason 8 to 15 in RUN (R57, R51): with the cause record absent it fills it, with the own sequence
incremented, and the level is EVACUATE; with a cause in force it is a later cause and changes neither. At the entry the muster summary
is current, with the node time and the roll call of the entry event's end; at a later cause it goes on (R61). -/
def Obligations.EvacuateRequestTaken : Prop :=
  ∀ (tag : BitVec 8) (arg : BitVec 16) (s : State), s.run = true → 8 ≤ arg.toNat → arg.toNat ≤ 15 →
    ∃ t, exec (.evacuate tag arg) s = .next t ∧
      (s.level.cause = none →
        t.level.cause = some
          { kind := .request, node := s.effective.node.nodeId, seq := s.level.ownSeq + 1,
            hop := some s.effective.node.hop, reason := BitVec.ofNat 4 arg.toNat, time := s.time }
        ∧ t.level.ownSeq = s.level.ownSeq + 1 ∧ t.level.level = .evacuate
        ∧ (s.level.level ≠ .evacuate →
            t.level.muster.current = true ∧ t.level.muster.entry = s.time ∧ MusterShows t t.level.muster))
      ∧ (∀ c, s.level.cause = some c →
          t.level.cause = some c ∧ t.level.ownSeq = s.level.ownSeq ∧ MusterGoesOn s t)
      ∧ SameBut [] s t

/-- An accepted END_EVACUATION (R58): the cause in force becomes the ended cause, the record is cleared and the level leaves
EVACUATE; the muster summary is then no longer current and keeps its entry time and the roll call of the exit (R61), which the model takes
where it derives the level (log entry 4, DEDUCED). Without a cause nothing changes but what the end of any event may change. -/
def Obligations.EndEvacuationAccepted : Prop :=
  ∀ (tag : BitVec 8) (arg : BitVec 16) (s : State),
    s.run = true → cellsTripped s = false → alertingHeld s = false → NoEndCause s →
    ∃ t, exec (.endEvacuation tag arg) s = .next t ∧
      (∀ c, s.level.cause = some c →
        t.level.cause = none ∧ t.level.ended = some (c.node, c.seq) ∧ t.level.level ≠ .evacuate
        ∧ t.level.ownSeq = s.level.ownSeq ∧ t.level.remote = s.level.remote
        ∧ t.level.repeatTimer = s.level.repeatTimer
        ∧ (∀ m, AlertMember.settled m = true → (m ∈ t.level.alerts ↔ m ∈ s.level.alerts))
        ∧ (s.level.level = .evacuate →
            t.level.muster.current = false ∧ t.level.muster.entry = s.level.muster.entry ∧ MusterShows s t.level.muster))
      ∧ (s.level.cause = none →
          t.level.cause = none ∧ t.level.ownSeq = s.level.ownSeq ∧ SameLevel s t ∧ MusterGoesOn s t)
      ∧ SameBut [.level] s t

/-- An accepted RESET_CELL (R40): the cell is READY with its confirm timer off and leaves the ALERT cause set; no other cell
changes. -/
def Obligations.ResetCellDone : Prop :=
  ∀ (tag : BitVec 8) (arg : BitVec 16) (i : Fin 4) (s : State),
    s.run = true → arg.toNat = i.val → tripActive s.cells[i] = true → s.cells[i].demand = false →
    ∃ t, exec (.resetCell tag arg) s = .next t ∧
      t.cells[i] = { s.cells[i] with state := .ready, confirm := .off }
      ∧ (∀ j : Fin 4, j ≠ i → t.cells[j] = s.cells[j]) ∧ t.sampled = s.sampled
      ∧ AlertMember.cell i ∉ t.level.alerts
      ∧ (∀ m, AlertMember.settled m = true → m ≠ .cell i → (m ∈ t.level.alerts ↔ m ∈ s.level.alerts))
      ∧ t.drive = lineDrives t
      ∧ SameBut [.trip, .level] s t

/-- An accepted APPLY_ADJUSTMENT (R169): for a channel the staged set becomes its adjustment in waiting; for 0xFF each staged
period is given to its timer. Nothing else changes but what the end of any event may change: in the level unit a first cause, the
own sequence and the unsettled ALERT members, in the fault unit the log, the produce index and three counters. -/
def Obligations.AdjustmentApplied : Prop :=
  (∀ (tag : BitVec 8) (arg : BitVec 16) (i : Fin 24) (s : State),
    s.run = true → arg.toNat = i.val → s.effective.channels[i].source ≠ .off → s.level.level ≠ .evacuate →
    Grade.atLeastAlarm (held s.channels[i]) = false →
    thresholdsOrdered s.effective.channels[i] s.staged.channels[i] = true →
    ∃ t, exec (.applyAdjustment tag arg) s = .next t ∧
      t.channels[i] = { s.channels[i] with waiting := some s.staged.channels[i] }
      ∧ (∀ j : Fin 24, j ≠ i → t.channels[j] = s.channels[j]) ∧ t.rate = s.rate
      ∧ SameBut [.air] s t)
  ∧ (∀ (tag : BitVec 8) (s : State), s.run = true → s.level.level ≠ .evacuate →
    ∃ t, exec (.applyAdjustment tag 0xFF) s = .next t ∧
      t.rate = PeriodTimer.apply s.staged.rateWindow s.rate
      ∧ t.level.repeatTimer = PeriodTimer.apply s.staged.repeatPeriod s.level.repeatTimer
      ∧ t.fault.patrol = PeriodTimer.apply s.staged.patrol s.fault.patrol
      ∧ t.channels = s.channels ∧ t.level.remote = s.level.remote ∧ t.level.ended = s.level.ended
      ∧ (s.level.cause.isSome → t.level.cause = s.level.cause)
      ∧ (∀ m, AlertMember.settled m = true → (m ∈ t.level.alerts ↔ m ∈ s.level.alerts))
      ∧ t.fault.consume = s.fault.consume
      ∧ (∀ k : Fin 12, k ≠ 6 → k ≠ 7 → k ≠ 11 → t.fault.counters[k] = s.fault.counters[k])
      ∧ SameBut [.air, .level, .fault] s t)

/-- CLEAR_DISTRESS, CLOSE_CALL and CHECK_OUT_MINER for something listed (R128, R122, R156): it leaves its list or position, and
every other entry stays. Which frames of a closed call have departed (FramesDepart, ring.departed) is told by a flag of the model's own
for each slot (log entry 37, DEDUCED). -/
def Obligations.ListedThingsAreRemoved : Prop :=
  (∀ (tag : BitVec 8) (arg : BitVec 16) (d : Distress) (s : State),
    s.run = true → arg ≠ 0 → distressOf s arg = some d →
    ∃ t, exec (.clearDistress tag arg) s = .next t ∧
      t.call.distress = s.call.distress.filter (fun e => e.miner != arg)
      ∧ (t.call.distress = [] → AlertMember.distress ∉ t.level.alerts)
      ∧ (∀ p : Fin 8, t.call.table[p].map (·.id) = s.call.table[p].map (·.id)) ∧ t.call.order = s.call.order
      ∧ t.ring.departed = s.ring.departed ∧ MusterGoesOn s t
      ∧ SameBut [.call, .level] s t)
  ∧ (∀ (tag : BitVec 8) (arg : BitVec 16) (p : Fin 8) (s : State),
    s.run = true → arg ≠ 0 → arg.toNat ≤ 255 → callPosition s (arg.setWidth 8) = some p →
    ∃ t, exec (.closeCall tag arg) s = .next t ∧
      t.call = { s.call with table := s.call.table.set p none, order := s.call.order.filter (· ≠ p) }
      ∧ FramesDepart (arg.setWidth 8) s t
      ∧ SameBut [.call] s t)
  ∧ (∀ (tag : BitVec 8) (arg : BitVec 16) (c : Fin 4) (s : State),
    s.run = true → arg ≠ 0 → listedIn s arg = some c →
    ∃ t, exec (.checkOutMiner tag arg) s = .next t ∧
      t.chambers[c].occupants = s.chambers[c].occupants.filter (· ≠ arg)
      ∧ t.chambers[c].overflow = s.chambers[c].overflow
      ∧ (∀ d : Fin 4, d ≠ c → t.chambers[d] = s.chambers[d])
      ∧ MusterGoesOn s t
      ∧ SameBut [.refuge, .level] s t)

/-- CLEAR_TRUCK for a truck of the table (R149): its position is free and it stands in no list of any segment; the other
occupants stay, and every other truck but one that is forgotten, its forget timer having expired. -/
def Obligations.TruckCleared : Prop :=
  ∀ (tag : BitVec 8) (arg : BitVec 16) (p : Fin 32) (s : State),
    s.run = true → arg ≠ 0 → truckPosition s arg = some p →
    ∃ t, exec (.clearTruck tag arg) s = .next t ∧
      t.road.trucks[p] = none
      ∧ (∀ i : Fin 16, holds t.road.segments[i] arg = false ∧ waits t.road.segments[i] arg = false
          ∧ t.road.segments[i].granted = s.road.segments[i].granted.filter (· ≠ arg)
          ∧ t.road.segments[i].unauthorised = s.road.segments[i].unauthorised.filter (· ≠ arg))
      ∧ (∀ q : Fin 32, q ≠ p → t.road.trucks[q] = s.road.trucks[q]
          ∨ t.road.trucks[q] = none ∧ ∃ k, s.road.trucks[q] = some k ∧ k.forget = .expired)
      ∧ t.road.queueFull = s.road.queueFull ∧ t.road.tableFull = s.road.tableFull
      ∧ SameBut [.road] s t

/-! ## Bus writes -/

/-- CONTROLLER full-word writes of the part's words. In SETUP a write of a setting word reaches memory and is taken into the copies
(R163); a write of an ADJUSTMENT word is taken in SETUP and in RUN alike (R168); nothing else changes. Which fields a setting word fills,
each with its clamp or the code it is taken as, is said word by word, section by section (R182 with R1, R21, R32, R42, R50, R55, R64,
R114, R130, R131, R152, R172, R178), and of the adjustment words likewise (R168); a word without a field leaves the copies. That a full
scale of 0 and a threshold above full scale are kept as written is log entry 22's (DEDUCED), and which period lies at 0x780, 0x784 and
0x788 log entry 40's (DESIGN CHOICE). In RUN a consume index within the occupancy is taken, one past the produce index is clamped to
it, and one that moves back leaves the index (R177). -/
def Obligations.ControllerWordsTaken : Prop :=
  (∀ (o : Nat) (data : Word) (s : State), s.run = false → o % 4 = 0 → o < 0x510 →
    ∃ t, exec (.settingWrite (settingAddr s o) data) s = .next t ∧
      t = { s with
        mem := memWriteWord s.mem (settingBase s.strap + o) data, copies := takeSettings o data s.copies })
  ∧ (∀ (o : Nat) (data : Word) (s : State), o % 4 = 0 → 0x600 ≤ o → o < 0x78C →
    ∃ t, exec (.adjustmentWrite (settingAddr s o) data) s = .next t ∧
      t = { s with
        mem := memWriteWord s.mem (settingBase s.strap + o) data, staged := takeStaged o data s.staged })
  ∧ (∀ (w : Word) (c : Settings),
    let fill := fun o : Nat => takeSettings o w c
    let region := fun r : Regions => { c with regions := r }
    let base : Addr := bits w 0 24
    fill 0x000 = region { c.regions with report := base } ∧ fill 0x004 = region { c.regions with events := base }
    ∧ fill 0x008 = region { c.regions with rawAir := base } ∧ fill 0x00C = region { c.regions with txSlots := base }
    ∧ fill 0x010 = region { c.regions with rxSlots := base } ∧ fill 0x014 = region { c.regions with rxBuffers := base }
    ∧ fill 0x018 = region { c.regions with partFrames := base } ∧ fill 0x01C = c)
  ∧ (∀ (w : Word) (c : Settings),
    let fill := fun o : Nat => takeSettings o w c
    let node := fun n : NodeSet => { c with node := n }
    fill 0x020 = node { c.node with nodeId := bits w 0 12, split := fieldNat w 16 3, hop := bits w 20 4 }
    ∧ fill 0x024 = node { c.node with clock := fieldNat w 0 17 }
    ∧ fill 0x028 = node { c.node with
        repeatPeriod := max 1 (min 60 (fieldNat w 0 8)), rateWindow := min 60 (fieldNat w 8 8), patrol := min 60 (fieldNat w 16 8) }
    ∧ fill 0x02C = node { c.node with remoteHold := min 3600 (fieldNat w 0 12) }
    ∧ fill 0x030 = node { c.node with
        truckStale := min 600 (fieldNat w 0 16), truckForget := max 1 (min 3600 (fieldNat w 16 16)) }
    ∧ fill 0x034 = node { c.node with silenceTime := fieldNat w 0 16, silenceAny := decide (fieldNat w 16 2 = 1) }
    ∧ fill 0x038 = c ∧ fill 0x03C = c)
  ∧ (∀ (i : Fin 24) (w : Word) (c : Settings),
    let fill := fun k : Nat => takeSettings (0x040 + 32 * i.val + 4 * k) w c
    let channel := fun e : ChannelSet => { c with channels := c.channels.set i e }
    let e := c.channels[i]
    (∃ (source : Source) (grade : Grade),
      fill 0 = channel { e with
          source := source, falling := bitOf w 12, alerting := bitOf w 13, faultGrade := grade, shift := min 4 (fieldNat w 20 3),
          partner := if bitOf w 29 then some (Fin.ofNat 32 (fieldNat w 24 5)) else none }
      ∧ (fieldNat w 0 2 = 0 ∨ fieldNat w 0 2 = 3 → source = .off)
      ∧ (fieldNat w 0 2 = 1 → source = .localInput (Fin.ofNat 16 (fieldNat w 4 4)))
      ∧ (fieldNat w 0 2 = 2 → source = .chamber (Fin.ofNat 4 (fieldNat w 8 2)) (if bitOf w 10 then .co else .o2))
      ∧ Grade.code grade = fieldNat w 16 2)
    ∧ fill 1 = channel { e with zero := fieldNat w 0 12, underMargin := fieldNat w 16 8 }
    ∧ fill 2 = channel { e with span := fieldNat w 0 16, fullScale := fieldNat w 16 16 }
    ∧ fill 3 = channel { e with limits := { e.limits with t1 := fieldNat w 0 16, t2 := fieldNat w 16 16 } }
    ∧ fill 4 = channel { e with limits := { e.limits with t3 := fieldNat w 0 16, hyst := fieldNat w 16 12 } }
    ∧ fill 5 = channel { e with limits := { e.limits with rate := fieldNat w 0 16 }, staleTime := min 600 (fieldNat w 16 10) }
    ∧ fill 6 = channel { e with agreeLimit := fieldNat w 0 16, agreeTime := max 1 (min 600 (fieldNat w 16 10)) }
    ∧ fill 7 = c)
  ∧ (∀ (i : Fin 4) (w : Word) (c : Settings),
    let fill := fun k : Nat => takeSettings (0x340 + 16 * i.val + 4 * k) w c
    let cell := fun e : CellSet => { c with cells := c.cells.set i e }
    let e := c.cells[i]
    let selector := fun lo : Nat => ({
        index := Fin.ofNat 32 (fieldNat w lo 5), n := Fin.ofNat 4 (fieldNat w (lo + 5) 2),
        code := Fin.ofNat 16 (fieldNat w (lo + 8) 4), invert := bitOf w (lo + 15) } : Selector)
    (∃ mode : CellMode,
      fill 0 = cell { e with
          enabled := bitOf w 0, mode := mode, outputInvert := bitOf w 4, evacuateOnTrip := bitOf w 5, confirmRequired := bitOf w 6,
          confirmTimeout := fieldNat w 8 8 }
      ∧ (fieldNat w 1 3 = 0 ∨ 6 ≤ fieldNat w 1 3 → mode = .any) ∧ (fieldNat w 1 3 = 1 → mode = .all)
      ∧ (fieldNat w 1 3 = 2 → mode = .twoOfFour) ∧ (fieldNat w 1 3 = 3 → mode = .threeOfFour)
      ∧ (fieldNat w 1 3 = 4 → mode = .pairsEither) ∧ (fieldNat w 1 3 = 5 → mode = .pairsBoth))
    ∧ fill 1 = cell { e with inputs := #v[selector 0, selector 16, e.inputs[2], e.inputs[3]] }
    ∧ fill 2 = cell { e with inputs := #v[e.inputs[0], e.inputs[1], selector 0, selector 16] }
    ∧ fill 3 = c)
  ∧ (∀ (n : Fin 8) (w : Word) (c : Settings), ∃ fn : LineFn,
    takeSettings (0x380 + 4 * n.val) w c = { c with lines := c.lines.set n { fn := fn, invert := bitOf w 8 } }
    ∧ (fieldNat w 0 4 = 0 ∨ 6 ≤ fieldNat w 0 4 → fn = .none)
    ∧ (fieldNat w 0 4 = 1 → fn = .tripOut (Fin.ofNat 4 (fieldNat w 4 2)))
    ∧ (fieldNat w 0 4 = 2 → fn = .confirmIn (Fin.ofNat 4 (fieldNat w 4 2)))
    ∧ (fieldNat w 0 4 = 3 → fn = .beacon) ∧ (fieldNat w 0 4 = 4 → fn = .siren) ∧ (fieldNat w 0 4 = 5 → fn = .attention))
  ∧ (∀ (i : Fin 16) (w : Word) (c : Settings),
    let fill := fun k : Nat => takeSettings (0x3A0 + 16 * i.val + 4 * k) w c
    let segment := fun g : SegmentSet => { c with segments := c.segments.set i g }
    let g := c.segments[i]
    fill 0 = segment { g with id := bits w 0 16, controlled := bitOf w 16, convoy := max 1 (min 4 (fieldNat w 17 3)) }
    ∧ fill 1 = segment { g with gate := bits w 0 24 }
    ∧ fill 2 = segment { g with grantTime := min 600 (fieldNat w 0 10) }
    ∧ fill 3 = c)
  ∧ (∀ (i : Fin 4) (w : Word) (c : Settings),
    let fill := fun k : Nat => takeSettings (0x4A0 + 16 * i.val + 4 * k) w c
    let chamber := fun h : ChamberSet => { c with chambers := c.chambers.set i h }
    let h := c.chambers[i]
    fill 0 = chamber { h with id := bits w 0 16, capacity := max 1 (min 20 (fieldNat w 16 5)) }
    ∧ fill 1 = chamber { h with silenceTime := min 600 (fieldNat w 0 10), airlockLimit := min 600 (fieldNat w 16 10) }
    ∧ fill 2 = chamber { h with
        o2 := if bitOf w 7 then some (Fin.ofNat 32 (fieldNat w 0 5)) else none,
        co := if bitOf w 15 then some (Fin.ofNat 32 (fieldNat w 8 5)) else none }
    ∧ fill 3 = c)
  ∧ (∀ (k : Fin 12) (w : Word) (c : Settings), ∃ escalation : Escalation,
    takeSettings (0x4E0 + 4 * k.val) w c =
      { c with faults := c.faults.set k { logOff := bitOf w 0, escalation := escalation } }
    ∧ (fieldNat w 4 3 = 0 ∨ 4 ≤ fieldNat w 4 3 → escalation = .default) ∧ (fieldNat w 4 3 = 1 → escalation = .none)
    ∧ (fieldNat w 4 3 = 2 → escalation = .alert) ∧ (fieldNat w 4 3 = 3 → escalation = .evacuate))
  ∧ (∀ (i : Fin 24) (w : Word) (g : Staged),
    let fill := fun k : Nat => takeStaged (0x600 + 16 * i.val + 4 * k) w g
    let channel := fun t : Thresholds => { g with channels := g.channels.set i t }
    let t := g.channels[i]
    fill 0 = channel { t with t1 := fieldNat w 0 16, t2 := fieldNat w 16 16 }
    ∧ fill 1 = channel { t with t3 := fieldNat w 0 16, hyst := fieldNat w 16 12 }
    ∧ fill 2 = channel { t with rate := fieldNat w 0 16 } ∧ fill 3 = g
    ∧ takeStaged 0x780 w g = { g with rateWindow := min 60 (fieldNat w 0 8) }
    ∧ takeStaged 0x784 w g = { g with repeatPeriod := max 1 (min 60 (fieldNat w 0 8)) }
    ∧ takeStaged 0x788 w g = { g with patrol := min 60 (fieldNat w 0 8) })
  ∧ (∀ (addr : Addr) (data : Word) (s : State),
    s.run = true → fullWordAccess addr 0xF = true → regionAt s (wordBase addr.toNat) = some (.events, 4) →
    ∃ t, exec (.consumeIndexWrite addr data) s = .next t ∧
      (let w := data.setWidth 16
       let d := (w - s.fault.consume).toNat
       (d ≤ occupancy s.fault → t.fault.consume = w)
       ∧ (occupancy s.fault < d → d < 32768 → t.fault.consume = s.fault.produce)
       ∧ (occupancy s.fault < d → 32768 ≤ d → t.fault.consume = s.fault.consume))
      ∧ t.fault.patrol = s.fault.patrol ∧ t.drive = lineDrives t
      ∧ SameBut [.fault] s t)

/-- What an event hands on enters the own-write queue (R176, R71, R25, R123, R164). Of APPLY_ADJUSTMENT 0xFF, from a settled state
with room and no entry for these words: the four words of the record in place, the produce index, the outcome word last; with an
entry for the produce index queued, the new index is the follow-up value instead. Of a CALL_CLOSE: the record's words, the produce
index, then the call's report words whose value the event changed. At an occupancy of 64 a record is one EVENT_LOST and nothing of
it is queued. A report word that an event changed, or that is named whatever its value, has an entry with its value after it enters;
one left as it was, with no entry, gets none. One that the event has queued already is queued again where its value has changed since;
with its value unchanged it is not queued again, even where a stall has drained its entry. The 2 bits of the CALL_CLOSED reason are log
entry 17's (DEDUCED); which report words enter and enter again, and that they stand behind the record, is log entry 20's (DEDUCED), their
order among themselves log entry 38's (DESIGN CHOICE). -/
def Obligations.EventRecordsAndReportWordsQueued : Prop :=
  (∀ (tag : BitVec 8) (s : State),
    s.run = true → s.level.level ≠ .evacuate → Settled s → occupancy s.fault ≠ 0 → occupancy s.fault ≠ 64 →
    let outcome : OwnWrite :=
      { addr := settingAddr s 0xF04, data := outcomeWord (requestWord 6 tag 0xFF) outDone 0, kind := .coalescing }
    let words := recordWords s 0x03 0xFF 0
    let index := produceWrite s
    ((s.path.queue ++ words ++ [outcome]).map (·.addr)).Nodup → s.path.queue.length + 6 ≤ 32 →
    ∃ t, exec (.applyAdjustment tag 0xFF) s = .next t ∧
      t.fault.produce = s.fault.produce + 1
      ∧ (((s.path.queue ++ words ++ [index, outcome]).map (·.addr)).Nodup → s.path.followUp = none →
          t.path.queue = s.path.queue ++ words ++ [index, outcome] ∧ t.path.followUp = none)
      ∧ (queued s.path.queue (eventsAddr s 0) = true →
          t.path.queue = s.path.queue ++ words ++ [outcome] ∧ t.path.followUp = some index.data))
  ∧ (∀ (call : CallId) (p : Fin 8) (c : Call) (s : State),
    s.run = true → call ≠ 0 → callPosition s call = some p → s.call.table[p] = some c → Settled s →
    s.path.followUp = none → occupancy s.fault ≠ 0 → occupancy s.fault ≠ 64 →
    let record := recordWords s 0x2A call.toNat (detail [(2, 1), (2, Priority.code c.priority)]) ++ [produceWrite s]
    ((s.path.queue ++ record).map (·.addr) ++ (callWords p).map (reportAddr s)).Nodup → s.path.queue.length + 10 ≤ 32 →
    ∃ t, exec (.callClose call) s = .next t ∧
      t.fault.produce = s.fault.produce + 1
      ∧ t.path.queue = s.path.queue ++ record
          ++ ((callWords p).filter (fun o => mirror s o != mirror t o)).map
              (fun o => { addr := reportAddr s o, data := mirror t o, kind := .coalescing }))
  ∧ (∀ (kind subject : Nat) (info : Word) (s : State), s.run = true → occupancy s.fault = 64 →
    let t := addRecord kind subject info s
    t.fault.produce = s.fault.produce ∧ t.fault.counters[7] = saturate countTop s.fault.counters[7]
      ∧ (s.fault.log = none → s.effective.faults[7].logOff = false →
          t.fault.log = some { kind := .eventLost, ident := .own 10 (word kind) 0, time := s.time, further := 0 })
      ∧ t.path.queue = s.path.queue
      ∧ ∃ offsets, t.path.posts = s.path.posts ++ List.map Post.changed offsets)
  ∧ (∀ (o : Nat) (s0 s : State),
    (s.path.shown.lookup o = none →
      (mirror s0 o ≠ mirror s o ∨ queued s.path.queue (reportAddr s o) = true →
        ∃ w ∈ (enterPost s0 (.changed o) s).path.queue, w.addr = reportAddr s o ∧ w.data = mirror s o)
      ∧ (mirror s0 o = mirror s o → queued s.path.queue (reportAddr s o) = false → enterPost s0 (.changed o) s = s)
      ∧ ∃ w ∈ (enterPost s0 (.always o) s).path.queue, w.addr = reportAddr s o ∧ w.data = mirror s o)
    ∧ (∀ v : Word, s.path.shown.lookup o = some v →
      (v ≠ mirror s o → ∀ p ∈ [Post.changed o, Post.always o],
        ∃ w ∈ (enterPost s0 p s).path.queue, w.addr = reportAddr s o ∧ w.data = mirror s o)
      ∧ (v = mirror s o → queued s.path.queue (reportAddr s o) = false → ∀ p ∈ [Post.changed o, Post.always o],
        enterPost s0 p s = s))
    ∧ (mirror s0 o ≠ mirror s o → (enterPost s0 (.changed o) s).path.shown.lookup o = some (mirror s o))
    ∧ (enterPost s0 (.always o) s).path.shown.lookup o = some (mirror s o))

/-- A reading whose sequence is the channel's last sequence is DUPLICATE and changes no channel; with the last sequence absent no
reading is DUPLICATE (R4). A write with no channel for its input is NOT_USED (R3). Only the word in memory changes. -/
def Obligations.RepeatedReadingsChangeNothing : Prop :=
  ∀ (addr : Addr) (data : Word) (o : Nat) (s : State),
    s.run = true → fullWordAccess addr 0xF = true → regionAt s (wordBase addr.toNat) = some (.rawAir, o) →
    (∀ i : Fin 24, channelOf s (.localInput (Fin.ofNat 16 (o / 4))) = some i →
      s.channels[i].seq = some (bits data 12 4) →
      ∃ t, exec (.rawAirWrite addr data) s = .next t ∧
        t = { s with mem := memWriteWord s.mem (wordBase addr.toNat) (withVerdict .duplicate data) })
    ∧ (∀ i : Fin 24, channelOf s (.localInput (Fin.ofNat 16 (o / 4))) = some i → s.channels[i].seq = none →
      rawVerdict s (Fin.ofNat 16 (o / 4)) data ≠ .duplicate)
    ∧ (channelOf s (.localInput (Fin.ofNat 16 (o / 4))) = none →
      ∃ t, exec (.rawAirWrite addr data) s = .next t ∧
        t = { s with mem := memWriteWord s.mem (wordBase addr.toNat) (withVerdict .notUsed data) })

/-- A reading that is not DUPLICATE (R5 to R7, R9, R10, R12, R13, R15, R16): its verdict, FE_FAULT by the front-end fault flag, else
SATURATED by the raw code 4,095, else UNDER by a raw code less zero below minus the under margin, else TAKEN; the channel's
bookkeeping; a TAKEN reading calibrated, averaged and graded; an invalid one holding the average and adding its fault; the live grade
the greatest of its three sources and the latched grade following its rise. Partner agreement (R23) at a TAKEN reading: with both
averages seen and the partner not STALE, the disagreement start and DISAGREE of both; otherwise they stay; the agreement limit and time
are those of the channel read (log entry 30). No channel but this one and its partner changes. -/
def Obligations.ReadingTaken : Prop :=
  ∀ (addr : Addr) (data : Word) (o : Nat) (i : Fin 24) (s : State),
    s.run = true → fullWordAccess addr 0xF = true → regionAt s (wordBase addr.toNat) = some (.rawAir, o) →
    channelOf s (.localInput (Fin.ofNat 16 (o / 4))) = some i → s.channels[i].seq ≠ some (bits data 12 4) →
    ∃ t, exec (.rawAirWrite addr data) s = .next t ∧
      (let set := s.effective.channels[i]
       let a := s.channels[i]
       let b := t.channels[i]
       let r := bits data 0 12
       let v := readingVerdict set a r (bits data 12 4) (bitOf data 16)
       let limits := a.waiting.getD a.limits
       (bitOf data 16 = true → v = .feFault)
       ∧ (bitOf data 16 = false → r = 4095 → v = .saturated)
       ∧ (bitOf data 16 = false → r ≠ 4095 → (r.toNat : Int) - set.zero < -(set.underMargin : Int) → v = .under)
       ∧ (bitOf data 16 = false → r ≠ 4095 → -(set.underMargin : Int) ≤ (r.toNat : Int) - set.zero → v = .taken)
       ∧ b.seq = some (bits data 12 4) ∧ b.raw = some r ∧ b.waiting = none ∧ b.limits = limits
       ∧ b.stale = Timer.start set.staleTime ∧ b.faults.stale = false ∧ b.rising = a.rising
       ∧ (v = .taken →
          b.faults.fe = false ∧ b.faults.under = false ∧ b.faults.saturated = false
          ∧ b.last = calibrate set r ∧ b.seen = true
          ∧ b.a16 = (if a.seen = false ∨ set.shift = 0 then 16 * calibrate set r
              else ((a.a16 : Int) + (16 * (calibrate set r : Int) - a.a16) / 2 ^ set.shift).toNat)
          ∧ b.windowStart = (if a.seen then a.windowStart else average b)
          ∧ b.computed = computedGrade set.falling limits (average b) a.computed)
       ∧ (v ≠ .taken →
          b.a16 = a.a16 ∧ b.last = a.last ∧ b.seen = a.seen ∧ b.windowStart = a.windowStart ∧ b.computed = a.computed
          ∧ b.faults.fe = (a.faults.fe || v == .feFault) ∧ b.faults.saturated = (a.faults.saturated || v == .saturated)
          ∧ b.faults.under = (a.faults.under || v == .under)
          ∧ b.faults.disagree = a.faults.disagree ∧ b.disagreeStart = a.disagreeStart)
       ∧ Grade.code b.live = max (Grade.code b.computed)
            (max (if b.rising then 1 else 0) (if hasFault b.faults then Grade.code set.faultGrade else 0))
       ∧ Grade.code b.latched = max (Grade.code a.latched) (Grade.code b.live)
       ∧ (v = .taken → partnerOf s i = none →
          b.faults.disagree = a.faults.disagree ∧ b.disagreeStart = a.disagreeStart)
       ∧ (∀ k : Fin 24, v = .taken → partnerOf s i = some k → k ≠ i →
          (let q := s.channels[k]
           let p := t.channels[k]
           let apart := max (average b) (average q) - min (average b) (average q)
           let start := a.disagreeStart.getD s.time
           let late := decide (set.agreeTime * 1000 ≤ (s.time - start).toNat)
           let judged := q.seen = true ∧ q.faults.stale = false
           (¬judged → p = q ∧ b.faults.disagree = a.faults.disagree ∧ b.disagreeStart = a.disagreeStart)
           ∧ (judged → set.agreeLimit < apart →
              b.disagreeStart = some start ∧ p.disagreeStart = some start
              ∧ b.faults.disagree = (late || a.faults.disagree)
              ∧ p.faults = { q.faults with disagree := late || q.faults.disagree })
           ∧ (judged → apart ≤ set.agreeLimit →
              b.disagreeStart = none ∧ p.disagreeStart = none ∧ b.faults.disagree = false
              ∧ p.faults = { q.faults with disagree := false })
           ∧ p = { q with disagreeStart := p.disagreeStart, faults := p.faults, live := p.live, latched := p.latched }
           ∧ (p.faults.disagree = q.faults.disagree → p.live = q.live ∧ p.latched = q.latched)
           ∧ (p.faults.disagree ≠ q.faults.disagree →
              Grade.code p.live = max (Grade.code q.computed) (max (if q.rising then 1 else 0)
                (if hasFault p.faults then Grade.code s.effective.channels[k].faultGrade else 0))
              ∧ Grade.code p.latched = max (Grade.code q.latched) (Grade.code p.live))))
       ∧ (v ≠ .taken → ∀ k : Fin 24, k ≠ i → t.channels[k] = s.channels[k])
       ∧ (∀ k : Fin 24, k ≠ i → partnerOf s i ≠ some k → t.channels[k] = s.channels[k]))
      ∧ t.rate = s.rate
      ∧ SameBut [.air, .trip, .level, .refuge, .fault] s t

/-- Calibration (R9): x is bounded, v is the nearest integer to x / 4,096 with halves going up, clamped to 0 and full scale, and
stored as the last value; a span of 0 and a code below zero give 0. -/
def Obligations.CalibrationRounds : Prop :=
  ∀ (set : ChannelSet) (r : BitVec 12) (c : Channel), set.zero ≤ 4095 → set.span ≤ 65535 → r.toNat ≤ 4094 →
    let x : Int := ((r.toNat : Int) - set.zero) * set.span
    (-268431360 ≤ x ∧ x ≤ 268431360)
    ∧ (∃ v : Int, 4096 * v ≤ x + 2048 ∧ x + 2048 < 4096 * (v + 1)
        ∧ (v < 0 → calibrate set r = 0) ∧ (0 ≤ v → (set.fullScale : Int) < v → calibrate set r = set.fullScale)
        ∧ (0 ≤ v → v ≤ set.fullScale → (calibrate set r : Int) = v))
    ∧ (set.span = 0 → calibrate set r = 0)
    ∧ (r.toNat < set.zero → set.zero ≤ r.toNat + set.underMargin →
        readingVerdict set { c with seq := none } r 0 false = .taken ∧ calibrate set r = 0)
    ∧ (storeValue set (calibrate set r) c).last = calibrate set r

/-- The settled average (R11) under a run of readings of one value: from above it reaches the value exactly; from below it stays
less than 2^k short, so that the reported average is the value, or one unit below it with k = 4. -/
def Obligations.AverageSettles : Prop :=
  ∀ (k v a : Nat) (c : Channel), k ≤ 4 → c.seen = true →
    let next := fun a16 => averaged k { c with a16 := a16 } v
    (16 * v ≤ a → ∃ n, ∀ m, n ≤ m → next^[m] a = 16 * v)
    ∧ (a ≤ 16 * v → ∃ n b, (∀ m, n ≤ m → next^[m] a = b) ∧ 16 * v ≤ b + (2 ^ k - 1) ∧ b ≤ 16 * v
        ∧ (k ≤ 3 → (b + 8) / 16 = v)
        ∧ (k = 4 → 16 * v < b + 9 → (b + 8) / 16 = v) ∧ (k = 4 → b + 9 ≤ 16 * v → (b + 8) / 16 = v - 1))
    ∧ (a ≤ 16 * v → 16 * v < a + 2 ^ k → next a = a ∨ k = 0)

/-- The computed grade (R12): it rises at once to the highest threshold reached; otherwise it falls to the highest grade, up to
the one before, whose threshold less the hysteresis the average still reaches. With no hysteresis it follows the thresholds. A
FALLING channel takes the same steps with the comparisons turned over, the threshold plus the hysteresis capped at 65,535 (R13); one
at a grade whose sum reaches the cap does not fall. -/
def Obligations.ComputedGradeFollowsThresholds : Prop :=
  ∀ (falling : Bool) (t : Thresholds) (avg : Nat) (before : Grade),
    let after := computedGrade falling t avg before
    let reached := fun g : Grade => g = .clear ∨ if falling then avg ≤ threshold t g else threshold t g ≤ avg
    let kept := fun g : Grade =>
      g = .clear ∨ if falling then avg ≤ min 65535 (threshold t g + t.hyst) else threshold t g - t.hyst ≤ avg
    (∀ up : Grade, Grade.code before < Grade.code up → reached up →
      (∀ g, reached g → Grade.code g ≤ Grade.code up) → after = up)
    ∧ ((∀ g, reached g → Grade.code g ≤ Grade.code before) →
      kept after ∧ Grade.code after ≤ Grade.code before
      ∧ ∀ g, Grade.code g ≤ Grade.code before → kept g → Grade.code g ≤ Grade.code after)
    ∧ (t.hyst = 0 → (falling = true → avg ≤ 65535) → reached after ∧ ∀ g, reached g → Grade.code g ≤ Grade.code after)
    ∧ (falling = true → avg ≤ 65535 → before ≠ .clear → 65535 ≤ threshold t before + t.hyst →
      Grade.code before ≤ Grade.code after)

/-- A write that the guards forbid (R66, R67) is recorded as one GUARD_WRITE, which an EMPTY log takes with the access as its
identifiers; a write that passes and is not taken, in RUN or in SETUP, changes memory alone (R65). -/
def Obligations.GuardedAndPlainWrites : Prop :=
  (∀ (init : Initiator) (addr : Addr) (lanes : BitVec 4) (data : Word) (k : RegionKind) (o : Nat) (s : State),
    s.run = true → regionAt s (wordBase addr.toNat) = some (k, o) → permitted s init k o = false →
    ∃ t, exec (.guardWrite init addr lanes data) s = .next t ∧
      t.fault.counters[0] = saturate countTop s.fault.counters[0]
      ∧ (∀ j : Fin 12, j ≠ 0 → j ≠ 6 → j ≠ 7 → j ≠ 11 → t.fault.counters[j] = s.fault.counters[j])
      ∧ (s.fault.log = none → s.effective.faults[0].logOff = false →
          ∃ further, t.fault.log = some
            { kind := .guardWrite, ident := .bus init addr data, time := s.time, further := further })
      ∧ t.fault.consume = s.fault.consume ∧ t.fault.patrol = s.fault.patrol
      ∧ SameBut [.fault] s t)
  ∧ (∀ (init : Initiator) (addr : Addr) (lanes : BitVec 4) (data : Word) (s : State),
    (s.run = true → regionAt s (wordBase addr.toNat) = none
      ∨ ∃ k o, regionAt s (wordBase addr.toNat) = some (k, o) ∧ permitted s init k o = true
          ∧ takenWord s init k o = none) →
    (s.run = false → init = .controller → fullWordAccess addr lanes = true →
      regionAt s (wordBase addr.toNat) = none) →
    ∃ t, exec (.plainWrite init addr lanes data) s = .next t ∧
      t = { s with mem := memWriteLanes s.mem (wordBase addr.toNat) lanes data })

/-- An accepted partial write on a word that the part takes (R68, R90): one PARTIAL_WRITE, the word not taken; a transmit slot, in the
PART ring too, becomes UNKNOWN, a header word uncaptured, and nothing else of the taking unit changes. -/
def Obligations.PartialWritesNotTaken : Prop :=
  ∀ (init : Initiator) (addr : Addr) (lanes : BitVec 4) (data : Word) (k : RegionKind) (o : Nat) (x : Taken) (s : State),
    s.run = true → fullWordAccess addr lanes = false → regionAt s (wordBase addr.toNat) = some (k, o) →
    permitted s init k o = true → takenWord s init k o = some x → QueueKept s →
    ∃ t, exec (.partialWrite init addr lanes data) s = .next t ∧
      t.fault.counters[1] = saturate countTop s.fault.counters[1]
      ∧ (∀ j : Fin 12, j ≠ 1 → j ≠ 6 → j ≠ 7 → j ≠ 11 → t.fault.counters[j] = s.fault.counters[j])
      ∧ t.fault.consume = s.fault.consume ∧ t.fault.patrol = s.fault.patrol
      ∧ (∀ n : Fin 64, (x = .txWord0 n ∨ x = .txWord2 n ∨ x = .txModem n) →
          t.ring.shadows[n] = { s.ring.shadows[n] with state := .unknown, shown := none })
      ∧ (∀ n : Fin 64, x ≠ .txWord0 n → x ≠ .txWord2 n → x ≠ .txModem n → SlotStays s n →
          t.ring.shadows[n] = s.ring.shadows[n])
      ∧ (∀ (b : Fin 32) (j : Fin 4), x = .header b j →
          t.frame = { s.frame with capture := s.frame.capture.set b (uncaptureWord j s.frame.capture[b]) })
      ∧ ((∀ b j, x ≠ .header b j) → t.frame = s.frame)
      ∧ SameBut [.frame, .fault] s t

/-! ## Reads -/

/-- CONTROLLER full-word reads of REPORT and of the CONTROL section in RUN (R27, R28): word A of a channel and the first log word
arm the record anew whatever it held; any other such read empties it and, unless it is the word that a target names, does
nothing else. Each returns the word as memory holds it. -/
def Obligations.ArmingReads : Prop :=
  (∀ (addr : Addr) (c : Fin 24) (s : State),
    s.run = true → fullWordAccess addr 0xF = true →
    regionAt s (wordBase addr.toNat) = some (.report, 0x040 + 8 * c.val) →
    ∃ t, exec (.channelArmingRead addr) s = .next t ∧
      (let w := memWord s.mem (wordBase addr.toNat)
       t = { s with
         readData := w, path := { s.path with arming := some { target := .channel c, shown := fieldNat w 0 2 } } }))
  ∧ (∀ (addr : Addr) (s : State),
    s.run = true → fullWordAccess addr 0xF = true → regionAt s (wordBase addr.toNat) = some (.report, 0x660) →
    ∃ t, exec (.logArmingRead addr) s = .next t ∧
      (let w := memWord s.mem (wordBase addr.toNat)
       t = { s with readData := w, path := { s.path with arming := some { target := .log, shown := fieldNat w 0 4 } } }))
  ∧ (∀ (addr : Addr) (k : RegionKind) (o : Nat) (s : State),
    s.run = true → fullWordAccess addr 0xF = true → regionAt s (wordBase addr.toNat) = some (k, o) →
    ((k = .report ∧ o ≠ 0x660 ∧ ¬(0x040 ≤ o ∧ o < 0x100 ∧ o % 8 = 0))
      ∨ (k = .setting ∧ 0xF00 ≤ o ∧ o < 0xF6C
        ∧ ∀ a, s.path.arming = some a → a.target ≠ .log ∨ o ≠ 0xF68)) →
    (k = .setting → ∀ a c, s.path.arming = some a → a.target = .channel c → o ≠ 0xF08 + 4 * c.val) →
    ∃ t, exec (.consumingRead addr) s = .next t ∧
      t = { s with readData := memWord s.mem (wordBase addr.toNat), path := { s.path with arming := none } })

/-- The consuming read of the target channel's ack word (R29, R30): with the shown grade equal to the held grade the latched
grade becomes the live grade; otherwise no channel changes. The record is emptied either way. -/
def Obligations.AcknowledgementJudged : Prop :=
  ∀ (c : Fin 24) (shown : Nat) (s : State),
    s.run = true → s.path.arming = some { target := .channel c, shown := shown } →
    ∃ t, exec (.ackWordRead c) s = .next t ∧
      t.path.arming = none ∧ t.readData = memWord s.mem (settingBase s.strap + 0xF08 + 4 * c.val)
      ∧ (shown = Grade.code (held s.channels[c]) →
          t.channels[c] = { s.channels[c] with latched := s.channels[c].live } ∧ held t.channels[c] = s.channels[c].live
          ∧ (∀ k : Fin 24, k ≠ c → t.channels[k] = s.channels[k]))
      ∧ (shown ≠ Grade.code (held s.channels[c]) → t.channels = s.channels ∧ SameBut [.readData, .path] s t)
      ∧ t.rate = s.rate ∧ t.path.scanCursor = s.path.scanCursor ∧ t.path.patrolCursor = s.path.patrolCursor
      ∧ SameBut [.readData, .air, .trip, .level, .refuge, .path] s t

/-- The release (R174): with the shown kind the current one the log is emptied, and holds afterwards at most a fault that the end
of this event recorded, and the fault alert latch is out of the ALERT cause set unless such a fault set it again; otherwise a held
fault and a standing latch stay. The counters are not touched by it. -/
def Obligations.ReleaseJudged : Prop :=
  ∀ (shown : Nat) (s : State), s.run = true → s.path.arming = some { target := .log, shown := shown } →
    ∃ t, exec .releaseWordRead s = .next t ∧
      t.path.arming = none ∧ t.readData = memWord s.mem (settingBase s.strap + 0xF68)
      ∧ (shown = currentKind s →
          t.fault.log = none
          ∨ ∃ e, t.fault.log = some e ∧ e.time = s.time
              ∧ (e.kind = .ownWriteStall ∨ e.kind = .eventLost ∨ e.kind = .frameDropped))
      ∧ (shown = currentKind s → escalation s .ownWriteStall ≠ .alert → escalation s .frameDropped ≠ .alert →
          AlertMember.latch ∉ t.level.alerts)
      ∧ (shown ≠ currentKind s → AlertMember.latch ∈ s.level.alerts → AlertMember.latch ∈ t.level.alerts)
      ∧ (shown ≠ currentKind s → ∀ e, s.fault.log = some e → ∃ further, t.fault.log = some { e with further := further })
      ∧ t.path.scanCursor = s.path.scanCursor ∧ t.path.patrolCursor = s.path.patrolCursor
      ∧ SameBut [.readData, .path] s t

/-! ## Descriptors and the modem -/

/-- CONTROLLER full-word writes of word 0 and word 2 of a slot outside the PART ring (R88, R89): the shadow by its state before
and the owner written; a SLOT_COLLISION, and no change, in flight; no change by word 0 before the scan has read the slot. -/
def Obligations.ControllerGivesSlots : Prop :=
  (∀ (addr : Addr) (data : Word) (n : Fin 64) (s : State),
    s.run = true → fullWordAccess addr 0xF = true → regionAt s (wordBase addr.toNat) = some (.txSlots, 16 * n.val) →
    ringStart s 1 ≤ n.val → QueueKept s →
    ∃ t, exec (.txWord0ControllerWrite addr data) s = .next t ∧
      (let h := s.ring.shadows[n]
       (h.scanned = false → t.ring.shadows[n] = h ∧ SameBut [] s t)
       ∧ (h.scanned = true → h.state = .inFlight → t.ring.shadows[n] = h
            ∧ t.fault.counters[2] = saturate countTop s.fault.counters[2])
       ∧ (h.scanned = true → h.state ≠ .inFlight →
            t.ring.shadows[n] = { h with
              state := if bitOf data 31 then .ready else .empty, length := bits data 0 11 }
            ∧ SameBut [] s t))
      ∧ (∀ m : Fin 64, m ≠ n → SlotStays s m → t.ring.shadows[m] = s.ring.shadows[m])
      ∧ SameBut [.fault] s t)
  ∧ (∀ (addr : Addr) (data : Word) (n : Fin 64) (s : State),
    s.run = true → fullWordAccess addr 0xF = true → regionAt s (wordBase addr.toNat) = some (.txSlots, 16 * n.val + 8) →
    ringStart s 1 ≤ n.val → QueueKept s →
    ∃ t, exec (.txWord2ControllerWrite addr data) s = .next t ∧
      (let h := s.ring.shadows[n]
       (h.state = .inFlight → t.ring.shadows[n] = h ∧ t.fault.counters[2] = saturate countTop s.fault.counters[2])
       ∧ (h.state ≠ .inFlight →
            t.ring.shadows[n] = { h with tag := bits data 0 8, dest := bits data 8 12, kind := bits data 20 8 }
            ∧ SameBut [] s t))
      ∧ (∀ m : Fin 64, m ≠ n → SlotStays s m → t.ring.shadows[m] = s.ring.shadows[m])
      ∧ SameBut [.fault] s t)

/-- The decision on a MODEM full-word read of transmit word 0 in RUN, case by case in the order of R83, with BAD_FRAME recorded
in case 6a. -/
def Obligations.ModemReadDecision : Prop :=
  (∀ (n : Fin 64) (s : State), s.run = true →
    let h := s.ring.shadows[n]
    let r := ringOf s n.val
    let callHeld := s.call.table.toList.any (fun c => match c with | some c => c.id == h.tag | none => false)
    (s.path.scanCursor < 64 → modemAnswer s n = .hold)
    ∧ (64 ≤ s.path.scanCursor → s.ring.rings[r].next ≠ some n → modemAnswer s n = .hold)
    ∧ (64 ≤ s.path.scanCursor → s.ring.rings[r].next = some n →
        (h.state = .empty → modemAnswer s n = .empty)
        ∧ (h.state = .unknown → modemAnswer s n = .hold)
        ∧ (h.state = .inFlight → modemAnswer s n = .again)
        ∧ (h.state = .ready → h.length = 0 → modemAnswer s n = .discard true)
        ∧ (h.state = .ready → h.length ≠ 0 →
            (r ≠ 0 → h.tag ≠ 0 → callHeld = false → modemAnswer s n = .discard false)
            ∧ (r = 0 → n.val < 16 →
                (∀ f, s.ring.records[Fin.ofNat 16 n.val] = some f → f.withdrawn = true) →
                modemAnswer s n = .discard false)
            ∧ ((r ≠ 0 ∧ (h.tag = 0 ∨ callHeld = true)
                ∨ r = 0 ∧ n.val < 16 ∧ ∃ f, s.ring.records[Fin.ofNat 16 n.val] = some f ∧ f.withdrawn = false) →
                (r = 3 → s.level.level = .evacuate → modemAnswer s n = .hold)
                ∧ (¬(r = 3 ∧ s.level.level = .evacuate) →
                    (∃ k : Fin 4, k.val < r.val ∧ ∃ m, s.ring.rings[k].next = some m
                      ∧ s.ring.shadows[m].state = .ready) → modemAnswer s n = .hold)
                ∧ (¬(r = 3 ∧ s.level.level = .evacuate) →
                    (∀ k : Fin 4, k.val < r.val → ∀ m, s.ring.rings[k].next = some m →
                      s.ring.shadows[m].state ≠ .ready) → modemAnswer s n = .present)))))
  ∧ (∀ (addr : Addr) (n : Fin 64) (s : State),
    s.run = true → fullWordAccess addr 0xF = true → regionAt s (wordBase addr.toNat) = some (.txSlots, 16 * n.val) →
    modemAnswer s n = .discard true →
    ∃ t, exec (.modemTxRead addr) s = .next t ∧ t.fault.counters[5] = saturate countTop s.fault.counters[5])

/-- What a MODEM read of transmit word 0 in RUN returns and leaves (R84): the owner and discard of the answer, the rest of the
word as memory holds it, the ring record, and the shadow, in the PART ring of a slot that is not EMPTY and whose word 0 has drained. A
partial read shows owner and discard 0 where their lane is active and changes nothing. That a slot newly shown holds no frame of a call
that has left is said of a flag of the model's own, ring.departed (log entry 37, DEDUCED). -/
def Obligations.ModemReadRewritten : Prop :=
  (∀ (addr : Addr) (n : Fin 64) (s : State),
    s.run = true → fullWordAccess addr 0xF = true → regionAt s (wordBase addr.toNat) = some (.txSlots, 16 * n.val) →
    QueueKept s →
    ∃ t, exec (.modemTxRead addr) s = .next t ∧
      (let w := memWord s.mem (wordBase addr.toNat)
       let h := s.ring.shadows[n]
       let r := ringOf s n.val
       let a := modemAnswer s n
       t.readData.extractLsb' 0 30 = w.extractLsb' 0 30
       ∧ bitOf t.readData 31 = (a != .hold && a != .empty)
       ∧ bitOf t.readData 30 = (a == .discard true || a == .discard false || (a == .again && h.shown == some .discard))
       ∧ t.ring.rings[r].held = (if a = .hold then saturate countTop s.ring.rings[r].held else s.ring.rings[r].held)
       ∧ t.ring.rings[r].discards = (if a = .discard true ∨ a = .discard false then
            saturate countTop s.ring.rings[r].discards else s.ring.rings[r].discards)
       ∧ t.ring.rings[r].lastShown = (if a = .present then
            some { slot := n, tag := h.tag, kind := h.kind, dest := h.dest } else s.ring.rings[r].lastShown)
       ∧ t.ring.rings[r].next = s.ring.rings[r].next ∧ t.ring.rings[r].failed = s.ring.rings[r].failed
       ∧ (∀ k : Fin 4, k ≠ r → t.ring.rings[k] = s.ring.rings[k])
       ∧ (SlotStays s n → t.ring.shadows[n] =
            match a with
            | .hold | .empty | .again => h
            | .present => { h with state := .inFlight, shown := some .owned }
            | .discard _ => { h with state := .inFlight, shown := some .discard })
       ∧ (∀ m : Fin 64, m ≠ n → SlotStays s m → t.ring.shadows[m] = s.ring.shadows[m])
       ∧ (t.ring.departed[n] = (s.ring.departed[n] && !(a == .present || a == .discard true || a == .discard false)))
       ∧ (∀ m : Fin 64, m ≠ n → t.ring.departed[m] = s.ring.departed[m]))
      ∧ SameBut [.readData, .ring, .fault] s t)
  ∧ (∀ (addr : Addr) (lanes : BitVec 4) (n : Fin 64) (s : State),
    s.run = true → fullWordAccess addr lanes = false → regionAt s (wordBase addr.toNat) = some (.txSlots, 16 * n.val) →
    ∃ t, exec (.modemTxPartialRead addr lanes) s = .next t ∧
      (let w := memWord s.mem (wordBase addr.toNat)
       t = { s with readData := if bitOf lanes 3 then withOwner false false w else w }))

/-- A MODEM full-word write of transmit word 0 in RUN (R86, R87, R119, R123): the completion of an IN_FLIGHT head empties its shadow,
moves the ring on, counts a failed frame and, in mode FROM_ANY, is an activity of the tagged call and of no other, but not where no
entry holds the tag, nor where the frame's call has left while the frame was IN_FLIGHT; any other is a stray, which is recorded and
changes no slot and no ring. A completion in the PART ring frees the slot's frame record and serves the list (R86 step 3, R95): from a
settled state with room in the queue, the slot stays EMPTY and free where it is not the fill index or nothing waits, and otherwise
takes the first waiting frame, whose seven own-writes enter first. That a frame's call has left is told by ring.departed, a flag of the
model's own (log entry 37, DEDUCED), which is unsafe for a frame shown DISCARD before the new call. -/
def Obligations.ModemWritebackJudged : Prop :=
  ∀ (addr : Addr) (data : Word) (n : Fin 64) (s : State),
    s.run = true → fullWordAccess addr 0xF = true → regionAt s (wordBase addr.toNat) = some (.txSlots, 16 * n.val) →
    QueueKept s →
    ∃ t, exec (.modemTxWriteback addr data) s = .next t ∧
      (let h := s.ring.shadows[n]
       let r := ringOf s n.val
       let status := (data.extractLsb' 28 2).toNat
       (isCompletion s n = true →
          t.ring.rings[r].next = some (slotAfter s n.val)
          ∧ t.ring.rings[r].failed = (if status = 3 then saturate countTop s.ring.rings[r].failed
              else s.ring.rings[r].failed)
          ∧ t.ring.rings[r].held = s.ring.rings[r].held ∧ t.ring.rings[r].discards = s.ring.rings[r].discards
          ∧ (∀ k : Fin 4, k ≠ r → t.ring.rings[k] = s.ring.rings[k])
          ∧ (ringStart s 1 ≤ n.val → t.ring.shadows[n] = { h with state := .empty, shown := none })
          ∧ (n.val < ringStart s 1 → Settled s → s.path.queue.length + 13 ≤ 32 →
              let i : Fin 16 := Fin.ofNat 16 n.val
              (s.ring.fill ≠ i ∨ s.ring.list = [] →
                t.ring.shadows[n] = { h with state := .empty, shown := none }
                ∧ t.ring.records = s.ring.records.set i none ∧ t.ring.list = s.ring.list ∧ t.ring.seq = s.ring.seq)
              ∧ (∀ f rest, s.ring.fill = i → s.ring.list = f :: rest → s.path.scanCursor = 64 →
                t.ring.shadows[n] = { h with
                  state := .empty, shown := none, tag := 0, dest := 4095, kind := BitVec.ofNat 8 (PartFrame.code f) }
                ∧ t.ring.records = s.ring.records.set i (some { frame := f, seq := s.ring.seq + 1, withdrawn := false })
                ∧ t.ring.list = rest ∧ t.ring.seq = s.ring.seq + 1
                ∧ (((s.path.queue ++ builtWrites s f).map (·.addr) ++ (fillWords s).map (reportAddr s)).Nodup →
                  ∃ words, t.path.queue = s.path.queue ++ builtWrites s f ++ words)))
          ∧ (∀ p c, status = 1 → h.tag ≠ 0 → (r = 1 ∨ r = 2) → s.effective.node.silenceAny = true →
              s.ring.departed[n] = false → callPosition s h.tag = some p → s.call.table[p] = some c →
              let active : Call := { c with last := s.time, silence := Timer.start s.effective.node.silenceTime }
              t.call = { s.call with table := s.call.table.set p (some active) })
          ∧ (callPosition s h.tag = none → t.call = s.call)
          ∧ (¬(status = 1 ∧ h.tag ≠ 0 ∧ (r = 1 ∨ r = 2) ∧ s.effective.node.silenceAny = true ∧ s.ring.departed[n] = false) →
              t.call = s.call)
          ∧ t.ring.departed = s.ring.departed
          ∧ SameBut [.ring, .call] s t)
       ∧ (isCompletion s n = false →
          t.fault.counters[3] = saturate countTop s.fault.counters[3]
          ∧ (SlotStays s n → t.ring.shadows[n] = h)
          ∧ SameBut [.fault] s t)
       ∧ (∀ m : Fin 64, m ≠ n → SlotStays s m → t.ring.shadows[m] = s.ring.shadows[m]))

/-- The receive path in RUN: a MODEM full-word write into a buffer's first 16 bytes is captured (R101); a write of receive word 0
with owner 1 changes memory alone (R103); one with owner 0 is judged in the order of R102 and R105, and empties the entry. What the
header words parse as is said kind by kind (R105 tests 2 to 5, R106, R107, R109, R181): a kind that is not parsed, an undefined origin or
field, a chamber that is not in the table, or the frame with the fields handed on, an unknown segment as 0. That a dispatched frame
stands in a place for one frame until its row or the next completion takes it is the model's choice (log entry 12): where one still
waits, the completion is judged in the state in which its receiving unit has taken it. -/
def Obligations.ReceivePathJudged : Prop :=
  (∀ (addr : Addr) (data : Word) (o : Nat) (s : State),
    s.run = true → fullWordAccess addr 0xF = true → regionAt s (wordBase addr.toNat) = some (.rxBuffers, o) →
    o % 256 < 16 →
    ∃ t, exec (.headerCaptureWrite addr data) s = .next t ∧
      (let b : Fin 32 := Fin.ofNat 32 (o / 256)
       let c := s.frame.capture[b]
       let entry : Capture :=
         if o % 256 < 4 then { h0 := some data } else if o % 256 < 8 then { c with h1 := some data }
         else if o % 256 < 12 then { c with h2 := some data } else { c with h3 := some data }
       t = { s with
         mem := memWriteWord s.mem (wordBase addr.toNat) data,
         frame := { s.frame with capture := s.frame.capture.set b entry } }))
  ∧ (∀ (addr : Addr) (data : Word) (i : Fin 32) (s : State),
    s.run = true → fullWordAccess addr 0xF = true → regionAt s (wordBase addr.toNat) = some (.rxSlots, 16 * i.val) →
    bitOf data 31 = true →
    ∃ t, exec (.receiveCompletion addr data) s = .next t ∧
      t = { s with mem := memWriteWord s.mem (wordBase addr.toNat) data })
  ∧ (∀ (addr : Addr) (data : Word) (i : Fin 32) (s : State),
    s.run = true → fullWordAccess addr 0xF = true → regionAt s (wordBase addr.toNat) = some (.rxSlots, 16 * i.val) →
    bitOf data 31 = false → s.frame.handover = none →
    ∃ t, exec (.receiveCompletion addr data) s = .next t ∧
      (let status := (data.extractLsb' 28 2).toNat
       let length := (data.extractLsb' 0 9).toNat
       let emptied := { s.frame with capture := s.frame.capture.set i {} }
       (status ≠ 0 → t.frame = { emptied with badCheck := saturate countTop s.frame.badCheck } ∧ SameBut [.frame] s t)
       ∧ (status = 0 → (fullHeader s.frame.capture[i] = none ∨ length < 16) →
            t.frame = emptied ∧ t.fault.counters[4] = saturate countTop s.fault.counters[4])
       ∧ (∀ h, status = 0 → fullHeader s.frame.capture[i] = some h → 256 < length →
            t.frame = emptied ∧ t.fault.counters[5] = saturate countTop s.fault.counters[5])
       ∧ (∀ h, status = 0 → fullHeader s.frame.capture[i] = some h → 16 ≤ length → length ≤ 256 →
            (Header.origin h = s.effective.node.nodeId →
              t.frame = { emptied with ignored := saturate countTop s.frame.ignored })
            ∧ (Header.origin h ≠ s.effective.node.nodeId →
              match parseFields s h with
              | .notParsed | .unknownObject => t.frame = { emptied with ignored := saturate countTop s.frame.ignored }
              | .undefinedField =>
                t.frame = emptied ∧ t.fault.counters[5] = saturate countTop s.fault.counters[5]
              | .frame f =>
                t.frame = { emptied with
                  dispatched := saturate countTop s.frame.dispatched, handover := some f,
                  last := some { slot := i, kind := h.h0.extractLsb' 24 8, origin := Header.origin h,
                                 seq := Header.seq h } }
                ∧ SameBut [.frame] s t)))
      ∧ SameBut [.frame, .fault] s t)
  ∧ (∀ (addr : Addr) (data : Word) (i : Fin 32) (f : Frame) (s : State),
    s.run = true → fullWordAccess addr 0xF = true → regionAt s (wordBase addr.toNat) = some (.rxSlots, 16 * i.val) →
    bitOf data 31 = false → s.frame.handover = some f → Frame.defined f = true →
    ∃ t, exec (.receiveCompletion addr data) s = .next t ∧
      exec (.receiveCompletion addr data) (takeHandover s) = .next t
      ∧ (takeHandover s).frame.handover = none ∧ (takeHandover s).run = true
      ∧ regionAt (takeHandover s) (wordBase addr.toNat) = some (.rxSlots, 16 * i.val))
  ∧ (∀ (c : Capture) (h : Header),
    fullHeader c = some h ↔ c.h0 = some h.h0 ∧ c.h1 = some h.h1 ∧ c.h2 = some h.h2 ∧ c.h3 = some h.h3)
  ∧ (∀ (h : Header) (s : State),
    let kinds := [0x01, 0x02, 0x03, 0x04, 0x05, 0x06, 0x07, 0x08, 0x10, 0x11]
    let kind := fieldNat h.h0 24 8
    let origin : NodeId := bits h.h0 8 12
    let parse := parseFields s h
    let segment := fun id : Id => if ∃ i : Fin 16, s.effective.segments[i].id = id then id else 0
    let names := fun (id : Id) (c : Fin 4) =>
      s.effective.chambers[c].id = id ∧ ∀ d : Fin 4, d < c → s.effective.chambers[d].id ≠ id
    let unknown := fun id : Id => ∀ c : Fin 4, s.effective.chambers[c].id ≠ id
    Header.origin h = origin ∧ Header.seq h = bits h.h0 0 8
    ∧ (kind ∉ kinds → parse = .notParsed)
    ∧ (kind ∈ kinds → origin = 0 ∨ origin = 4095 → parse = .undefinedField)
    ∧ (origin ≠ 0 → origin ≠ 4095 →
      (kind = 0x01 →
        let truck : Id := bits h.h1 0 16
        (truck = 0 ∨ fieldNat h.h1 16 2 ∉ [1, 2] ∨ fieldNat h.h1 18 2 ∉ [1, 2] → parse = .undefinedField)
        ∧ ∀ (power : Power) (heading : Heading), truck ≠ 0 →
          fieldNat h.h1 16 2 = (match power with | .diesel => 1 | .electric => 2) →
          fieldNat h.h1 18 2 = (match heading with | .inbye => 1 | .outbye => 2) →
          parse = .frame (.truckBeacon truck power heading origin (segment (bits h.h2 0 16)) (segment (bits h.h2 16 16))))
      ∧ (kind = 0x02 →
        let call : CallId := bits h.h1 0 8
        let miner : Id := bits h.h1 8 16
        let code := fieldNat h.h1 24 2
        let chamber : Id := bits h.h2 0 16
        (call = 0 ∨ miner = 0 ∨ code ∉ [1, 2] ∨ (code = 2 ∧ chamber = 0) → parse = .undefinedField)
        ∧ (call ≠ 0 → miner ≠ 0 → code = 1 → parse = .frame (.callOpen call miner .handset))
        ∧ (call ≠ 0 → miner ≠ 0 → code = 2 → chamber ≠ 0 → parse = .frame (.callOpen call miner (.chamber chamber))))
      ∧ (kind = 0x03 ∨ kind = 0x04 →
        let call : CallId := bits h.h1 0 8
        (call = 0 → parse = .undefinedField)
        ∧ (call ≠ 0 → parse = .frame (if kind = 0x03 then .callClose call else .voice call)))
      ∧ (kind = 0x05 →
        let miner : Id := bits h.h1 8 16
        (miner = 0 → parse = .undefinedField) ∧ (miner ≠ 0 → parse = .frame (.distress miner (bits h.h1 0 8) origin)))
      ∧ (kind = 0x06 ∨ kind = 0x07 →
        let miner : Id := bits h.h1 0 16
        let id : Id := bits h.h2 0 16
        (miner = 0 ∨ id = 0 → parse = .undefinedField)
        ∧ (miner ≠ 0 → id ≠ 0 → unknown id → parse = .unknownObject)
        ∧ ∀ c : Fin 4, miner ≠ 0 → id ≠ 0 → names id c →
          parse = .frame (if kind = 0x06 then .checkIn c miner else .checkOut c miner))
      ∧ (kind = 0x08 →
        let id : Id := bits h.h1 0 16
        (id = 0 ∨ fieldNat h.h1 16 2 ∉ [1, 2] → parse = .undefinedField)
        ∧ (id ≠ 0 → fieldNat h.h1 16 2 ∈ [1, 2] → unknown id → parse = .unknownObject)
        ∧ ∀ (c : Fin 4) (airlock : AirlockReport), id ≠ 0 → names id c →
          fieldNat h.h1 16 2 = (match airlock with | .opened => 1 | .shut => 2) →
          parse = .frame (.refugeStatus c airlock (bits h.h2 0 16) (bits h.h2 16 16) (bits h.h3 0 16)))
      ∧ (kind = 0x10 →
        let cause : NodeId := bits h.h1 0 12
        (cause = 0 ∨ cause = 4095 → parse = .undefinedField)
        ∧ (cause ≠ 0 → cause ≠ 4095 →
          parse = .frame (.evacuate (bits h.h0 20 4) origin cause (bits h.h1 12 8) (bits h.h1 20 4))))
      ∧ (kind = 0x11 →
        (24 ≤ fieldNat h.h1 0 8 → parse = .undefinedField)
        ∧ ∀ (c : Fin 24) (grade : Grade), fieldNat h.h1 0 8 = c.val → fieldNat h.h1 8 2 = Grade.code grade →
          parse = .frame (.airAlarm origin c grade))))

/-! ## Lines, idle cycles and time -/

/-- A change of a CONFIRM_IN line's value and a confirm timer's expiry (R38, R39, R45): the cell's state, the sampled value, and
one ISOLATOR_NO_CONFIRM where the confirmation is lost or does not come, which by default evacuates. In SETUP only the pin
changes. -/
def Obligations.CellConfirmation : Prop :=
  (∀ (n : Fin 8) (pin : Bool) (s : State), s.run = false →
    ∃ t, exec (.confirmInChange n pin) s = .next t ∧ t = { s with pins := s.pins.set n pin })
  ∧ (∀ (n : Fin 8) (pin : Bool) (i : Fin 4) (s : State),
    s.run = true → s.effective.lines[n].fn = .confirmIn i → (pin ^^ s.effective.lines[n].invert) ≠ s.sampled[n] →
    ∃ t, exec (.confirmInChange n pin) s = .next t ∧
      (let value := pin ^^ s.effective.lines[n].invert
       let required := s.effective.cells[i].confirmRequired
       t.sampled = s.sampled.set n value
       ∧ (required = true → s.cells[i].state = .tripped → value = true →
            t.cells[i].state = .isolated ∧ t.cells[i].confirm = .off)
       ∧ (required = true → s.cells[i].state = .unconfirmed → value = true → t.cells[i].state = .isolated)
       ∧ (required = true → s.cells[i].state = .isolated → value = false →
            t.cells[i].state = .unconfirmed ∧ t.fault.counters[10] = saturate countTop s.fault.counters[10])
       ∧ (s.cells[i].state = .idle → s.effective.cells[i].enabled = false → t.cells[i] = s.cells[i])
       ∧ (required = false → tripActive s.cells[i] = true → t.cells[i].state = s.cells[i].state))
      ∧ t.drive = lineDrives t
      ∧ SameBut [.trip, .level, .fault] { s with pins := s.pins.set n pin } t)
  ∧ (∀ (i : Fin 4) (s : State), s.run = true → s.cells[i].state = .tripped → Timer.due s.cells[i].confirm = true →
    ∃ t, exec (.confirmTimerExpiry i) s = .next t ∧
      t.cells[i] = { s.cells[i] with state := .unconfirmed, confirm := .expired }
      ∧ (∀ j : Fin 4, j ≠ i → t.cells[j] = s.cells[j])
      ∧ t.fault.counters[10] = saturate countTop s.fault.counters[10]
      ∧ (s.level.cause = none → s.effective.faults[10].escalation = .default →
          t.level.level = .evacuate ∧ ∃ c, t.level.cause = some c ∧ c.kind = .fault ∧ c.reason = 4)
      ∧ SameBut [.trip, .fault] s t)

/-- An idle cycle given to draining (R72): with nothing left over and nothing that the drain lets follow, the oldest entry is in memory
and out of the queue and nothing else has changed; a drain notice makes its PART slot READY unless it is UNKNOWN. While the sweep runs
(R167), a follow-up value that the drain frees enters, and then the first swept word from the cursor on that has no entry, or the sweep
ends. A new entry that finds room joins the tail; one that finds the queue full stalls it (R73): the oldest entry is written, the new
one enters, a bus access waits one cycle more, and one OWN_WRITE_STALL is recorded. End to end: the outcome word of a refused request
at a full queue stalls, the report words of its fault stall behind it, and the first n entries are in memory for n stalls; that these
words stand behind the outcome word is log entry 20's (DEDUCED). That a drain on an empty queue does nothing is the model's choice (log
entry 8). What the model keeps of an event stands cleared (log entry 4). -/
def Obligations.DrainWritesTheOldest : Prop :=
  (∀ (w : OwnWrite) (rest : List OwnWrite) (s : State),
    s.path.queue = w :: rest → w.notice = none → s.path.followUp = none → s.path.sweep = none → Settled s →
    ∃ t, exec .drain s = .next t ∧
      t = { s with
        mem := memWriteWord s.mem w.addr.toNat w.data, waitCycles := 0, drive := lineDrives s,
        path := { s.path with queue := rest, posts := [], reports := [], outcome := none, shown := [] },
        level := { s.level with taken := [] }, ring := { s.ring with requests := [] } })
  ∧ (∀ (w : OwnWrite) (rest : List OwnWrite) (n : Fin 16) (s : State),
    s.path.queue = w :: rest → w.notice = some n → s.ring.shadows[Fin.ofNat 64 n.val].state ≠ .unknown →
    ∃ t, exec .drain s = .next t ∧
      t.ring.shadows[Fin.ofNat 64 n.val].state = .ready ∧ t.ring.shadows[Fin.ofNat 64 n.val].length = 16
      ∧ SameBut [] s t)
  ∧ (∀ s : State, s.path.queue = [] → exec .drain s = .next s)
  ∧ (∀ (w : OwnWrite) (rest : List OwnWrite) (cursor : Nat) (s : State),
    s.path.queue = w :: rest → w.notice = none → s.path.sweep = some cursor → Settled s →
    (s.path.followUp = none ∨ w.addr = eventsAddr s 0 ∧ queued rest (eventsAddr s 0) = false) →
    let q : List OwnWrite := rest ++ (match s.path.followUp with
      | some d => [{ addr := eventsAddr s 0, data := d, kind := .trailing }]
      | none => [])
    q.length < 32 →
    ∃ t, exec .drain s = .next t ∧
      (let left := fun (queue : List OwnWrite) (sweep : Option Nat) => { s with
         mem := memWriteWord s.mem w.addr.toNat w.data, waitCycles := 0, drive := lineDrives s,
         path := { s.path with
           queue := queue, followUp := none, sweep := sweep, posts := [], reports := [], outcome := none, shown := [] },
         level := { s.level with taken := [] }, ring := { s.ring with requests := [] } }
       (∀ o, SweepNext s q cursor o → t = left (q ++ [mirrorWrite s o]) (sweepAfter o))
       ∧ ((∀ o, ¬SweepNext s q cursor o) → t = left q none)))
  ∧ (∀ (w : OwnWrite) (s : State), s.path.queue.length < 32 →
    enterNew w s = { s with path := { s.path with queue := s.path.queue ++ [w] } })
  ∧ (∀ (w e : OwnWrite) (rest : List OwnWrite) (s : State),
    s.run = true → s.path.queue = e :: rest → 31 ≤ rest.length →
    let t := enterNew w s
    t.mem = memWriteWord s.mem e.addr.toNat e.data ∧ t.path.queue = rest ++ [w] ∧ t.waitCycles = s.waitCycles + 1
      ∧ t.fault.counters[6] = saturate countTop s.fault.counters[6]
      ∧ (∀ k : Fin 12, k ≠ 6 → k ≠ 7 → t.fault.counters[k] = s.fault.counters[k])
      ∧ (s.fault.log = none → s.effective.faults[6].logOff = false →
          ∃ further, t.fault.log = some { kind := .ownWriteStall, ident := .own 1 0 0, time := s.time, further := further })
      ∧ (e.notice = none → t.ring = s.ring)
      ∧ (∀ n, e.notice = some n → s.ring.shadows[Fin.ofNat 64 n.val].state ≠ .unknown →
          t.ring.shadows[Fin.ofNat 64 n.val].state = .ready))
  ∧ (∀ (c : Instr) (w : Word) (s : State),
    s.run = true → requestWordOf c = some w → (judgeRequest s.strap w s).outcome ≠ outDone → Settled s →
    s.path.followUp = none → s.path.queue.length = 32 → (∀ e ∈ s.path.queue, e.notice = none) →
    escalation s .ownWriteStall = .none → queued s.path.queue (settingAddr s 0xF04) = false →
    (∀ o ∈ [0x64C, 0x660, 0x664, 0x668, 0x66C], queued s.path.queue (reportAddr s o) = false
      ∧ reportAddr s o ≠ settingAddr s 0xF04) →
    ∃ t, exec c s = .next t ∧
      ∃ words : List Nat, words.Sublist [0x64C, 0x660, 0x664, 0x668, 0x66C] ∧
        (let n := words.length + 1
         let outcome : OwnWrite :=
           { addr := settingAddr s 0xF04, kind := .coalescing,
             data := outcomeWord w (judgeRequest s.strap w s).outcome (judgeRequest s.strap w s).reason }
         t.waitCycles = n ∧ t.fault.counters[6] = (saturate countTop)^[n] s.fault.counters[6]
         ∧ t.path.queue = s.path.queue.drop n ++ outcome :: words.map (mirrorWrite t)
         ∧ t.mem = (s.path.queue.take n).foldl (fun m e => memWriteWord m e.addr.toNat e.data)
             (memWriteWord s.mem (settingBase s.strap + 0xF00) w)))

/-- An idle cycle given to the start scan (R74, R82) or to the patrol (R178): each reads one word and moves its cursor on; the
scan takes the slot's shadow, in the PART ring too, from the word, and its 64th read puts every ring's next index at its first slot and
the fill index at slot 0, where the first waiting frame is built if the slot is EMPTY (R95); the patrol records a difference and
otherwise changes nothing else. -/
def Obligations.ScanAndPatrolReads : Prop :=
  (∀ (n : Fin 64) (s : State),
    s.run = true → s.path.queue = [] → s.path.scanCursor = n.val → QueueKept s →
    ∃ t, exec .startScanRead s = .next t ∧
      (let w := memWord s.mem (s.effective.regions.txSlots.toNat + 16 * n.val)
       let h := s.ring.shadows[n]
       t.path.scanCursor = n.val + 1 ∧ t.ring.shadows[n].scanned = true
       ∧ t.ring.shadows[n] =
            (if h.state = .unknown then { h with scanned := true }
            else if bitOf w 31 then { h with scanned := true, state := .ready, length := bits w 0 11 }
            else { h with scanned := true, state := .empty })
       ∧ (∀ m : Fin 64, m ≠ n → n.val < 63 ∨ SlotStays s m → t.ring.shadows[m] = s.ring.shadows[m])
       ∧ (n.val < 63 → t.ring.rings = s.ring.rings ∧ t.ring.fill = s.ring.fill ∧ t.ring.records = s.ring.records)
       ∧ (n.val = 63 → ∀ r : Fin 4, t.ring.rings[r].next = some (Fin.ofNat 64 (ringStart s r.val)))
       ∧ (n.val = 63 → Settled s →
            t.ring.fill = 0
            ∧ (s.ring.list = [] ∨ s.ring.shadows[(0 : Fin 64)].state ≠ .empty ∨ s.ring.records[(0 : Fin 16)] ≠ none →
                t.ring.list = s.ring.list ∧ t.ring.records = s.ring.records
                ∧ t.ring.shadows[(0 : Fin 64)] = s.ring.shadows[(0 : Fin 64)])
            ∧ (∀ f rest, s.ring.list = f :: rest → s.ring.shadows[(0 : Fin 64)].state = .empty →
                s.ring.records[(0 : Fin 16)] = none →
                t.ring.list = rest
                ∧ t.ring.records = s.ring.records.set 0 (some { frame := f, seq := s.ring.seq + 1, withdrawn := false })
                ∧ t.ring.shadows[(0 : Fin 64)] = { s.ring.shadows[(0 : Fin 64)] with
                    tag := 0, dest := 4095, kind := BitVec.ofNat 8 (PartFrame.code f) })))
      ∧ t.path.arming = s.path.arming ∧ t.path.patrolCursor = s.path.patrolCursor
      ∧ SameBut [.ring, .path] s t)
  ∧ (∀ s : State,
    s.run = true → s.path.queue = [] → 64 ≤ s.path.scanCursor → s.path.patrolPending = true →
    ∃ t, exec .patrolRead s = .next t ∧
      (let a := (reportAddr s s.path.patrolCursor).toNat
       t.path.patrolCursor = patrolNext s.path.patrolCursor ∧ t.path.patrolPending = false
       ∧ (memWord s.mem a = mirror s s.path.patrolCursor → t = { s with path := { s.path with
            patrolCursor := patrolNext s.path.patrolCursor, patrolPending := false } })
       ∧ (memWord s.mem a ≠ mirror s s.path.patrolCursor →
            t.fault.counters[8] = saturate countTop s.fault.counters[8]))
      ∧ t.path.arming = s.path.arming ∧ t.path.scanCursor = s.path.scanCursor
      ∧ SameBut [.path, .fault] s t)

/-- A 1 ms tick (R76, R77): in RUN node time counts, the 100 ms timers count at a multiple of 100 and every other timer at a
multiple of 1,000; nothing else changes. In SETUP the time base is stopped. The two timer conventions: a timeout of length n comes due
at the n-th unit tick after its start and one of length 0 never (R77); a period timer of period p counts modulo p and comes due at its
p-th unit tick (R78). That a timeout stays due for every k past n (log entry 7), and that a period timer stays due while its count goes
on modulo p (log entries 7 and 23), is the model's: the rules make the n-th and the p-th tick the expiry itself. A newly applied period
(R78) starts a stopped timer at once, its first expiry at the p-th tick, unless it is 0; on a running timer it is staged, replacing one
staged before, and no tick touches it or the period in effect. At the expiry a staged period becomes the period, the next expiry p new
ticks later, and a staged 0 stops the timer. That an expiry which is taken late keeps the count of the ticks since is log entry 23's
(DEDUCED). -/
def Obligations.TicksBringTimersDue : Prop :=
  (∀ s : State, s.run = false → exec .timeBaseTick s = .next s)
  ∧ (∀ s : State, s.run = true →
    ∃ t, exec .timeBaseTick s = .next t ∧
      (let tenths := fun x : Timer => if t.time.toNat % 100 = 0 then Timer.tick x else x
       let seconds := fun x : Timer => if t.time.toNat % 1000 = 0 then Timer.tick x else x
       let period := fun x : PeriodTimer => if t.time.toNat % 1000 = 0 then PeriodTimer.tick x else x
       t.time = s.time + 1
       ∧ (∀ i : Fin 4, t.cells[i] = { s.cells[i] with confirm := tenths s.cells[i].confirm })
       ∧ (∀ p : Fin 8, t.call.table[p] = s.call.table[p].map (fun c => { c with silence := tenths c.silence }))
       ∧ (∀ i : Fin 24, t.channels[i] = { s.channels[i] with stale := seconds s.channels[i].stale })
       ∧ t.level = { s.level with remote := seconds s.level.remote, repeatTimer := period s.level.repeatTimer }
       ∧ (∀ p : Fin 32, t.road.trucks[p] = s.road.trucks[p].map
            (fun k => { k with stale := seconds k.stale, forget := seconds k.forget }))
       ∧ (∀ i : Fin 16, t.road.segments[i] = { s.road.segments[i] with
            holders := s.road.segments[i].holders.map (fun h => { h with grant := seconds h.grant }) })
       ∧ (∀ c : Fin 4, t.chambers[c] = { s.chambers[c] with
            silenceTimer := seconds s.chambers[c].silenceTimer, airlockTimer := seconds s.chambers[c].airlockTimer })
       ∧ t.rate = period s.rate ∧ t.fault = { s.fault with patrol := period s.fault.patrol }
       ∧ t.pending = s.pending ∧ t.run = s.run ∧ t.mem = s.mem ∧ t.path = s.path ∧ t.ring = s.ring ∧ t.frame = s.frame
       ∧ t.drive = s.drive ∧ t.sampled = s.sampled ∧ t.pins = s.pins ∧ t.copies = s.copies ∧ t.staged = s.staged
       ∧ t.effective = s.effective ∧ t.call.order = s.call.order ∧ t.call.distress = s.call.distress
       ∧ t.readData = s.readData ∧ t.strap = s.strap ∧ t.resetKind = s.resetKind ∧ t.resetCount = s.resetCount))
  ∧ (∀ n k : Nat, Timer.due (Timer.tick^[k] (Timer.start n)) = decide (1 ≤ n ∧ n ≤ k))
  ∧ (∀ p k : Nat, 1 ≤ p →
      (PeriodTimer.tick^[k] (PeriodTimer.start p)).count = k % p
      ∧ (PeriodTimer.tick^[k] (PeriodTimer.start p)).due = decide (p ≤ k)
      ∧ (PeriodTimer.tick^[k] (PeriodTimer.start p)).period = some p)
  ∧ (∀ k : Nat, PeriodTimer.tick^[k] (PeriodTimer.start 0) = PeriodTimer.start 0)
  ∧ (∀ (p : Nat) (x : PeriodTimer),
      (x.period = none → p ≠ 0 → PeriodTimer.apply p x = { period := some p, count := 0, staged := none, due := false })
      ∧ (x.period = none → PeriodTimer.apply 0 x = x)
      ∧ (x.period ≠ none → PeriodTimer.apply p x = { x with staged := some p })
      ∧ (x.staged = none → PeriodTimer.expire x = { x with due := false })
      ∧ (x.staged = some 0 → ∀ k : Nat, PeriodTimer.tick^[k] (PeriodTimer.expire x) = { period := none, staged := none })
      ∧ (x.staged = some p → p ≠ 0 →
          PeriodTimer.expire x = { period := some p, count := x.count, staged := none, due := false })
      ∧ (∀ k : Nat, (PeriodTimer.tick^[k] x).period = x.period ∧ (PeriodTimer.tick^[k] x).staged = x.staged)
      ∧ (x.staged = some p → x.count = 0 → 1 ≤ p → ∀ k : Nat,
          (PeriodTimer.tick^[k] (PeriodTimer.expire x)).due = decide (p ≤ k))
      ∧ (x.period = none → 1 ≤ p → ∀ k : Nat, (PeriodTimer.tick^[k] (PeriodTimer.apply p x)).due = decide (p ≤ k)))

/-! ## The PART ring -/

/-- The part send list (R92, R95 to R97). It is served where the part is in RUN, the scan has ended, and the slot at the fill index is
EMPTY without a frame record. Serving builds its first frame: the sequence, the frame record, the shadow's fields, and the seven
own-writes handed on, in which every kind carries its code, its hop, the node and the sequence in H0 and its payload in H1 to H3. A
withdrawal takes a frame out of the list and marks its record; that it also takes the frame out of what the same event has requested
before it is log entry 25's (DEDUCED). End to end: a REPEAT_TIMER_EXPIRY in EVACUATE that
finds a place free queues the seven own-writes of its EVACUATE frame and then the send list word (log entry 20); after a
CLEAR_DISTRESS no live relay of the miner is left, and after an END_EVACUATION no live EVACUATE frame. -/
def Obligations.PartFramesBuiltAndWithdrawn : Prop :=
  (∀ s : State, canBuild s = true ↔
    s.run = true ∧ s.path.scanCursor = 64 ∧ s.ring.shadows[Fin.ofNat 64 s.ring.fill.val].state = .empty
      ∧ s.ring.records[s.ring.fill] = none ∧ s.ring.list ≠ [])
  ∧ (∀ (f : PartFrame) (rest : List PartFrame) (s : State), s.ring.list = f :: rest →
    let t := buildFrame s
    let n : Fin 64 := Fin.ofNat 64 s.ring.fill.val
    t.ring.list = rest ∧ t.ring.seq = s.ring.seq + 1 ∧ t.ring.fill = s.ring.fill
      ∧ t.ring.records = s.ring.records.set s.ring.fill (some { frame := f, seq := s.ring.seq + 1, withdrawn := false })
      ∧ t.ring.shadows = s.ring.shadows.set n { s.ring.shadows[n] with
          tag := 0, dest := 4095, kind := BitVec.ofNat 8 (PartFrame.code f) }
      ∧ t.path.posts = s.path.posts ++ (builtWrites s f).map Post.write)
  ∧ (∀ (node : NodeId) (seq : BitVec 8) (f : PartFrame), ∃ h0 h1 h2 : Word,
    builtWords node seq f = [h0, h1, h2, 0] ∧ bits h0 0 8 = seq ∧ bits h0 8 12 = node ∧ fieldNat h0 24 8 = PartFrame.code f
      ∧ (match f with
         | .evacuate n q reason hop => PartFrame.code f = 0x10 ∧ bits h0 20 4 = hop
            ∧ bits h1 0 12 = n ∧ bits h1 12 8 = q ∧ bits h1 20 4 = reason ∧ bits h1 24 8 = 0 ∧ h2 = 0
         | .airAlarm c grade avg => PartFrame.code f = 0x11 ∧ bits h0 20 4 = 0
            ∧ fieldNat h1 0 8 = c.val ∧ fieldNat h1 8 2 = Grade.code grade ∧ bits h1 10 22 = 0
            ∧ fieldNat h2 0 16 = avg % 65536 ∧ bits h2 16 16 = 0
         | .distressRelay miner first n => PartFrame.code f = 0x12 ∧ bits h0 20 4 = 0
            ∧ bits h1 0 16 = miner ∧ bits h1 16 12 = n ∧ bits h1 28 4 = 0 ∧ h2 = first
         | .refugeAlarm id reasons => PartFrame.code f = 0x13 ∧ bits h0 20 4 = 0
            ∧ bits h1 0 16 = id ∧ bitOf h1 16 = reasons.gas ∧ bitOf h1 17 = reasons.silent ∧ bitOf h1 18 = reasons.airlock
            ∧ bits h1 19 13 = 0 ∧ h2 = 0
         | .grant truck seg dir => PartFrame.code f = 0x18 ∧ bits h0 20 4 = 0
            ∧ bits h1 0 16 = truck ∧ bits h1 16 16 = seg ∧ h2 = (match dir with | .inbye => 1 | .outbye => 2)
         | .revoke truck seg reason => PartFrame.code f = 0x19 ∧ bits h0 20 4 = 0
            ∧ bits h1 0 16 = truck ∧ bits h1 16 16 = seg
            ∧ h2 = (match reason with | .gas => 1 | .evacuation => 2 | .lapsed => 3 | .cleared => 4)
         | .halt seg => PartFrame.code f = 0x1A ∧ bits h0 20 4 = 0
            ∧ bits h1 0 16 = seg ∧ bits h1 16 16 = 0 ∧ h2 = 0))
  ∧ (∀ (p : PartFrame → Bool) (s : State),
    let t := withdrawFrames p s
    t.ring = { s.ring with
        list := s.ring.list.filter (fun f => !p f), requests := s.ring.requests.filter (fun f => !p f),
        records := t.ring.records }
      ∧ (∀ i : Fin 16, t.ring.records[i] =
          s.ring.records[i].map (fun r => { r with withdrawn := r.withdrawn || p r.frame }))
      ∧ t.path.queue = s.path.queue)
  ∧ (∀ (c : Cause) (hop : BitVec 4) (s : State),
    s.run = true → s.level.repeatTimer.due = true → s.level.level = .evacuate → s.level.cause = some c → c.hop = some hop →
    s.call.distress = [] → s.ring.list = [] → s.path.scanCursor = 64 →
    s.ring.shadows[Fin.ofNat 64 s.ring.fill.val].state = .empty → s.ring.records[s.ring.fill] = none →
    Settled s → s.path.followUp = none →
    let f := PartFrame.evacuate c.node c.seq c.reason hop
    ((s.path.queue ++ builtWrites s f).map (·.addr) ++ (fillWords s).map (reportAddr s)).Nodup → s.path.queue.length + 8 ≤ 32 →
    ∃ t, exec .repeatTimerExpiry s = .next t ∧
      t.ring.list = [] ∧ t.ring.seq = s.ring.seq + 1 ∧ t.ring.fill = s.ring.fill
      ∧ t.ring.records = s.ring.records.set s.ring.fill (some { frame := f, seq := s.ring.seq + 1, withdrawn := false })
      ∧ t.path.queue = s.path.queue ++ builtWrites s f
          ++ [{ addr := reportAddr s 0x170, data := mirror t 0x170, kind := .coalescing }])
  ∧ (∀ (tag : BitVec 8) (arg : BitVec 16) (d : Distress) (s : State),
    s.run = true → arg ≠ 0 → distressOf s arg = some d →
    ∃ t, exec (.clearDistress tag arg) s = .next t ∧
      (∀ f ∈ t.ring.list, PartFrame.relays arg f = false)
      ∧ (∀ (i : Fin 16) r, t.ring.records[i] = some r → PartFrame.relays arg r.frame = true → r.withdrawn = true))
  ∧ (∀ (tag : BitVec 8) (arg : BitVec 16) (c : Cause) (s : State),
    s.run = true → cellsTripped s = false → alertingHeld s = false → NoEndCause s → s.level.cause = some c →
    s.level.level = .evacuate →
    ∃ t, exec (.endEvacuation tag arg) s = .next t ∧
      (∀ f ∈ t.ring.list, PartFrame.isEvacuate f = false)
      ∧ (∀ (i : Fin 16) r, t.ring.records[i] = some r → PartFrame.isEvacuate r.frame = true → r.withdrawn = true))

/-! ## Expiries -/

/-- A due stale timer (R24): STALE is added, the timer is expired, the live grade is recomputed; no other channel changes. A
timer that is not due does nothing (log entry 7). An expiry of the rate window timer (R21, R22): the rising flag and the window start
of every channel in use; at the expiry that stops the timer every rising flag is clear. -/
def Obligations.AirTimersExpire : Prop :=
  (∀ (i : Fin 24) (s : State), s.run = true → Timer.due s.channels[i].stale = true →
    ∃ t, exec (.staleTimerExpiry i) s = .next t ∧
      (let a := s.channels[i]
       let b := t.channels[i]
       b.stale = .expired ∧ b.faults = { a.faults with stale := true } ∧ b.a16 = a.a16 ∧ b.computed = a.computed
       ∧ b.seq = a.seq ∧ b.raw = a.raw ∧ b.limits = a.limits ∧ b.waiting = a.waiting ∧ b.rising = a.rising
       ∧ Grade.code b.live = max (Grade.code a.computed)
            (max (if a.rising then 1 else 0) (Grade.code s.effective.channels[i].faultGrade))
       ∧ Grade.code b.latched = max (Grade.code a.latched) (Grade.code b.live)
       ∧ (∀ k : Fin 24, k ≠ i → t.channels[k] = s.channels[k]))
      ∧ t.rate = s.rate
      ∧ SameBut [.air, .trip, .level, .refuge, .fault] s t)
  ∧ (∀ (i : Fin 24) (s : State), Timer.due s.channels[i].stale = false → exec (.staleTimerExpiry i) s = .next s)
  ∧ (∀ s : State, s.run = true → s.rate.due = true →
    ∃ t, exec .rateWindowExpiry s = .next t ∧
      t.rate = PeriodTimer.expire s.rate
      ∧ (∀ i : Fin 24,
          (let set := s.effective.channels[i]
           let a := s.channels[i]
           let b := t.channels[i]
           (s.rate.staged ≠ some 0 → set.source ≠ .off →
              (a.limits.rate ≠ 0 → a.seen = true →
                b.windowStart = average a
                ∧ b.rising = decide (if set.falling then average a + a.limits.rate ≤ a.windowStart
                    else a.windowStart + a.limits.rate ≤ average a))
              ∧ (a.limits.rate = 0 → b.rising = false ∧ b.windowStart = average a)
              ∧ (a.limits.rate ≠ 0 → a.seen = false → b.rising = a.rising ∧ b.windowStart = a.windowStart))
           ∧ (s.rate.staged ≠ some 0 → set.source = .off → b = a)
           ∧ (s.rate.staged = some 0 → b.rising = false ∧ b.windowStart = average a)
           ∧ b.a16 = a.a16 ∧ b.computed = a.computed ∧ b.faults = a.faults ∧ b.seq = a.seq ∧ b.limits = a.limits
           ∧ b.stale = a.stale ∧ b.waiting = a.waiting
           ∧ (set.source ≠ .off → Grade.code b.live = max (Grade.code b.computed)
                (max (if b.rising then 1 else 0) (if hasFault b.faults then Grade.code set.faultGrade else 0)))))
      ∧ SameBut [.air, .trip, .level, .refuge] s t)

/-! ## Segments -/

/-- What the segments follow. The direction (R137): derived from the headings of the listed occupants and the holders, with the
CONFLICT member, a HALT and a record at a change into CONFLICT, and the member gone and the queue marked at a change out of it. The
gated grade (R143, R144): the highest held grade of the mask; at a rise to ALARM every DIESEL truck, at a rise to TRIP every truck, is
revoked or ordered out with a REVOKE for gas, the granted occupants before the unauthorised (log entry 34, DESIGN CHOICE), and the grants
withdrawn, from the event's own requests too (log entry 25, DEDUCED);
at a fall the queue is marked. A reading that brings its channel to TRIP clears the holders and the queue of every segment it gates.
The evacuation (R145): an EVACUATE request that changes the level leaves no INBYE holder or waiter in a controlled segment. -/
def Obligations.SegmentsFollowHeadingsGasAndLevel : Prop :=
  (∀ (i : Fin 16) (s : State),
    let g := s.road.segments[i]
    let t := rederive i s
    let h := t.road.segments[i]
    let heads := fun d : Heading =>
      (∃ id ∈ g.granted ++ g.unauthorised, ∃ k, truckOf s id = some k ∧ k.heading = d) ∨ ∃ x ∈ g.holders, x.dir = d
    (¬heads .inbye → ¬heads .outbye → h.direction = .free)
    ∧ (heads .inbye → ¬heads .outbye → h.direction = .inbye)
    ∧ (¬heads .inbye → heads .outbye → h.direction = .outbye)
    ∧ (heads .inbye → heads .outbye → h.direction = .conflict)
    ∧ (g.direction ≠ .conflict → h.direction = .conflict →
        AlertMember.segment i ∈ t.level.alerts ∧ h = { g with direction := .conflict }
        ∧ t.ring.requests = s.ring.requests ++ [.halt s.effective.segments[i].id]
        ∧ (s.run = true → occupancy s.fault ≠ 64 → t.fault.produce = s.fault.produce + 1))
    ∧ (g.direction = .conflict → h.direction ≠ .conflict →
        AlertMember.segment i ∉ t.level.alerts ∧ h = { g with direction := h.direction, marked := true }
        ∧ t.ring.requests = s.ring.requests
        ∧ (s.run = true → occupancy s.fault ≠ 64 → t.fault.produce = s.fault.produce + 1))
    ∧ ((g.direction = .conflict ↔ h.direction = .conflict) →
        t.level.alerts = s.level.alerts ∧ h = { g with direction := h.direction }
        ∧ t.ring.requests = s.ring.requests ∧ t.fault = s.fault)
    ∧ (∀ m, m ≠ .segment i → (m ∈ t.level.alerts ↔ m ∈ s.level.alerts))
    ∧ (∀ k : Fin 16, k ≠ i → t.road.segments[k] = s.road.segments[k]) ∧ t.road.trucks = s.road.trucks)
  ∧ (∀ (i : Fin 16) (s : State),
    let g := s.road.segments[i]
    let set := s.effective.segments[i]
    let t := regateSegment i s
    let h := t.road.segments[i]
    let out := fun (id : Id) => decide (h.gated = .trip) || isDiesel s id
    let acts := Grade.code g.gated < Grade.code h.gated ∧ 2 ≤ Grade.code h.gated
    (∀ c : Fin 24, bitOf set.gate c.val = true → Grade.code (held s.channels[c]) ≤ Grade.code h.gated)
    ∧ (h.gated = .clear ∨ ∃ c : Fin 24, bitOf set.gate c.val = true ∧ held s.channels[c] = h.gated)
    ∧ h.granted = g.granted ∧ h.unauthorised = g.unauthorised
    ∧ (acts →
        h.holders = g.holders.filter (fun x => !out x.truck) ∧ h.queue = g.queue.filter (fun w => !out w.truck)
        ∧ t.ring.requests.filter PartFrame.isRevoke = s.ring.requests.filter PartFrame.isRevoke
            ++ ((g.holders.map (·.truck) ++ g.queue.map (·.truck) ++ g.granted ++ g.unauthorised).filter out).map
                (fun id => .revoke id set.id .gas)
        ∧ (∀ x ∈ g.holders, out x.truck = true →
            (∀ f ∈ t.ring.list ++ t.ring.requests, PartFrame.grants x.truck set.id f = false)
            ∧ ∀ (n : Fin 16) r, t.ring.records[n] = some r → PartFrame.grants x.truck set.id r.frame = true →
                r.withdrawn = true)
        ∧ (h.gated = .alarm → h.marked = true))
    ∧ (¬acts → h = { g with gated := h.gated, marked := g.marked || decide (Grade.code h.gated < Grade.code g.gated) }
        ∧ t.ring.requests = s.ring.requests ∧ t.ring.list = s.ring.list ∧ t.ring.records = s.ring.records)
    ∧ (∀ k : Fin 16, k ≠ i → t.road.segments[k] = s.road.segments[k]))
  ∧ (∀ (addr : Addr) (data : Word) (o : Nat) (c : Fin 24) (i : Fin 16) (s : State),
    s.run = true → fullWordAccess addr 0xF = true → regionAt s (wordBase addr.toNat) = some (.rawAir, o) →
    channelOf s (.localInput (Fin.ofNat 16 (o / 4))) = some c → s.channels[c].seq ≠ some (bits data 12 4) →
    controlled s i = true → bitOf s.effective.segments[i].gate c.val = true → s.road.segments[i].gated ≠ .trip →
    held s.channels[c] ≠ .trip →
    ∃ t, exec (.rawAirWrite addr data) s = .next t ∧
      (held t.channels[c] = .trip →
        t.road.segments[i].gated = .trip ∧ t.road.segments[i].holders = [] ∧ t.road.segments[i].queue = []
        ∧ t.road.segments[i].granted = s.road.segments[i].granted
        ∧ t.road.segments[i].unauthorised = s.road.segments[i].unauthorised))
  ∧ (∀ (tag : BitVec 8) (arg : BitVec 16) (i : Fin 16) (s : State),
    s.run = true → 8 ≤ arg.toNat → arg.toNat ≤ 15 → s.level.cause = none → s.level.level ≠ .evacuate → controlled s i = true →
    ∃ t, exec (.evacuate tag arg) s = .next t ∧
      (∀ x ∈ t.road.segments[i].holders, x.dir = .outbye) ∧ (∀ w ∈ t.road.segments[i].queue, w.dir = .outbye)
      ∧ t.road.segments[i].granted = s.road.segments[i].granted
      ∧ t.road.segments[i].unauthorised = s.road.segments[i].unauthorised)

/-! ## More expiries -/

/-- Expiries of the repeat timer (R55, R56, R127) and of the patrol timer (R178): the timer goes on; the first asks for an EVACUATE
frame while the level is EVACUATE and the hop remaining is present, then for one relay for each distress entry in list order; the
second makes a patrol read pending and changes nothing else. -/
def Obligations.RepeatAndPatrolTimersExpire : Prop :=
  (∀ s : State, s.run = true → s.level.repeatTimer.due = true →
    ∃ t, exec .repeatTimerExpiry s = .next t ∧
      t.level.repeatTimer = PeriodTimer.expire s.level.repeatTimer
      ∧ t.level.remote = s.level.remote ∧ t.level.ended = s.level.ended
      ∧ (s.level.cause.isSome → t.level.cause = s.level.cause)
      ∧ SameBut [.level] s t)
  ∧ (∀ s : State, (repeatExpiry s).ring.requests = s.ring.requests
      ++ (match s.level.level, s.level.cause with
          | .evacuate, some c => match c.hop with
            | some hop => [PartFrame.evacuate c.node c.seq c.reason hop]
            | none => []
          | _, _ => [])
      ++ s.call.distress.map (fun d => PartFrame.distressRelay d.miner d.first d.node))
  ∧ (∀ s : State, s.run = true → s.fault.patrol.due = true →
    ∃ t, exec .patrolTimerExpiry s = .next t ∧
      t = { s with
        fault := { s.fault with patrol := PeriodTimer.expire s.fault.patrol },
        path := { s.path with patrolPending := true } })

/-- The remote alert (R50): an AIR_ALARM frame from another node restarts the timer and its member stands, unless the hold is 0;
a due timer expires and its member leaves. -/
def Obligations.RemoteAlertHeld : Prop :=
  (∀ (origin : NodeId) (channel : Fin 24) (grade : Grade) (s : State),
    s.run = true → nodeDefined origin = true →
    ∃ t, exec (.airAlarmFrame origin channel grade) s = .next t ∧
      (origin ≠ s.effective.node.nodeId → s.effective.node.remoteHold ≠ 0 →
        t.level.remote = Timer.running 0 s.effective.node.remoteHold ∧ AlertMember.remote ∈ t.level.alerts)
      ∧ (origin = s.effective.node.nodeId ∨ s.effective.node.remoteHold = 0 →
        SameBut [] (clearHandover (.airAlarm origin channel grade) s) t)
      ∧ t.level.repeatTimer = s.level.repeatTimer ∧ t.level.ended = s.level.ended
      ∧ (∀ m, AlertMember.settled m = true → m ≠ .remote → (m ∈ t.level.alerts ↔ m ∈ s.level.alerts))
      ∧ SameBut [.level] (clearHandover (.airAlarm origin channel grade) s) t)
  ∧ (∀ s : State, s.run = true → Timer.due s.level.remote = true →
    ∃ t, exec .remoteAlertExpiry s = .next t ∧
      t.level.remote = .expired ∧ AlertMember.remote ∉ t.level.alerts
      ∧ t.level.repeatTimer = s.level.repeatTimer ∧ t.level.ended = s.level.ended
      ∧ (∀ m, AlertMember.settled m = true → m ≠ .remote → (m ∈ t.level.alerts ↔ m ∈ s.level.alerts))
      ∧ SameBut [.level] s t)

/-- A due silence timer of a call (R120, R123): a DISTRESS call stays with its timer expired; any other is closed and counted. Which of
its frames have departed is told by ring.departed, a flag of the model's own (log entry 37, DEDUCED). -/
def Obligations.CallSilenceExpires : Prop :=
  ∀ (p : Fin 8) (c : Call) (s : State),
    s.run = true → s.call.table[p] = some c → Timer.due c.silence = true →
    ∃ t, exec (.callSilenceExpiry p) s = .next t ∧
      (c.priority = .distress →
        t.call = { s.call with table := s.call.table.set p (some { c with silence := .expired }) }
        ∧ t.ring.departed = s.ring.departed)
      ∧ (c.priority ≠ .distress →
        t.call = { s.call with
          table := s.call.table.set p none, order := s.call.order.filter (· ≠ p),
          silenceCloses := saturate countTop s.call.silenceCloses }
        ∧ FramesDepart c.id s t)
      ∧ SameBut [.call] s t

/-- The roadway unit's timers: a due grant timer takes the holder off the segment (R146); a due stale timer makes a TRACKED truck
LOST and takes it out of every wait queue (R147); a due forget timer removes a truck without a place and leaves one with an
occupant place (R148). -/
def Obligations.RoadTimersExpire : Prop :=
  (∀ (i : Fin 16) (truck : Id) (s : State),
    s.run = true → (∃ h ∈ s.road.segments[i].holders, h.truck = truck ∧ Timer.due h.grant = true) →
    waits s.road.segments[i] truck = false →
    ∃ t, exec (.grantTimerExpiry i truck) s = .next t ∧ holds t.road.segments[i] truck = false ∧ SameBut [] s t)
  ∧ (∀ (p : Fin 32) (k : Truck) (s : State),
    s.run = true → s.road.trucks[p] = some k → Timer.due k.stale = true →
    ∃ t, exec (.truckStaleExpiry p) s = .next t ∧
      (let after := { k with stale := .expired, lost := some (k.lost.getD s.time) }
       t.road.trucks[p] = some after ∨ (k.forget = .expired ∧ t.road.trucks[p] = none))
      ∧ (k.lost = none → ∀ i : Fin 16, waits t.road.segments[i] k.id = false)
      ∧ MusterGoesOn s t
      ∧ (∀ i : Fin 16, t.road.segments[i].granted = s.road.segments[i].granted
          ∧ t.road.segments[i].unauthorised = s.road.segments[i].unauthorised)
      ∧ t.road.queueFull = s.road.queueFull ∧ t.road.tableFull = s.road.tableFull
      ∧ SameBut [.road] s t)
  ∧ (∀ (p : Fin 32) (k : Truck) (s : State),
    s.run = true → s.road.trucks[p] = some k → Timer.due k.forget = true →
    ∃ t, exec (.truckForgetExpiry p) s = .next t ∧
      (Settled s → placeless s k.id = true → t.road.trucks[p] = none)
      ∧ (∀ i : Fin 16, occupies s.road.segments[i] k.id = true →
          t.road.trucks[p] = some { k with forget := .expired })
      ∧ (∀ i : Fin 16, t.road.segments[i].granted = s.road.segments[i].granted
          ∧ t.road.segments[i].unauthorised = s.road.segments[i].unauthorised)
      ∧ t.road.queueFull = s.road.queueFull ∧ t.road.tableFull = s.road.tableFull
      ∧ SameBut [.road] s t)

/-- A used chamber's timers (R159, R160, R161): a due silence timer sets the silent flag, a due airlock timer the airlock-too-long
flag, and with that reason standing the alarm is on exactly while the chamber is OCCUPIED. -/
def Obligations.ChamberTimersExpire : Prop :=
  (∀ (c : Fin 4) (s : State),
    s.run = true → s.effective.chambers[c].id ≠ 0 → Timer.due s.chambers[c].silenceTimer = true →
    ∃ t, exec (.chamberSilenceExpiry c) s = .next t ∧
      (let a := s.chambers[c]
       let b := t.chambers[c]
       b.silent = true ∧ b.silenceTimer = .expired ∧ b.alarm = occupied a ∧ b.reasons.silent = true
       ∧ b.reasons.airlock = a.airlockLong ∧ b.occupants = a.occupants ∧ b.overflow = a.overflow
       ∧ b.airlock = a.airlock ∧ b.airlockLong = a.airlockLong ∧ b.airlockTimer = a.airlockTimer
       ∧ b.lastReport = a.lastReport ∧ b.headcount = a.headcount ∧ b.mismatch = a.mismatch
       ∧ (∀ d : Fin 4, d ≠ c → t.chambers[d] = s.chambers[d]))
      ∧ SameBut [.refuge, .level] s t)
  ∧ (∀ (c : Fin 4) (s : State),
    s.run = true → s.effective.chambers[c].id ≠ 0 → Timer.due s.chambers[c].airlockTimer = true →
    ∃ t, exec (.airlockTimerExpiry c) s = .next t ∧
      (let a := s.chambers[c]
       let b := t.chambers[c]
       b.airlockLong = true ∧ b.airlockTimer = .expired ∧ b.alarm = occupied a ∧ b.reasons.airlock = true
       ∧ b.reasons.silent = a.silent ∧ b.occupants = a.occupants ∧ b.overflow = a.overflow
       ∧ b.airlock = a.airlock ∧ b.silent = a.silent ∧ b.silenceTimer = a.silenceTimer
       ∧ b.lastReport = a.lastReport ∧ b.headcount = a.headcount ∧ b.mismatch = a.mismatch
       ∧ (∀ d : Fin 4, d ≠ c → t.chambers[d] = s.chambers[d]))
      ∧ SameBut [.refuge, .level] s t)

/-! ## Dispatched frames -/

/-- A TRUCK_BEACON in RUN (R134 to R136): the truck's record is made or updated with its timers restarted; it occupies no
controlled segment but the current one, and there it is a granted occupant if it held a grant, stays an occupant, or joins the
unauthorised while that list holds fewer than 4. With the table full the beacon only counts. The request step (R138) in its five
cases: nothing for a truck placed in the segment or holding elsewhere; a waiter's direction refreshed in its place; QUEUE_FULL at 8
waiters; else the truck leaves every other queue and joins the tail, each queue changed being marked. An occupant is a listed one
(log entry 33). The entry step (R136) takes a holder off the holder list into the granted occupants and marks the queue (R142). The
premise on the wait queues is a law that every step keeps (GrantsStayWithinConvoy). -/
def Obligations.BeaconTracksAndRequests : Prop :=
  (∀ (truck : Id) (power : Power) (heading : Heading) (origin : NodeId) (current requested : Id) (s : State),
    s.run = true → truck ≠ 0 → nodeDefined origin = true → (∀ i : Fin 16, s.road.segments[i].queue.length ≤ 8) →
    ∃ t, exec (.truckBeacon truck power heading origin current requested) s = .next t ∧
      (let place := match truckPosition s truck with
         | some p => some p
         | none => findIndex s.road.trucks (fun k => k.isNone)
       let now := controlledIndex s current
       let full := fun j : Fin 16 =>
         controlledIndex s requested = some j ∧ (∀ i : Fin 16, holds s.road.segments[i] truck = true → now = some i)
         ∧ (now = some j → holds s.road.segments[j] truck = false ∧ occupies s.road.segments[j] truck = false
              ∧ 4 ≤ s.road.segments[j].unauthorised.length)
         ∧ waits s.road.segments[j] truck = false ∧ s.road.segments[j].queue.length = 8
       (∀ p, place = some p →
          t.road.trucks[p] = some
            { id := truck, power := power, heading := heading, lastSegment := knownSegment s current,
              lastBeacon := s.time, lost := none, stale := Timer.start s.effective.node.truckStale,
              forget := Timer.start s.effective.node.truckForget }
          ∧ (∀ q : Fin 32, q ≠ p → t.road.trucks[q] = s.road.trucks[q]
              ∨ t.road.trucks[q] = none ∧ ∃ k, s.road.trucks[q] = some k ∧ k.forget = .expired)
          ∧ (∀ i : Fin 16, now ≠ some i →
              t.road.segments[i].granted = s.road.segments[i].granted.filter (· ≠ truck)
              ∧ t.road.segments[i].unauthorised = s.road.segments[i].unauthorised.filter (· ≠ truck))
          ∧ (∀ i : Fin 16, now = some i →
              (holds s.road.segments[i] truck = true →
                t.road.segments[i].granted = s.road.segments[i].granted ++ [truck]
                ∧ t.road.segments[i].unauthorised = s.road.segments[i].unauthorised)
              ∧ (holds s.road.segments[i] truck = false → occupies s.road.segments[i] truck = true →
                t.road.segments[i].granted = s.road.segments[i].granted
                ∧ t.road.segments[i].unauthorised = s.road.segments[i].unauthorised)
              ∧ (holds s.road.segments[i] truck = false → occupies s.road.segments[i] truck = false →
                t.road.segments[i].granted = s.road.segments[i].granted
                ∧ t.road.segments[i].unauthorised =
                    if s.road.segments[i].unauthorised.length < 4 then s.road.segments[i].unauthorised ++ [truck]
                    else s.road.segments[i].unauthorised))
          ∧ t.road.tableFull = s.road.tableFull
          ∧ (∀ j, full j → t.road.queueFull = saturate countTop s.road.queueFull)
          ∧ ((∀ j, ¬full j) → t.road.queueFull = s.road.queueFull))
       ∧ (place = none →
          t.road.tableFull = saturate countTop s.road.tableFull ∧ t.road.queueFull = s.road.queueFull
          ∧ (∀ i : Fin 16, t.road.segments[i].granted = s.road.segments[i].granted
              ∧ t.road.segments[i].unauthorised = s.road.segments[i].unauthorised)))
      ∧ SameBut [.road] (clearHandover (.truckBeacon truck power heading origin current requested) s) t)
  ∧ (∀ (b : Beacon) (i : Fin 16) (s : State),
    let t := beaconRequest b i s
    let g := s.road.segments[i]
    let entry : Waiter := { truck := b.truck, dir := b.heading }
    let placed := holds g b.truck = true ∨ occupies g b.truck = true
      ∨ ∃ k : Fin 16, holds s.road.segments[k] b.truck = true
    (placed → t = s)
    ∧ (¬placed → waits g b.truck = true →
        t.road = { s.road with segments := s.road.segments.set i { g with
          queue := g.queue.map (fun w => if w.truck = b.truck then entry else w), marked := true } })
    ∧ (¬placed → waits g b.truck = false → g.queue.length = 8 →
        t.road = { s.road with queueFull := saturate countTop s.road.queueFull })
    ∧ (¬placed → waits g b.truck = false → g.queue.length ≠ 8 →
        t.road.segments[i] = { g with queue := g.queue ++ [entry], marked := true }
        ∧ (∀ k : Fin 16, k ≠ i → t.road.segments[k] =
            if waits s.road.segments[k] b.truck then { s.road.segments[k] with
              queue := s.road.segments[k].queue.filter (fun w => w.truck != b.truck), marked := true }
            else s.road.segments[k])
        ∧ t.road.trucks = s.road.trucks ∧ t.road.queueFull = s.road.queueFull ∧ t.road.tableFull = s.road.tableFull))
  ∧ (∀ (b : Beacon) (i : Fin 16) (s : State),
    let g := s.road.segments[i]
    let t := beaconEnter b i s
    holds g b.truck = true →
      t.road.segments[i] = { g with
        holders := g.holders.filter (fun h => h.truck != b.truck), granted := g.granted ++ [b.truck],
        direction := t.road.segments[i].direction, marked := true }
      ∧ (∀ k : Fin 16, k ≠ i → t.road.segments[k] = s.road.segments[k]) ∧ t.road.trucks = s.road.trucks)

/-- Serving the head of a queue (R139, R140): none where the queue is empty or the head stops it; a head that gas or evacuation
bars leaves the queue; a head that is granted joins the holders within the convoy limit, in a segment that was FREE or ran its
way. -/
def Obligations.QueueHeadServed : Prop :=
  ∀ (i : Fin 16) (s : State),
    let g := s.road.segments[i]
    (g.queue = [] → serveHead i s = none)
    ∧ (∀ w rest, g.queue = w :: rest →
        let barred := g.gated = .trip ∨ (isDiesel s w.truck = true ∧ 2 ≤ Grade.code g.gated)
          ∨ (s.level.level = .evacuate ∧ w.dir = .inbye)
        let fits := (g.direction = .free ∨ g.direction = headingDirection w.dir)
          ∧ g.holders.length + g.granted.length < s.effective.segments[i].convoy
        (barred → ∃ t, serveHead i s = some t ∧ waits t.road.segments[i] w.truck = false
          ∧ t.road.segments[i].holders = g.holders
          ∧ t.ring.requests = s.ring.requests ++ [.revoke w.truck s.effective.segments[i].id
              (if g.gated = .trip ∨ (isDiesel s w.truck = true ∧ 2 ≤ Grade.code g.gated) then .gas else .evacuation)])
        ∧ (¬barred → fits → ∃ t, serveHead i s = some t
          ∧ t.road.segments[i] = { g with
              queue := rest, direction := headingDirection w.dir,
              holders := g.holders ++ [{ truck := w.truck, dir := w.dir,
                                         grant := Timer.start s.effective.segments[i].grantTime }] }
          ∧ t.ring.requests = s.ring.requests ++ [.grant w.truck s.effective.segments[i].id w.dir])
        ∧ (¬barred → ¬fits → serveHead i s = none))

/-- The call frames in RUN (R117, R118, R119, R121): a CALL_OPEN refreshes the call of its id, takes the lowest free position,
pre-empts the earliest of the lowest priority below its own, or is refused; a CALL_CLOSE frees its call's position; a VOICE is an
activity of its call. That the IN_FLIGHT frames of a call that leaves so have departed, and no others, is said of ring.departed, a flag
of the model's own that stands for R123 (log entry 37, DEDUCED). A refresh derives every other call's priority again too (log entry
15), which leaves a call whose priority stands as R116 gives it as it was; nothing else of the call unit changes. -/
def Obligations.CallFramesTaken : Prop :=
  (∀ (call : CallId) (miner : Id) (origin : CallOrigin) (s : State),
    s.run = true → Frame.defined (.callOpen call miner origin) = true →
    ∃ t, exec (.callOpen call miner origin) s = .next t ∧
      (let priority := priorityOf s call miner origin
       let silence := Timer.start s.effective.node.silenceTime
       let entry : Call :=
         { id := call, miner := miner, origin := origin, priority := priority, opened := s.time, last := s.time,
           silence := silence }
       (∀ p c, callPosition s call = some p → s.call.table[p] = some c →
          t.call = { s.call with table := t.call.table }
          ∧ t.call.table[p] = some { c with
              miner := miner, origin := origin, priority := priority, last := s.time, silence := silence }
          ∧ ∀ q : Fin 8, q ≠ p → t.call.table[q] = s.call.table[q].map (fun d =>
              let derived := priorityOf s d.id d.miner d.origin
              { d with
                priority := derived
                silence := if d.priority = .distress ∧ derived ≠ .distress then silence else d.silence }))
       ∧ (∀ p, callPosition s call = none → findIndex s.call.table (fun c => c.isNone) = some p →
          t.call = { s.call with table := s.call.table.set p (some entry), order := s.call.order ++ [p] })
       ∧ (∀ p, callPosition s call = none → findIndex s.call.table (fun c => c.isNone) = none →
          preemptable s priority = some p →
          Priority.code (positionPriority s p) < Priority.code priority
          ∧ (∀ q ∈ s.call.order, Priority.code (positionPriority s p) ≤ Priority.code (positionPriority s q))
          ∧ (∃ earlier later, s.call.order = earlier ++ p :: later
              ∧ ∀ q ∈ earlier, Priority.code (positionPriority s p) < Priority.code (positionPriority s q))
          ∧ t.call = { s.call with
              table := s.call.table.set p (some entry), order := s.call.order.filter (· ≠ p) ++ [p],
              preempted := saturate countTop s.call.preempted }
          ∧ ∀ c, s.call.table[p] = some c → FramesDepart c.id s t)
       ∧ (callPosition s call = none → findIndex s.call.table (fun c => c.isNone) = none →
          preemptable s priority = none →
          (∀ q ∈ s.call.order, Priority.code priority ≤ Priority.code (positionPriority s q))
          ∧ t.call = { s.call with refused := saturate countTop s.call.refused }))
      ∧ (callPosition s call ≠ none ∨ findIndex s.call.table (fun c => c.isNone) ≠ none
          ∨ preemptable s (priorityOf s call miner origin) = none → t.ring.departed = s.ring.departed)
      ∧ SameBut [.call] (clearHandover (.callOpen call miner origin) s) t)
  ∧ (∀ (call : CallId) (s : State), s.run = true → call ≠ 0 →
    ∃ t, exec (.callClose call) s = .next t ∧
      (∀ p, callPosition s call = some p →
        t.call = { s.call with table := s.call.table.set p none, order := s.call.order.filter (· ≠ p) }
        ∧ FramesDepart call s t)
      ∧ (callPosition s call = none → t.call = s.call ∧ t.ring.departed = s.ring.departed)
      ∧ SameBut [.call] (clearHandover (.callClose call) s) t)
  ∧ (∀ (call : CallId) (s : State), s.run = true → call ≠ 0 →
    ∃ t, exec (.voice call) s = .next t ∧
      (∀ p c, callPosition s call = some p → s.call.table[p] = some c →
        t.call = { s.call with
          table := s.call.table.set p (some { c with last := s.time, silence := Timer.start s.effective.node.silenceTime }) })
      ∧ (callPosition s call = none → t.call = s.call)
      ∧ t.ring.departed = s.ring.departed
      ∧ SameBut [.call] (clearHandover (.voice call) s) t)

/-- A DISTRESS frame in RUN (R125, R126): a listed miner's entry is refreshed; an unlisted miner is added last and, as the first,
brings the distress member; at a full list the overflow counts. No call changes but in its priority and silence timer, and no frame has
departed by it, which is said of a flag of the model's own (log entry 37, DEDUCED). The muster summary follows (R61). -/
def Obligations.DistressTaken : Prop :=
  ∀ (miner : Id) (call : CallId) (node : NodeId) (s : State),
    s.run = true → miner ≠ 0 → nodeDefined node = true →
    ∃ t, exec (.distress miner call node) s = .next t ∧
      ((∃ d ∈ s.call.distress, d.miner = miner) →
        t.call.overflow = s.call.overflow
        ∧ t.call.distress.length = s.call.distress.length
        ∧ (∀ (k : Nat) d, s.call.distress[k]? = some d → d.miner ≠ miner → t.call.distress[k]? = some d)
        ∧ (∀ (k : Nat) d, s.call.distress[k]? = some d → distressOf s miner = some d → t.call.distress[k]? =
            some { d with last := s.time, call := if call = 0 then d.call else some call }))
      ∧ ((∀ d ∈ s.call.distress, d.miner ≠ miner) → s.call.distress.length < 8 →
        t.call.distress = s.call.distress ++ [{ miner := miner, node := node, first := s.time, last := s.time,
                                                call := if call = 0 then none else some call }]
        ∧ t.call.overflow = s.call.overflow
        ∧ (s.call.distress = [] → AlertMember.distress ∈ t.level.alerts))
      ∧ ((∀ d ∈ s.call.distress, d.miner ≠ miner) → 8 ≤ s.call.distress.length →
        t.call = { s.call with overflow := saturate countTop s.call.overflow })
      ∧ (∀ p : Fin 8, t.call.table[p].map (fun c => (c.id, c.miner, c.last))
          = s.call.table[p].map (fun c => (c.id, c.miner, c.last)))
      ∧ t.call.order = s.call.order
      ∧ t.ring.departed = s.ring.departed ∧ MusterGoesOn s t
      ∧ SameBut [.call, .level] (clearHandover (.distress miner call node) s) t

/-- CHECK_IN and CHECK_OUT for a used chamber in RUN (R154, R155): where the miner is listed afterwards and what the overflow
counts; the other chambers' lists stay. The muster summary follows while the level is EVACUATE and stays below it (R61). -/
def Obligations.CheckInAndOut : Prop :=
  (∀ (c : Fin 4) (miner : Id) (s : State),
    s.run = true → s.effective.chambers[c].id ≠ 0 → miner ≠ 0 → ChambersKept s →
    ∃ t, exec (.checkIn c miner) s = .next t ∧
      (let a := s.chambers[c]
       let room := a.occupants.length < s.effective.chambers[c].capacity
       (miner ∈ a.occupants → t.chambers = s.chambers)
       ∧ (miner ∉ a.occupants → room →
            t.chambers[c].occupants = a.occupants ++ [miner] ∧ t.chambers[c].overflow = a.overflow)
       ∧ (miner ∉ a.occupants → ¬room →
            t.chambers[c].occupants = a.occupants ∧ t.chambers[c].overflow = saturate 255 a.overflow)
       ∧ (∀ d : Fin 4, d ≠ c →
            t.chambers[d].occupants = s.chambers[d].occupants.filter (· ≠ miner)
            ∧ t.chambers[d].overflow = s.chambers[d].overflow
            ∧ (miner ∉ s.chambers[d].occupants → t.chambers[d] = s.chambers[d])))
      ∧ MusterGoesOn s t
      ∧ SameBut [.refuge, .level] (clearHandover (.checkIn c miner) s) t)
  ∧ (∀ (c : Fin 4) (miner : Id) (s : State),
    s.run = true → s.effective.chambers[c].id ≠ 0 → miner ≠ 0 →
    ∃ t, exec (.checkOut c miner) s = .next t ∧
      (let a := s.chambers[c]
       (miner ∈ a.occupants →
          t.chambers[c].occupants = a.occupants.filter (· ≠ miner) ∧ t.chambers[c].overflow = a.overflow)
       ∧ (miner ∉ a.occupants → 0 < a.overflow →
          t.chambers[c].occupants = a.occupants ∧ t.chambers[c].overflow = a.overflow - 1)
       ∧ (miner ∉ a.occupants → a.overflow = 0 → t.chambers = s.chambers)
       ∧ (∀ d : Fin 4, d ≠ c → t.chambers[d] = s.chambers[d]))
      ∧ MusterGoesOn s t
      ∧ SameBut [.refuge, .level] (clearHandover (.checkOut c miner) s) t)

/-- A REFUGE_STATUS frame for a used chamber in RUN (R157 to R161, R8): the report, the silent flag and its timer, the airlock with
its timer and flag, the mismatch flag and the alarm; the gas values given to the chamber's two channels. -/
def Obligations.RefugeStatusTaken : Prop :=
  ∀ (c : Fin 4) (airlock : AirlockReport) (o2 co headcount : BitVec 16) (s : State),
    s.run = true → s.effective.chambers[c].id ≠ 0 →
    ∃ t, exec (.refugeStatus c airlock o2 co headcount) s = .next t ∧
      (let a := s.chambers[c]
       let b := t.chambers[c]
       b.lastReport = some s.time ∧ b.headcount = some headcount ∧ b.silent = false
       ∧ b.silenceTimer = Timer.start s.effective.chambers[c].silenceTime
       ∧ b.occupants = a.occupants ∧ b.overflow = a.overflow
       ∧ b.mismatch = decide (headcount.toNat ≠ a.occupants.length + a.overflow)
       ∧ (airlock = .shut → b.airlock = .shut ∧ b.airlockTimer = .off ∧ b.airlockLong = false)
       ∧ (airlock = .opened → b.airlock = .opened ∧ b.airlockLong = a.airlockLong
            ∧ b.airlockTimer = if a.airlock = .opened then a.airlockTimer
                else Timer.start s.effective.chambers[c].airlockLimit)
       ∧ b.alarm = (occupied b && (b.reasons.gas || b.reasons.silent || b.reasons.airlock))
       ∧ b.reasons = { gas := channelAlarms t s.effective.chambers[c].o2 || channelAlarms t s.effective.chambers[c].co,
                       silent := b.silent, airlock := b.airlockLong })
      ∧ (∀ d : Fin 4, d ≠ c → t.chambers[d].occupants = s.chambers[d].occupants
          ∧ t.chambers[d].overflow = s.chambers[d].overflow ∧ t.chambers[d].headcount = s.chambers[d].headcount)
      ∧ (∀ (gas : Gas) (i : Fin 24), channelOf s (.chamber c gas) = some i →
          (let w := match gas with | .o2 => o2 | .co => co
           (w = 0xFFFF → t.channels[i].faults.fe = true ∧ t.channels[i].a16 = s.channels[i].a16
              ∧ t.channels[i].computed = s.channels[i].computed)
           ∧ (w ≠ 0xFFFF → t.channels[i].faults.fe = false ∧ t.channels[i].faults.stale = false
              ∧ t.channels[i].seen = true ∧ t.channels[i].last = min s.effective.channels[i].fullScale w.toNat
              ∧ t.channels[i].stale = Timer.start s.effective.channels[i].staleTime)))
      ∧ t.rate = s.rate
      ∧ SameBut [.air, .trip, .level, .refuge, .fault] (clearHandover (.refugeStatus c airlock o2 co headcount) s) t

/-- An EVACUATE frame in RUN by the first case of R52 that applies: own cause echoed and ended cause change nothing; the same cause
raises the hop remaining where the frame's hop allows more; a new cause fills an absent record (R51) and is otherwise a later
cause. -/
def Obligations.EvacuateFrameTaken : Prop :=
  ∀ (hop : BitVec 4) (relay node : NodeId) (seq : BitVec 8) (reason : BitVec 4) (s : State),
    s.run = true → nodeDefined relay = true → nodeDefined node = true →
    ∃ t, exec (.evacuateFrame hop relay node seq reason) s = .next t ∧
      (let unused := node = s.effective.node.nodeId ∨ s.level.ended = some (node, seq)
       let u := clearHandover (.evacuate hop relay node seq reason) s
       (unused → SameBut [] u t)
       ∧ (∀ c, ¬unused → s.level.cause = some c → c.node = node → c.seq = seq →
            t.level.cause = some { c with hop :=
              match c.hop with
              | none => if hop = 0 then none else some (hop - 1)
              | some h => if hop ≠ 0 ∧ h.toNat < hop.toNat - 1 then some (hop - 1) else some h })
       ∧ (∀ c, ¬unused → s.level.cause = some c → ¬(c.node = node ∧ c.seq = seq) →
            t.level.cause = some c ∧ t.level.ownSeq = s.level.ownSeq)
       ∧ (¬unused → s.level.cause = none →
            t.level.cause = some
              { kind := .remote, node := node, seq := seq, hop := if hop = 0 then none else some (hop - 1),
                reason := reason, time := s.time }
            ∧ t.level.level = .evacuate ∧ t.level.ownSeq = s.level.ownSeq)
       ∧ t.level.ended = s.level.ended ∧ t.level.remote = s.level.remote
       ∧ t.level.repeatTimer = s.level.repeatTimer
       ∧ (∀ m, AlertMember.settled m = true → (m ∈ t.level.alerts ↔ m ∈ s.level.alerts))
       ∧ SameBut [.level] u t)

/-- The trip unit's event after the level has entered or left EVACUATE (R35, R37, R54): an enabled cell with an EVACUATING selector and no
CELL selector takes its demand from its inputs, and trips if it was READY and the demand is true: TRIPPED with its confirm timer started
where it requires a confirmation that does not stand, ISOLATED otherwise. After the entry the cause in force stays; after the exit a
trip with evacuate-on-trip brings EVACUATE back. The truth of an input by its selector, before its invert flag (R33, codes of R182), and
the demand by the mode, before the output invert (R34). That the event stands as a due flag of the state, and that the row does nothing
while it is not due, is the model's choice (log entry 13). -/
def Obligations.EvacuatingCellsReevaluated : Prop :=
  (∀ (i : Fin 4) (s : State),
    s.run = true → s.reevalDue = true → s.effective.cells[i].enabled = true →
    (∃ k : Fin 4, s.effective.cells[i].inputs[k].code = 5) →
    (∀ k : Fin 4, s.effective.cells[i].inputs[k].code ≠ 4) →
    ∃ t, exec .evacuatingReevaluation s = .next t ∧
      t.cells[i].demand = cellDemand s i ∧ t.cells[i].truths = cellTruths s i
      ∧ (s.cells[i].state = .ready → cellDemand s i = true →
          .cell i ∈ t.level.alerts
          ∧ (s.effective.cells[i].confirmRequired = true → confirmLevel s i = false →
              t.cells[i].state = .tripped ∧ t.cells[i].confirm = Timer.start s.effective.cells[i].confirmTimeout)
          ∧ (s.effective.cells[i].confirmRequired = false ∨ confirmLevel s i = true →
              t.cells[i].state = .isolated ∧ t.cells[i].confirm = .off))
      ∧ (s.cells[i].state = .ready → cellDemand s i = false →
          t.cells[i].state = .ready ∧ t.cells[i].confirm = s.cells[i].confirm)
      ∧ (s.cells[i].state ≠ .ready → t.cells[i].state = s.cells[i].state ∧ t.cells[i].confirm = s.cells[i].confirm)
      ∧ (s.level.level = .evacuate → s.level.cause ≠ none → t.level.cause = s.level.cause ∧ t.reevalDue = false)
      ∧ (s.level.level ≠ .evacuate → t.reevalDue = decide (t.level.level = .evacuate))
      ∧ (s.level.level ≠ .evacuate → s.level.cause = none → s.cells[i].state = .ready → cellDemand s i = true →
          s.effective.cells[i].evacuateOnTrip = true →
          t.level.level = .evacuate ∧ ∃ c, t.level.cause = some c ∧ c.kind = .cell)
      ∧ t.sampled = s.sampled
      ∧ SameBut [.trip, .level] s t)
  ∧ (∀ s : State, s.reevalDue = false → exec .evacuatingReevaluation s = .next s)
  ∧ (∀ (i k : Fin 4) (s : State),
    let sel := s.effective.cells[i].inputs[k]
    let truth := (cellTruths s i)[k] ^^ sel.invert
    let channel : Fin 24 := Fin.ofNat 24 sel.index.val
    let other : Fin 4 := Fin.ofNat 4 sel.index.val
    (sel.code = 0 → truth = false)
    ∧ (sel.code = 1 → truth = true)
    ∧ (sel.code = 2 → sel.index.val < 24 → truth = decide (sel.n.val ≤ Grade.code (held s.channels[channel])))
    ∧ (sel.code = 3 → sel.index.val < 24 → truth = decide (s.channels[channel].faults ≠ {}))
    ∧ (sel.code = 4 → sel.index.val < 4 → truth = s.cells[other].demand)
    ∧ (sel.code = 5 → truth = decide (s.level.level = .evacuate))
    ∧ (sel.code = 6 → sel.index.val < 4 → (∀ n : Fin 8, s.effective.lines[n].fn ≠ .confirmIn other) → truth = false)
    ∧ (∀ n : Fin 8, sel.code = 6 → sel.index.val < 4 → s.effective.lines[n].fn = .confirmIn other →
        (∀ m : Fin 8, s.effective.lines[m].fn = .confirmIn other → m = n) → truth = s.sampled[n]))
  ∧ (∀ (i : Fin 4) (s : State),
    let x := cellTruths s i
    let result := cellDemand s i ^^ s.effective.cells[i].outputInvert
    let trues := x[0].toNat + x[1].toNat + x[2].toNat + x[3].toNat
    match s.effective.cells[i].mode with
    | .any => result = decide (∃ k : Fin 4, x[k] = true)
    | .all => result = decide (∀ k : Fin 4, x[k] = true)
    | .twoOfFour => result = decide (2 ≤ trues)
    | .threeOfFour => result = decide (3 ≤ trues)
    | .pairsEither => result = decide (x[0] = true ∧ x[1] = true ∨ x[2] = true ∧ x[3] = true)
    | .pairsBoth => result = decide ((x[0] = true ∨ x[1] = true) ∧ (x[2] = true ∨ x[3] = true)))

/-! ## The laws of the part -/

/-- Memory keeps its canonical form at every step. -/
def Obligations.MemoryStaysCanonical : Prop :=
  ∀ s t : State, Memory.wf s.mem = true → step s = .next t → Memory.wf t.mem = true

/-- Law 1 at every step: no channel's latched grade falls below its live grade (R16, R29). -/
def Obligations.HeldGradeCoversLive : Prop :=
  ∀ s t : State, LatchedCoversLive s → step s = .next t → LatchedCoversLive t

/-- Law 2 at every step: every output line is driven as its function gives it, and in SETUP none (R43, R44). The level likewise follows
the cause record and the ALERT cause set (R47), and the muster summary the level and the roll call (R61). Law 8: a command takes the part
out of EVACUATE only as POWER_ON, as RESET_INPUT, or as an END_EVACUATION request that is accepted, with every cell READY or IDLE and no
alerting channel at held grade ALARM or above (R47, R58); a RESTART is refused there (R171). That a fault which the end of an event
records itself has the level derived once more behind that event is log entry 4's (DEDUCED). -/
def Obligations.LinesFollowTheirFunctions : Prop :=
  (∀ s t : State, LinesFollow s → step s = .next t → LinesFollow t)
  ∧ (∀ s t : State, LevelFollows s → step s = .next t → LevelFollows t)
  ∧ (∀ s t : State, LevelFollows s → MusterFollows s → step s = .next t → MusterFollows t)
  ∧ (∀ (c : Instr) (s t : State), LevelFollows s → s.level.level = .evacuate → exec c s = .next t →
      t.level.level = .evacuate ∨ (∃ strap, c = .powerOn strap ∨ c = .resetInput strap) ∨ EndsEvacuation c s)

/-- Law 4 at every step: holders and granted occupants stay within each segment's convoy limit (R139); and no wait queue passes 8
entries and no unauthorised list 4 trucks (R132). Law 5 at every step (R133, R138): a truck holds at most one segment, occupies at most
one, waits in at most one queue, once, and for no segment that it holds or occupies; and, as the cases of R138 and R140 have it, a
truck that waits holds nothing, and a holder is no listed occupant of its segment. -/
def Obligations.GrantsStayWithinConvoy : Prop :=
  (∀ s t : State, GrantsKept s → step s = .next t → GrantsKept t)
  ∧ (∀ s t : State, RoadListsKept s → step s = .next t → RoadListsKept t)
  ∧ (∀ s t : State, TruckPlacesKept s → step s = .next t → TruckPlacesKept t)

/-- Law 6 at every step: a miner is listed at most once, and no list passes its chamber's capacity (R153, R154). -/
def Obligations.MinersListedOnce : Prop :=
  ∀ s t : State, ChambersKept s → step s = .next t → ChambersKept t

/-- Law 7 at every step: call ids are distinct, the admission order names each call once, and the distress list keeps its bound
and its distinct miners (R115, R124). -/
def Obligations.CallTableKept : Prop :=
  ∀ s t : State, CallsKept s → step s = .next t → CallsKept t

/-- Law 9 at every step: the own-write queue holds at most 32 entries with distinct addresses, each one of the part's own words
(R66, R69, R70), and the patrol cursor stands at a patrolled word (R178). That the words are the part's own rests on the patrol
cursor and on the bound of the distress list (CallTableKept). -/
def Obligations.OwnWriteQueueKept : Prop :=
  ∀ s t : State, CallsKept s → PatrolKept s → QueueKept s → step s = .next t → QueueKept t ∧ PatrolKept t

/-- Laws 10 and 12 at every step: the event ring's occupancy and the part send list's bounds and order (R176, R91, R93). -/
def Obligations.RingAndSendListKept : Prop :=
  ∀ s t : State, CapacitiesKept s → step s = .next t → CapacitiesKept t

/-- Law 11 and the frame of memory (R65 to R67, R3, R177): a command changes no byte but those its own bus write stores, where the
guards permit that write, with the data the rule for the word gives, and bytes of the part's own words. Which lane of a word lies at
which byte address is log entry 5's (PRESUMED), and the upper half of a clamped consume word log entry 26's (DEDUCED). The premises
are laws that every step keeps (MemoryStaysCanonical, CallTableKept, OwnWriteQueueKept). -/
def Obligations.MemoryChangesOnlyWhereStored : Prop :=
  ∀ (c : Instr) (s : State), Memory.wf s.mem = true → CallsKept s → PatrolKept s → QueueKept s →
    ∃ t, exec c s = .next t ∧
      ∀ b : Nat, ¬OwnByte s b → ¬OwnByte t b →
        (storedByte c s b = false → memRead t.mem b = memRead s.mem b)
        ∧ (∀ a, busWrite c s = some a → storedByte c s b = true →
            memRead t.mem b = laneByte (storedData s a) (b - a.wordAddr))

/-- The state after reset keeps every law of the part. -/
def Obligations.ResetKeepsTheLaws : Prop :=
  Memory.wf State.reset.mem = true ∧ LatchedCoversLive State.reset ∧ LinesFollow State.reset ∧ GrantsKept State.reset
    ∧ RoadListsKept State.reset ∧ ChambersKept State.reset ∧ CallsKept State.reset ∧ QueueKept State.reset ∧ PatrolKept State.reset
    ∧ CapacitiesKept State.reset ∧ LevelFollows State.reset ∧ MusterFollows State.reset ∧ TruckPlacesKept State.reset
end

