-- ==== Sys2Proof/Laws/State.lean ====
section
/-! SUPPORT. What each named update of the state leaves and sets, field by field. -/

set_option Elab.async false

namespace Sys2Proof.Machine

variable (s : State)

/-! ## driveLines -/

@[simp] theorem driveLines_pending : (driveLines s).pending = s.pending := rfl
@[simp] theorem driveLines_run : (driveLines s).run = s.run := rfl
@[simp] theorem driveLines_strap : (driveLines s).strap = s.strap := rfl
@[simp] theorem driveLines_resetKind : (driveLines s).resetKind = s.resetKind := rfl
@[simp] theorem driveLines_resetCount : (driveLines s).resetCount = s.resetCount := rfl
@[simp] theorem driveLines_copies : (driveLines s).copies = s.copies := rfl
@[simp] theorem driveLines_staged : (driveLines s).staged = s.staged := rfl
@[simp] theorem driveLines_effective : (driveLines s).effective = s.effective := rfl
@[simp] theorem driveLines_mem : (driveLines s).mem = s.mem := rfl
@[simp] theorem driveLines_readData : (driveLines s).readData = s.readData := rfl
@[simp] theorem driveLines_waitCycles : (driveLines s).waitCycles = s.waitCycles := rfl
@[simp] theorem driveLines_pins : (driveLines s).pins = s.pins := rfl
@[simp] theorem driveLines_sampled : (driveLines s).sampled = s.sampled := rfl
@[simp] theorem driveLines_drive : (driveLines s).drive = lineDrives s := rfl
@[simp] theorem driveLines_time : (driveLines s).time = s.time := rfl
@[simp] theorem driveLines_path : (driveLines s).path = s.path := rfl
@[simp] theorem driveLines_channels : (driveLines s).channels = s.channels := rfl
@[simp] theorem driveLines_rate : (driveLines s).rate = s.rate := rfl
@[simp] theorem driveLines_cells : (driveLines s).cells = s.cells := rfl
@[simp] theorem driveLines_reevalDue : (driveLines s).reevalDue = s.reevalDue := rfl
@[simp] theorem driveLines_level : (driveLines s).level = s.level := rfl
@[simp] theorem driveLines_ring : (driveLines s).ring = s.ring := rfl
@[simp] theorem driveLines_frame : (driveLines s).frame = s.frame := rfl
@[simp] theorem driveLines_call : (driveLines s).call = s.call := rfl
@[simp] theorem driveLines_road : (driveLines s).road = s.road := rfl
@[simp] theorem driveLines_chambers : (driveLines s).chambers = s.chambers := rfl
@[simp] theorem driveLines_fault : (driveLines s).fault = s.fault := rfl

/-! ## beginEvent -/

@[simp] theorem beginEvent_pending : (beginEvent s).pending = s.pending := rfl
@[simp] theorem beginEvent_run : (beginEvent s).run = s.run := rfl
@[simp] theorem beginEvent_strap : (beginEvent s).strap = s.strap := rfl
@[simp] theorem beginEvent_resetKind : (beginEvent s).resetKind = s.resetKind := rfl
@[simp] theorem beginEvent_resetCount : (beginEvent s).resetCount = s.resetCount := rfl
@[simp] theorem beginEvent_copies : (beginEvent s).copies = s.copies := rfl
@[simp] theorem beginEvent_staged : (beginEvent s).staged = s.staged := rfl
@[simp] theorem beginEvent_effective : (beginEvent s).effective = s.effective := rfl
@[simp] theorem beginEvent_mem : (beginEvent s).mem = s.mem := rfl
@[simp] theorem beginEvent_readData : (beginEvent s).readData = s.readData := rfl
@[simp] theorem beginEvent_waitCycles : (beginEvent s).waitCycles = 0 := rfl
@[simp] theorem beginEvent_pins : (beginEvent s).pins = s.pins := rfl
@[simp] theorem beginEvent_sampled : (beginEvent s).sampled = s.sampled := rfl
@[simp] theorem beginEvent_drive : (beginEvent s).drive = s.drive := rfl
@[simp] theorem beginEvent_time : (beginEvent s).time = s.time := rfl
@[simp] theorem beginEvent_path : (beginEvent s).path = { s.path with posts := [], reports := [], outcome := none, shown := [] } := rfl
@[simp] theorem beginEvent_channels : (beginEvent s).channels = s.channels := rfl
@[simp] theorem beginEvent_rate : (beginEvent s).rate = s.rate := rfl
@[simp] theorem beginEvent_cells : (beginEvent s).cells = s.cells := rfl
@[simp] theorem beginEvent_reevalDue : (beginEvent s).reevalDue = s.reevalDue := rfl
@[simp] theorem beginEvent_level : (beginEvent s).level = { s.level with taken := [] } := rfl
@[simp] theorem beginEvent_ring : (beginEvent s).ring = { s.ring with requests := [] } := rfl
@[simp] theorem beginEvent_frame : (beginEvent s).frame = s.frame := rfl
@[simp] theorem beginEvent_call : (beginEvent s).call = s.call := rfl
@[simp] theorem beginEvent_road : (beginEvent s).road = s.road := rfl
@[simp] theorem beginEvent_chambers : (beginEvent s).chambers = s.chambers := rfl
@[simp] theorem beginEvent_fault : (beginEvent s).fault = s.fault := rfl

/-! ## post -/

@[simp] theorem post_pending (p : Post) : (post p s).pending = s.pending := rfl
@[simp] theorem post_run (p : Post) : (post p s).run = s.run := rfl
@[simp] theorem post_strap (p : Post) : (post p s).strap = s.strap := rfl
@[simp] theorem post_resetKind (p : Post) : (post p s).resetKind = s.resetKind := rfl
@[simp] theorem post_resetCount (p : Post) : (post p s).resetCount = s.resetCount := rfl
@[simp] theorem post_copies (p : Post) : (post p s).copies = s.copies := rfl
@[simp] theorem post_staged (p : Post) : (post p s).staged = s.staged := rfl
@[simp] theorem post_effective (p : Post) : (post p s).effective = s.effective := rfl
@[simp] theorem post_mem (p : Post) : (post p s).mem = s.mem := rfl
@[simp] theorem post_readData (p : Post) : (post p s).readData = s.readData := rfl
@[simp] theorem post_waitCycles (p : Post) : (post p s).waitCycles = s.waitCycles := rfl
@[simp] theorem post_pins (p : Post) : (post p s).pins = s.pins := rfl
@[simp] theorem post_sampled (p : Post) : (post p s).sampled = s.sampled := rfl
@[simp] theorem post_drive (p : Post) : (post p s).drive = s.drive := rfl
@[simp] theorem post_time (p : Post) : (post p s).time = s.time := rfl
@[simp] theorem post_path (p : Post) : (post p s).path = { s.path with posts := s.path.posts ++ [p] } := rfl
@[simp] theorem post_channels (p : Post) : (post p s).channels = s.channels := rfl
@[simp] theorem post_rate (p : Post) : (post p s).rate = s.rate := rfl
@[simp] theorem post_cells (p : Post) : (post p s).cells = s.cells := rfl
@[simp] theorem post_reevalDue (p : Post) : (post p s).reevalDue = s.reevalDue := rfl
@[simp] theorem post_level (p : Post) : (post p s).level = s.level := rfl
@[simp] theorem post_ring (p : Post) : (post p s).ring = s.ring := rfl
@[simp] theorem post_frame (p : Post) : (post p s).frame = s.frame := rfl
@[simp] theorem post_call (p : Post) : (post p s).call = s.call := rfl
@[simp] theorem post_road (p : Post) : (post p s).road = s.road := rfl
@[simp] theorem post_chambers (p : Post) : (post p s).chambers = s.chambers := rfl
@[simp] theorem post_fault (p : Post) : (post p s).fault = s.fault := rfl

/-! ## postChanged -/

@[simp] theorem postChanged_pending (l : List Nat) : (postChanged l s).pending = s.pending := rfl
@[simp] theorem postChanged_run (l : List Nat) : (postChanged l s).run = s.run := rfl
@[simp] theorem postChanged_strap (l : List Nat) : (postChanged l s).strap = s.strap := rfl
@[simp] theorem postChanged_resetKind (l : List Nat) : (postChanged l s).resetKind = s.resetKind := rfl
@[simp] theorem postChanged_resetCount (l : List Nat) : (postChanged l s).resetCount = s.resetCount := rfl
@[simp] theorem postChanged_copies (l : List Nat) : (postChanged l s).copies = s.copies := rfl
@[simp] theorem postChanged_staged (l : List Nat) : (postChanged l s).staged = s.staged := rfl
@[simp] theorem postChanged_effective (l : List Nat) : (postChanged l s).effective = s.effective := rfl
@[simp] theorem postChanged_mem (l : List Nat) : (postChanged l s).mem = s.mem := rfl
@[simp] theorem postChanged_readData (l : List Nat) : (postChanged l s).readData = s.readData := rfl
@[simp] theorem postChanged_waitCycles (l : List Nat) : (postChanged l s).waitCycles = s.waitCycles := rfl
@[simp] theorem postChanged_pins (l : List Nat) : (postChanged l s).pins = s.pins := rfl
@[simp] theorem postChanged_sampled (l : List Nat) : (postChanged l s).sampled = s.sampled := rfl
@[simp] theorem postChanged_drive (l : List Nat) : (postChanged l s).drive = s.drive := rfl
@[simp] theorem postChanged_time (l : List Nat) : (postChanged l s).time = s.time := rfl
@[simp] theorem postChanged_path (l : List Nat) : (postChanged l s).path = { s.path with posts := s.path.posts ++ l.map Post.changed } := rfl
@[simp] theorem postChanged_channels (l : List Nat) : (postChanged l s).channels = s.channels := rfl
@[simp] theorem postChanged_rate (l : List Nat) : (postChanged l s).rate = s.rate := rfl
@[simp] theorem postChanged_cells (l : List Nat) : (postChanged l s).cells = s.cells := rfl
@[simp] theorem postChanged_reevalDue (l : List Nat) : (postChanged l s).reevalDue = s.reevalDue := rfl
@[simp] theorem postChanged_level (l : List Nat) : (postChanged l s).level = s.level := rfl
@[simp] theorem postChanged_ring (l : List Nat) : (postChanged l s).ring = s.ring := rfl
@[simp] theorem postChanged_frame (l : List Nat) : (postChanged l s).frame = s.frame := rfl
@[simp] theorem postChanged_call (l : List Nat) : (postChanged l s).call = s.call := rfl
@[simp] theorem postChanged_road (l : List Nat) : (postChanged l s).road = s.road := rfl
@[simp] theorem postChanged_chambers (l : List Nat) : (postChanged l s).chambers = s.chambers := rfl
@[simp] theorem postChanged_fault (l : List Nat) : (postChanged l s).fault = s.fault := rfl

/-! ## postAlways -/

@[simp] theorem postAlways_pending (l : List Nat) : (postAlways l s).pending = s.pending := rfl
@[simp] theorem postAlways_run (l : List Nat) : (postAlways l s).run = s.run := rfl
@[simp] theorem postAlways_strap (l : List Nat) : (postAlways l s).strap = s.strap := rfl
@[simp] theorem postAlways_resetKind (l : List Nat) : (postAlways l s).resetKind = s.resetKind := rfl
@[simp] theorem postAlways_resetCount (l : List Nat) : (postAlways l s).resetCount = s.resetCount := rfl
@[simp] theorem postAlways_copies (l : List Nat) : (postAlways l s).copies = s.copies := rfl
@[simp] theorem postAlways_staged (l : List Nat) : (postAlways l s).staged = s.staged := rfl
@[simp] theorem postAlways_effective (l : List Nat) : (postAlways l s).effective = s.effective := rfl
@[simp] theorem postAlways_mem (l : List Nat) : (postAlways l s).mem = s.mem := rfl
@[simp] theorem postAlways_readData (l : List Nat) : (postAlways l s).readData = s.readData := rfl
@[simp] theorem postAlways_waitCycles (l : List Nat) : (postAlways l s).waitCycles = s.waitCycles := rfl
@[simp] theorem postAlways_pins (l : List Nat) : (postAlways l s).pins = s.pins := rfl
@[simp] theorem postAlways_sampled (l : List Nat) : (postAlways l s).sampled = s.sampled := rfl
@[simp] theorem postAlways_drive (l : List Nat) : (postAlways l s).drive = s.drive := rfl
@[simp] theorem postAlways_time (l : List Nat) : (postAlways l s).time = s.time := rfl
@[simp] theorem postAlways_path (l : List Nat) : (postAlways l s).path = { s.path with posts := s.path.posts ++ l.map Post.always } := rfl
@[simp] theorem postAlways_channels (l : List Nat) : (postAlways l s).channels = s.channels := rfl
@[simp] theorem postAlways_rate (l : List Nat) : (postAlways l s).rate = s.rate := rfl
@[simp] theorem postAlways_cells (l : List Nat) : (postAlways l s).cells = s.cells := rfl
@[simp] theorem postAlways_reevalDue (l : List Nat) : (postAlways l s).reevalDue = s.reevalDue := rfl
@[simp] theorem postAlways_level (l : List Nat) : (postAlways l s).level = s.level := rfl
@[simp] theorem postAlways_ring (l : List Nat) : (postAlways l s).ring = s.ring := rfl
@[simp] theorem postAlways_frame (l : List Nat) : (postAlways l s).frame = s.frame := rfl
@[simp] theorem postAlways_call (l : List Nat) : (postAlways l s).call = s.call := rfl
@[simp] theorem postAlways_road (l : List Nat) : (postAlways l s).road = s.road := rfl
@[simp] theorem postAlways_chambers (l : List Nat) : (postAlways l s).chambers = s.chambers := rfl
@[simp] theorem postAlways_fault (l : List Nat) : (postAlways l s).fault = s.fault := rfl

/-! ## reportChanged -/

@[simp] theorem reportChanged_pending (l : List Nat) : (reportChanged l s).pending = s.pending := rfl
@[simp] theorem reportChanged_run (l : List Nat) : (reportChanged l s).run = s.run := rfl
@[simp] theorem reportChanged_strap (l : List Nat) : (reportChanged l s).strap = s.strap := rfl
@[simp] theorem reportChanged_resetKind (l : List Nat) : (reportChanged l s).resetKind = s.resetKind := rfl
@[simp] theorem reportChanged_resetCount (l : List Nat) : (reportChanged l s).resetCount = s.resetCount := rfl
@[simp] theorem reportChanged_copies (l : List Nat) : (reportChanged l s).copies = s.copies := rfl
@[simp] theorem reportChanged_staged (l : List Nat) : (reportChanged l s).staged = s.staged := rfl
@[simp] theorem reportChanged_effective (l : List Nat) : (reportChanged l s).effective = s.effective := rfl
@[simp] theorem reportChanged_mem (l : List Nat) : (reportChanged l s).mem = s.mem := rfl
@[simp] theorem reportChanged_readData (l : List Nat) : (reportChanged l s).readData = s.readData := rfl
@[simp] theorem reportChanged_waitCycles (l : List Nat) : (reportChanged l s).waitCycles = s.waitCycles := rfl
@[simp] theorem reportChanged_pins (l : List Nat) : (reportChanged l s).pins = s.pins := rfl
@[simp] theorem reportChanged_sampled (l : List Nat) : (reportChanged l s).sampled = s.sampled := rfl
@[simp] theorem reportChanged_drive (l : List Nat) : (reportChanged l s).drive = s.drive := rfl
@[simp] theorem reportChanged_time (l : List Nat) : (reportChanged l s).time = s.time := rfl
@[simp] theorem reportChanged_path (l : List Nat) : (reportChanged l s).path = { s.path with reports := s.path.reports ++ l.map Post.changed } := rfl
@[simp] theorem reportChanged_channels (l : List Nat) : (reportChanged l s).channels = s.channels := rfl
@[simp] theorem reportChanged_rate (l : List Nat) : (reportChanged l s).rate = s.rate := rfl
@[simp] theorem reportChanged_cells (l : List Nat) : (reportChanged l s).cells = s.cells := rfl
@[simp] theorem reportChanged_reevalDue (l : List Nat) : (reportChanged l s).reevalDue = s.reevalDue := rfl
@[simp] theorem reportChanged_level (l : List Nat) : (reportChanged l s).level = s.level := rfl
@[simp] theorem reportChanged_ring (l : List Nat) : (reportChanged l s).ring = s.ring := rfl
@[simp] theorem reportChanged_frame (l : List Nat) : (reportChanged l s).frame = s.frame := rfl
@[simp] theorem reportChanged_call (l : List Nat) : (reportChanged l s).call = s.call := rfl
@[simp] theorem reportChanged_road (l : List Nat) : (reportChanged l s).road = s.road := rfl
@[simp] theorem reportChanged_chambers (l : List Nat) : (reportChanged l s).chambers = s.chambers := rfl
@[simp] theorem reportChanged_fault (l : List Nat) : (reportChanged l s).fault = s.fault := rfl

/-! ## reportAlways -/

@[simp] theorem reportAlways_pending (l : List Nat) : (reportAlways l s).pending = s.pending := rfl
@[simp] theorem reportAlways_run (l : List Nat) : (reportAlways l s).run = s.run := rfl
@[simp] theorem reportAlways_strap (l : List Nat) : (reportAlways l s).strap = s.strap := rfl
@[simp] theorem reportAlways_resetKind (l : List Nat) : (reportAlways l s).resetKind = s.resetKind := rfl
@[simp] theorem reportAlways_resetCount (l : List Nat) : (reportAlways l s).resetCount = s.resetCount := rfl
@[simp] theorem reportAlways_copies (l : List Nat) : (reportAlways l s).copies = s.copies := rfl
@[simp] theorem reportAlways_staged (l : List Nat) : (reportAlways l s).staged = s.staged := rfl
@[simp] theorem reportAlways_effective (l : List Nat) : (reportAlways l s).effective = s.effective := rfl
@[simp] theorem reportAlways_mem (l : List Nat) : (reportAlways l s).mem = s.mem := rfl
@[simp] theorem reportAlways_readData (l : List Nat) : (reportAlways l s).readData = s.readData := rfl
@[simp] theorem reportAlways_waitCycles (l : List Nat) : (reportAlways l s).waitCycles = s.waitCycles := rfl
@[simp] theorem reportAlways_pins (l : List Nat) : (reportAlways l s).pins = s.pins := rfl
@[simp] theorem reportAlways_sampled (l : List Nat) : (reportAlways l s).sampled = s.sampled := rfl
@[simp] theorem reportAlways_drive (l : List Nat) : (reportAlways l s).drive = s.drive := rfl
@[simp] theorem reportAlways_time (l : List Nat) : (reportAlways l s).time = s.time := rfl
@[simp] theorem reportAlways_path (l : List Nat) : (reportAlways l s).path = { s.path with reports := s.path.reports ++ l.map Post.always } := rfl
@[simp] theorem reportAlways_channels (l : List Nat) : (reportAlways l s).channels = s.channels := rfl
@[simp] theorem reportAlways_rate (l : List Nat) : (reportAlways l s).rate = s.rate := rfl
@[simp] theorem reportAlways_cells (l : List Nat) : (reportAlways l s).cells = s.cells := rfl
@[simp] theorem reportAlways_reevalDue (l : List Nat) : (reportAlways l s).reevalDue = s.reevalDue := rfl
@[simp] theorem reportAlways_level (l : List Nat) : (reportAlways l s).level = s.level := rfl
@[simp] theorem reportAlways_ring (l : List Nat) : (reportAlways l s).ring = s.ring := rfl
@[simp] theorem reportAlways_frame (l : List Nat) : (reportAlways l s).frame = s.frame := rfl
@[simp] theorem reportAlways_call (l : List Nat) : (reportAlways l s).call = s.call := rfl
@[simp] theorem reportAlways_road (l : List Nat) : (reportAlways l s).road = s.road := rfl
@[simp] theorem reportAlways_chambers (l : List Nat) : (reportAlways l s).chambers = s.chambers := rfl
@[simp] theorem reportAlways_fault (l : List Nat) : (reportAlways l s).fault = s.fault := rfl

/-! ## requestFrame -/

@[simp] theorem requestFrame_pending (f : PartFrame) : (requestFrame f s).pending = s.pending := rfl
@[simp] theorem requestFrame_run (f : PartFrame) : (requestFrame f s).run = s.run := rfl
@[simp] theorem requestFrame_strap (f : PartFrame) : (requestFrame f s).strap = s.strap := rfl
@[simp] theorem requestFrame_resetKind (f : PartFrame) : (requestFrame f s).resetKind = s.resetKind := rfl
@[simp] theorem requestFrame_resetCount (f : PartFrame) : (requestFrame f s).resetCount = s.resetCount := rfl
@[simp] theorem requestFrame_copies (f : PartFrame) : (requestFrame f s).copies = s.copies := rfl
@[simp] theorem requestFrame_staged (f : PartFrame) : (requestFrame f s).staged = s.staged := rfl
@[simp] theorem requestFrame_effective (f : PartFrame) : (requestFrame f s).effective = s.effective := rfl
@[simp] theorem requestFrame_mem (f : PartFrame) : (requestFrame f s).mem = s.mem := rfl
@[simp] theorem requestFrame_readData (f : PartFrame) : (requestFrame f s).readData = s.readData := rfl
@[simp] theorem requestFrame_waitCycles (f : PartFrame) : (requestFrame f s).waitCycles = s.waitCycles := rfl
@[simp] theorem requestFrame_pins (f : PartFrame) : (requestFrame f s).pins = s.pins := rfl
@[simp] theorem requestFrame_sampled (f : PartFrame) : (requestFrame f s).sampled = s.sampled := rfl
@[simp] theorem requestFrame_drive (f : PartFrame) : (requestFrame f s).drive = s.drive := rfl
@[simp] theorem requestFrame_time (f : PartFrame) : (requestFrame f s).time = s.time := rfl
@[simp] theorem requestFrame_path (f : PartFrame) : (requestFrame f s).path = s.path := rfl
@[simp] theorem requestFrame_channels (f : PartFrame) : (requestFrame f s).channels = s.channels := rfl
@[simp] theorem requestFrame_rate (f : PartFrame) : (requestFrame f s).rate = s.rate := rfl
@[simp] theorem requestFrame_cells (f : PartFrame) : (requestFrame f s).cells = s.cells := rfl
@[simp] theorem requestFrame_reevalDue (f : PartFrame) : (requestFrame f s).reevalDue = s.reevalDue := rfl
@[simp] theorem requestFrame_level (f : PartFrame) : (requestFrame f s).level = s.level := rfl
@[simp] theorem requestFrame_ring (f : PartFrame) : (requestFrame f s).ring = { s.ring with requests := s.ring.requests ++ [f] } := rfl
@[simp] theorem requestFrame_frame (f : PartFrame) : (requestFrame f s).frame = s.frame := rfl
@[simp] theorem requestFrame_call (f : PartFrame) : (requestFrame f s).call = s.call := rfl
@[simp] theorem requestFrame_road (f : PartFrame) : (requestFrame f s).road = s.road := rfl
@[simp] theorem requestFrame_chambers (f : PartFrame) : (requestFrame f s).chambers = s.chambers := rfl
@[simp] theorem requestFrame_fault (f : PartFrame) : (requestFrame f s).fault = s.fault := rfl

/-! ## withdrawFrames -/

@[simp] theorem withdrawFrames_pending (p : PartFrame → Bool) : (withdrawFrames p s).pending = s.pending := rfl
@[simp] theorem withdrawFrames_run (p : PartFrame → Bool) : (withdrawFrames p s).run = s.run := rfl
@[simp] theorem withdrawFrames_strap (p : PartFrame → Bool) : (withdrawFrames p s).strap = s.strap := rfl
@[simp] theorem withdrawFrames_resetKind (p : PartFrame → Bool) : (withdrawFrames p s).resetKind = s.resetKind := rfl
@[simp] theorem withdrawFrames_resetCount (p : PartFrame → Bool) : (withdrawFrames p s).resetCount = s.resetCount := rfl
@[simp] theorem withdrawFrames_copies (p : PartFrame → Bool) : (withdrawFrames p s).copies = s.copies := rfl
@[simp] theorem withdrawFrames_staged (p : PartFrame → Bool) : (withdrawFrames p s).staged = s.staged := rfl
@[simp] theorem withdrawFrames_effective (p : PartFrame → Bool) : (withdrawFrames p s).effective = s.effective := rfl
@[simp] theorem withdrawFrames_mem (p : PartFrame → Bool) : (withdrawFrames p s).mem = s.mem := rfl
@[simp] theorem withdrawFrames_readData (p : PartFrame → Bool) : (withdrawFrames p s).readData = s.readData := rfl
@[simp] theorem withdrawFrames_waitCycles (p : PartFrame → Bool) : (withdrawFrames p s).waitCycles = s.waitCycles := rfl
@[simp] theorem withdrawFrames_pins (p : PartFrame → Bool) : (withdrawFrames p s).pins = s.pins := rfl
@[simp] theorem withdrawFrames_sampled (p : PartFrame → Bool) : (withdrawFrames p s).sampled = s.sampled := rfl
@[simp] theorem withdrawFrames_drive (p : PartFrame → Bool) : (withdrawFrames p s).drive = s.drive := rfl
@[simp] theorem withdrawFrames_time (p : PartFrame → Bool) : (withdrawFrames p s).time = s.time := rfl
@[simp] theorem withdrawFrames_path (p : PartFrame → Bool) : (withdrawFrames p s).path = (reportChanged [0x170] s).path := rfl
@[simp] theorem withdrawFrames_channels (p : PartFrame → Bool) : (withdrawFrames p s).channels = s.channels := rfl
@[simp] theorem withdrawFrames_rate (p : PartFrame → Bool) : (withdrawFrames p s).rate = s.rate := rfl
@[simp] theorem withdrawFrames_cells (p : PartFrame → Bool) : (withdrawFrames p s).cells = s.cells := rfl
@[simp] theorem withdrawFrames_reevalDue (p : PartFrame → Bool) : (withdrawFrames p s).reevalDue = s.reevalDue := rfl
@[simp] theorem withdrawFrames_level (p : PartFrame → Bool) : (withdrawFrames p s).level = s.level := rfl
@[simp] theorem withdrawFrames_frame (p : PartFrame → Bool) : (withdrawFrames p s).frame = s.frame := rfl
@[simp] theorem withdrawFrames_call (p : PartFrame → Bool) : (withdrawFrames p s).call = s.call := rfl
@[simp] theorem withdrawFrames_road (p : PartFrame → Bool) : (withdrawFrames p s).road = s.road := rfl
@[simp] theorem withdrawFrames_chambers (p : PartFrame → Bool) : (withdrawFrames p s).chambers = s.chambers := rfl
@[simp] theorem withdrawFrames_fault (p : PartFrame → Bool) : (withdrawFrames p s).fault = s.fault := rfl

/-! ## appendEntry -/

@[simp] theorem appendEntry_pending (w : OwnWrite) : (appendEntry w s).pending = s.pending := rfl
@[simp] theorem appendEntry_run (w : OwnWrite) : (appendEntry w s).run = s.run := rfl
@[simp] theorem appendEntry_strap (w : OwnWrite) : (appendEntry w s).strap = s.strap := rfl
@[simp] theorem appendEntry_resetKind (w : OwnWrite) : (appendEntry w s).resetKind = s.resetKind := rfl
@[simp] theorem appendEntry_resetCount (w : OwnWrite) : (appendEntry w s).resetCount = s.resetCount := rfl
@[simp] theorem appendEntry_copies (w : OwnWrite) : (appendEntry w s).copies = s.copies := rfl
@[simp] theorem appendEntry_staged (w : OwnWrite) : (appendEntry w s).staged = s.staged := rfl
@[simp] theorem appendEntry_effective (w : OwnWrite) : (appendEntry w s).effective = s.effective := rfl
@[simp] theorem appendEntry_mem (w : OwnWrite) : (appendEntry w s).mem = s.mem := rfl
@[simp] theorem appendEntry_readData (w : OwnWrite) : (appendEntry w s).readData = s.readData := rfl
@[simp] theorem appendEntry_waitCycles (w : OwnWrite) : (appendEntry w s).waitCycles = s.waitCycles := rfl
@[simp] theorem appendEntry_pins (w : OwnWrite) : (appendEntry w s).pins = s.pins := rfl
@[simp] theorem appendEntry_sampled (w : OwnWrite) : (appendEntry w s).sampled = s.sampled := rfl
@[simp] theorem appendEntry_drive (w : OwnWrite) : (appendEntry w s).drive = s.drive := rfl
@[simp] theorem appendEntry_time (w : OwnWrite) : (appendEntry w s).time = s.time := rfl
@[simp] theorem appendEntry_path (w : OwnWrite) : (appendEntry w s).path = { s.path with queue := s.path.queue ++ [w] } := rfl
@[simp] theorem appendEntry_channels (w : OwnWrite) : (appendEntry w s).channels = s.channels := rfl
@[simp] theorem appendEntry_rate (w : OwnWrite) : (appendEntry w s).rate = s.rate := rfl
@[simp] theorem appendEntry_cells (w : OwnWrite) : (appendEntry w s).cells = s.cells := rfl
@[simp] theorem appendEntry_reevalDue (w : OwnWrite) : (appendEntry w s).reevalDue = s.reevalDue := rfl
@[simp] theorem appendEntry_level (w : OwnWrite) : (appendEntry w s).level = s.level := rfl
@[simp] theorem appendEntry_ring (w : OwnWrite) : (appendEntry w s).ring = s.ring := rfl
@[simp] theorem appendEntry_frame (w : OwnWrite) : (appendEntry w s).frame = s.frame := rfl
@[simp] theorem appendEntry_call (w : OwnWrite) : (appendEntry w s).call = s.call := rfl
@[simp] theorem appendEntry_road (w : OwnWrite) : (appendEntry w s).road = s.road := rfl
@[simp] theorem appendEntry_chambers (w : OwnWrite) : (appendEntry w s).chambers = s.chambers := rfl
@[simp] theorem appendEntry_fault (w : OwnWrite) : (appendEntry w s).fault = s.fault := rfl

/-! ## countFault -/

@[simp] theorem countFault_pending (k : FaultKind) (d : FaultId) : (countFault k d s).pending = s.pending := rfl
@[simp] theorem countFault_run (k : FaultKind) (d : FaultId) : (countFault k d s).run = s.run := rfl
@[simp] theorem countFault_strap (k : FaultKind) (d : FaultId) : (countFault k d s).strap = s.strap := rfl
@[simp] theorem countFault_resetKind (k : FaultKind) (d : FaultId) : (countFault k d s).resetKind = s.resetKind := rfl
@[simp] theorem countFault_resetCount (k : FaultKind) (d : FaultId) : (countFault k d s).resetCount = s.resetCount := rfl
@[simp] theorem countFault_copies (k : FaultKind) (d : FaultId) : (countFault k d s).copies = s.copies := rfl
@[simp] theorem countFault_staged (k : FaultKind) (d : FaultId) : (countFault k d s).staged = s.staged := rfl
@[simp] theorem countFault_effective (k : FaultKind) (d : FaultId) : (countFault k d s).effective = s.effective := rfl
@[simp] theorem countFault_mem (k : FaultKind) (d : FaultId) : (countFault k d s).mem = s.mem := rfl
@[simp] theorem countFault_readData (k : FaultKind) (d : FaultId) : (countFault k d s).readData = s.readData := rfl
@[simp] theorem countFault_waitCycles (k : FaultKind) (d : FaultId) : (countFault k d s).waitCycles = s.waitCycles := rfl
@[simp] theorem countFault_pins (k : FaultKind) (d : FaultId) : (countFault k d s).pins = s.pins := rfl
@[simp] theorem countFault_sampled (k : FaultKind) (d : FaultId) : (countFault k d s).sampled = s.sampled := rfl
@[simp] theorem countFault_drive (k : FaultKind) (d : FaultId) : (countFault k d s).drive = s.drive := rfl
@[simp] theorem countFault_time (k : FaultKind) (d : FaultId) : (countFault k d s).time = s.time := rfl
@[simp] theorem countFault_path (k : FaultKind) (d : FaultId) : (countFault k d s).path = s.path := rfl
@[simp] theorem countFault_channels (k : FaultKind) (d : FaultId) : (countFault k d s).channels = s.channels := rfl
@[simp] theorem countFault_rate (k : FaultKind) (d : FaultId) : (countFault k d s).rate = s.rate := rfl
@[simp] theorem countFault_cells (k : FaultKind) (d : FaultId) : (countFault k d s).cells = s.cells := rfl
@[simp] theorem countFault_reevalDue (k : FaultKind) (d : FaultId) : (countFault k d s).reevalDue = s.reevalDue := rfl
@[simp] theorem countFault_level (k : FaultKind) (d : FaultId) : (countFault k d s).level = s.level := rfl
@[simp] theorem countFault_ring (k : FaultKind) (d : FaultId) : (countFault k d s).ring = s.ring := rfl
@[simp] theorem countFault_frame (k : FaultKind) (d : FaultId) : (countFault k d s).frame = s.frame := rfl
@[simp] theorem countFault_call (k : FaultKind) (d : FaultId) : (countFault k d s).call = s.call := rfl
@[simp] theorem countFault_road (k : FaultKind) (d : FaultId) : (countFault k d s).road = s.road := rfl
@[simp] theorem countFault_chambers (k : FaultKind) (d : FaultId) : (countFault k d s).chambers = s.chambers := rfl

/-! ## postFault -/

@[simp] theorem postFault_pending (k : FaultKind) : (postFault k s).pending = s.pending := rfl
@[simp] theorem postFault_run (k : FaultKind) : (postFault k s).run = s.run := rfl
@[simp] theorem postFault_strap (k : FaultKind) : (postFault k s).strap = s.strap := rfl
@[simp] theorem postFault_resetKind (k : FaultKind) : (postFault k s).resetKind = s.resetKind := rfl
@[simp] theorem postFault_resetCount (k : FaultKind) : (postFault k s).resetCount = s.resetCount := rfl
@[simp] theorem postFault_copies (k : FaultKind) : (postFault k s).copies = s.copies := rfl
@[simp] theorem postFault_staged (k : FaultKind) : (postFault k s).staged = s.staged := rfl
@[simp] theorem postFault_effective (k : FaultKind) : (postFault k s).effective = s.effective := rfl
@[simp] theorem postFault_mem (k : FaultKind) : (postFault k s).mem = s.mem := rfl
@[simp] theorem postFault_readData (k : FaultKind) : (postFault k s).readData = s.readData := rfl
@[simp] theorem postFault_waitCycles (k : FaultKind) : (postFault k s).waitCycles = s.waitCycles := rfl
@[simp] theorem postFault_pins (k : FaultKind) : (postFault k s).pins = s.pins := rfl
@[simp] theorem postFault_sampled (k : FaultKind) : (postFault k s).sampled = s.sampled := rfl
@[simp] theorem postFault_drive (k : FaultKind) : (postFault k s).drive = s.drive := rfl
@[simp] theorem postFault_time (k : FaultKind) : (postFault k s).time = s.time := rfl
@[simp] theorem postFault_channels (k : FaultKind) : (postFault k s).channels = s.channels := rfl
@[simp] theorem postFault_rate (k : FaultKind) : (postFault k s).rate = s.rate := rfl
@[simp] theorem postFault_cells (k : FaultKind) : (postFault k s).cells = s.cells := rfl
@[simp] theorem postFault_reevalDue (k : FaultKind) : (postFault k s).reevalDue = s.reevalDue := rfl
@[simp] theorem postFault_level (k : FaultKind) : (postFault k s).level = s.level := rfl
@[simp] theorem postFault_ring (k : FaultKind) : (postFault k s).ring = s.ring := rfl
@[simp] theorem postFault_frame (k : FaultKind) : (postFault k s).frame = s.frame := rfl
@[simp] theorem postFault_call (k : FaultKind) : (postFault k s).call = s.call := rfl
@[simp] theorem postFault_road (k : FaultKind) : (postFault k s).road = s.road := rfl
@[simp] theorem postFault_chambers (k : FaultKind) : (postFault k s).chambers = s.chambers := rfl
@[simp] theorem postFault_fault (k : FaultKind) : (postFault k s).fault = s.fault := rfl

/-! ## postRing -/

@[simp] theorem postRing_pending (n : Nat) : (postRing n s).pending = s.pending := rfl
@[simp] theorem postRing_run (n : Nat) : (postRing n s).run = s.run := rfl
@[simp] theorem postRing_strap (n : Nat) : (postRing n s).strap = s.strap := rfl
@[simp] theorem postRing_resetKind (n : Nat) : (postRing n s).resetKind = s.resetKind := rfl
@[simp] theorem postRing_resetCount (n : Nat) : (postRing n s).resetCount = s.resetCount := rfl
@[simp] theorem postRing_copies (n : Nat) : (postRing n s).copies = s.copies := rfl
@[simp] theorem postRing_staged (n : Nat) : (postRing n s).staged = s.staged := rfl
@[simp] theorem postRing_effective (n : Nat) : (postRing n s).effective = s.effective := rfl
@[simp] theorem postRing_mem (n : Nat) : (postRing n s).mem = s.mem := rfl
@[simp] theorem postRing_readData (n : Nat) : (postRing n s).readData = s.readData := rfl
@[simp] theorem postRing_waitCycles (n : Nat) : (postRing n s).waitCycles = s.waitCycles := rfl
@[simp] theorem postRing_pins (n : Nat) : (postRing n s).pins = s.pins := rfl
@[simp] theorem postRing_sampled (n : Nat) : (postRing n s).sampled = s.sampled := rfl
@[simp] theorem postRing_drive (n : Nat) : (postRing n s).drive = s.drive := rfl
@[simp] theorem postRing_time (n : Nat) : (postRing n s).time = s.time := rfl
@[simp] theorem postRing_channels (n : Nat) : (postRing n s).channels = s.channels := rfl
@[simp] theorem postRing_rate (n : Nat) : (postRing n s).rate = s.rate := rfl
@[simp] theorem postRing_cells (n : Nat) : (postRing n s).cells = s.cells := rfl
@[simp] theorem postRing_reevalDue (n : Nat) : (postRing n s).reevalDue = s.reevalDue := rfl
@[simp] theorem postRing_level (n : Nat) : (postRing n s).level = s.level := rfl
@[simp] theorem postRing_ring (n : Nat) : (postRing n s).ring = s.ring := rfl
@[simp] theorem postRing_frame (n : Nat) : (postRing n s).frame = s.frame := rfl
@[simp] theorem postRing_call (n : Nat) : (postRing n s).call = s.call := rfl
@[simp] theorem postRing_road (n : Nat) : (postRing n s).road = s.road := rfl
@[simp] theorem postRing_chambers (n : Nat) : (postRing n s).chambers = s.chambers := rfl
@[simp] theorem postRing_fault (n : Nat) : (postRing n s).fault = s.fault := rfl

/-! ## changeShadow -/

@[simp] theorem changeShadow_pending (n : Fin 64) (f : Shadow → Shadow) : (changeShadow n f s).pending = s.pending := rfl
@[simp] theorem changeShadow_run (n : Fin 64) (f : Shadow → Shadow) : (changeShadow n f s).run = s.run := rfl
@[simp] theorem changeShadow_strap (n : Fin 64) (f : Shadow → Shadow) : (changeShadow n f s).strap = s.strap := rfl
@[simp] theorem changeShadow_resetKind (n : Fin 64) (f : Shadow → Shadow) : (changeShadow n f s).resetKind = s.resetKind := rfl
@[simp] theorem changeShadow_resetCount (n : Fin 64) (f : Shadow → Shadow) : (changeShadow n f s).resetCount = s.resetCount := rfl
@[simp] theorem changeShadow_copies (n : Fin 64) (f : Shadow → Shadow) : (changeShadow n f s).copies = s.copies := rfl
@[simp] theorem changeShadow_staged (n : Fin 64) (f : Shadow → Shadow) : (changeShadow n f s).staged = s.staged := rfl
@[simp] theorem changeShadow_effective (n : Fin 64) (f : Shadow → Shadow) : (changeShadow n f s).effective = s.effective := rfl
@[simp] theorem changeShadow_mem (n : Fin 64) (f : Shadow → Shadow) : (changeShadow n f s).mem = s.mem := rfl
@[simp] theorem changeShadow_readData (n : Fin 64) (f : Shadow → Shadow) : (changeShadow n f s).readData = s.readData := rfl
@[simp] theorem changeShadow_waitCycles (n : Fin 64) (f : Shadow → Shadow) : (changeShadow n f s).waitCycles = s.waitCycles := rfl
@[simp] theorem changeShadow_pins (n : Fin 64) (f : Shadow → Shadow) : (changeShadow n f s).pins = s.pins := rfl
@[simp] theorem changeShadow_sampled (n : Fin 64) (f : Shadow → Shadow) : (changeShadow n f s).sampled = s.sampled := rfl
@[simp] theorem changeShadow_drive (n : Fin 64) (f : Shadow → Shadow) : (changeShadow n f s).drive = s.drive := rfl
@[simp] theorem changeShadow_time (n : Fin 64) (f : Shadow → Shadow) : (changeShadow n f s).time = s.time := rfl
@[simp] theorem changeShadow_path (n : Fin 64) (f : Shadow → Shadow) : (changeShadow n f s).path = (postRing n.val s).path := rfl
@[simp] theorem changeShadow_channels (n : Fin 64) (f : Shadow → Shadow) : (changeShadow n f s).channels = s.channels := rfl
@[simp] theorem changeShadow_rate (n : Fin 64) (f : Shadow → Shadow) : (changeShadow n f s).rate = s.rate := rfl
@[simp] theorem changeShadow_cells (n : Fin 64) (f : Shadow → Shadow) : (changeShadow n f s).cells = s.cells := rfl
@[simp] theorem changeShadow_reevalDue (n : Fin 64) (f : Shadow → Shadow) : (changeShadow n f s).reevalDue = s.reevalDue := rfl
@[simp] theorem changeShadow_level (n : Fin 64) (f : Shadow → Shadow) : (changeShadow n f s).level = s.level := rfl
@[simp] theorem changeShadow_ring (n : Fin 64) (f : Shadow → Shadow) : (changeShadow n f s).ring = { s.ring with shadows := modifyAt s.ring.shadows n f } := rfl
@[simp] theorem changeShadow_frame (n : Fin 64) (f : Shadow → Shadow) : (changeShadow n f s).frame = s.frame := rfl
@[simp] theorem changeShadow_call (n : Fin 64) (f : Shadow → Shadow) : (changeShadow n f s).call = s.call := rfl
@[simp] theorem changeShadow_road (n : Fin 64) (f : Shadow → Shadow) : (changeShadow n f s).road = s.road := rfl
@[simp] theorem changeShadow_chambers (n : Fin 64) (f : Shadow → Shadow) : (changeShadow n f s).chambers = s.chambers := rfl
@[simp] theorem changeShadow_fault (n : Fin 64) (f : Shadow → Shadow) : (changeShadow n f s).fault = s.fault := rfl

/-! ## changeRing -/

@[simp] theorem changeRing_pending (r : Fin 4) (f : RingRecord → RingRecord) : (changeRing r f s).pending = s.pending := rfl
@[simp] theorem changeRing_run (r : Fin 4) (f : RingRecord → RingRecord) : (changeRing r f s).run = s.run := rfl
@[simp] theorem changeRing_strap (r : Fin 4) (f : RingRecord → RingRecord) : (changeRing r f s).strap = s.strap := rfl
@[simp] theorem changeRing_resetKind (r : Fin 4) (f : RingRecord → RingRecord) : (changeRing r f s).resetKind = s.resetKind := rfl
@[simp] theorem changeRing_resetCount (r : Fin 4) (f : RingRecord → RingRecord) : (changeRing r f s).resetCount = s.resetCount := rfl
@[simp] theorem changeRing_copies (r : Fin 4) (f : RingRecord → RingRecord) : (changeRing r f s).copies = s.copies := rfl
@[simp] theorem changeRing_staged (r : Fin 4) (f : RingRecord → RingRecord) : (changeRing r f s).staged = s.staged := rfl
@[simp] theorem changeRing_effective (r : Fin 4) (f : RingRecord → RingRecord) : (changeRing r f s).effective = s.effective := rfl
@[simp] theorem changeRing_mem (r : Fin 4) (f : RingRecord → RingRecord) : (changeRing r f s).mem = s.mem := rfl
@[simp] theorem changeRing_readData (r : Fin 4) (f : RingRecord → RingRecord) : (changeRing r f s).readData = s.readData := rfl
@[simp] theorem changeRing_waitCycles (r : Fin 4) (f : RingRecord → RingRecord) : (changeRing r f s).waitCycles = s.waitCycles := rfl
@[simp] theorem changeRing_pins (r : Fin 4) (f : RingRecord → RingRecord) : (changeRing r f s).pins = s.pins := rfl
@[simp] theorem changeRing_sampled (r : Fin 4) (f : RingRecord → RingRecord) : (changeRing r f s).sampled = s.sampled := rfl
@[simp] theorem changeRing_drive (r : Fin 4) (f : RingRecord → RingRecord) : (changeRing r f s).drive = s.drive := rfl
@[simp] theorem changeRing_time (r : Fin 4) (f : RingRecord → RingRecord) : (changeRing r f s).time = s.time := rfl
@[simp] theorem changeRing_path (r : Fin 4) (f : RingRecord → RingRecord) : (changeRing r f s).path = s.path := rfl
@[simp] theorem changeRing_channels (r : Fin 4) (f : RingRecord → RingRecord) : (changeRing r f s).channels = s.channels := rfl
@[simp] theorem changeRing_rate (r : Fin 4) (f : RingRecord → RingRecord) : (changeRing r f s).rate = s.rate := rfl
@[simp] theorem changeRing_cells (r : Fin 4) (f : RingRecord → RingRecord) : (changeRing r f s).cells = s.cells := rfl
@[simp] theorem changeRing_reevalDue (r : Fin 4) (f : RingRecord → RingRecord) : (changeRing r f s).reevalDue = s.reevalDue := rfl
@[simp] theorem changeRing_level (r : Fin 4) (f : RingRecord → RingRecord) : (changeRing r f s).level = s.level := rfl
@[simp] theorem changeRing_ring (r : Fin 4) (f : RingRecord → RingRecord) : (changeRing r f s).ring = { s.ring with rings := modifyAt s.ring.rings r f } := rfl
@[simp] theorem changeRing_frame (r : Fin 4) (f : RingRecord → RingRecord) : (changeRing r f s).frame = s.frame := rfl
@[simp] theorem changeRing_call (r : Fin 4) (f : RingRecord → RingRecord) : (changeRing r f s).call = s.call := rfl
@[simp] theorem changeRing_road (r : Fin 4) (f : RingRecord → RingRecord) : (changeRing r f s).road = s.road := rfl
@[simp] theorem changeRing_chambers (r : Fin 4) (f : RingRecord → RingRecord) : (changeRing r f s).chambers = s.chambers := rfl
@[simp] theorem changeRing_fault (r : Fin 4) (f : RingRecord → RingRecord) : (changeRing r f s).fault = s.fault := rfl

/-! ## changeSegment -/

@[simp] theorem changeSegment_pending (i : Fin 16) (f : Segment → Segment) : (changeSegment i f s).pending = s.pending := rfl
@[simp] theorem changeSegment_run (i : Fin 16) (f : Segment → Segment) : (changeSegment i f s).run = s.run := rfl
@[simp] theorem changeSegment_strap (i : Fin 16) (f : Segment → Segment) : (changeSegment i f s).strap = s.strap := rfl
@[simp] theorem changeSegment_resetKind (i : Fin 16) (f : Segment → Segment) : (changeSegment i f s).resetKind = s.resetKind := rfl
@[simp] theorem changeSegment_resetCount (i : Fin 16) (f : Segment → Segment) : (changeSegment i f s).resetCount = s.resetCount := rfl
@[simp] theorem changeSegment_copies (i : Fin 16) (f : Segment → Segment) : (changeSegment i f s).copies = s.copies := rfl
@[simp] theorem changeSegment_staged (i : Fin 16) (f : Segment → Segment) : (changeSegment i f s).staged = s.staged := rfl
@[simp] theorem changeSegment_effective (i : Fin 16) (f : Segment → Segment) : (changeSegment i f s).effective = s.effective := rfl
@[simp] theorem changeSegment_mem (i : Fin 16) (f : Segment → Segment) : (changeSegment i f s).mem = s.mem := rfl
@[simp] theorem changeSegment_readData (i : Fin 16) (f : Segment → Segment) : (changeSegment i f s).readData = s.readData := rfl
@[simp] theorem changeSegment_waitCycles (i : Fin 16) (f : Segment → Segment) : (changeSegment i f s).waitCycles = s.waitCycles := rfl
@[simp] theorem changeSegment_pins (i : Fin 16) (f : Segment → Segment) : (changeSegment i f s).pins = s.pins := rfl
@[simp] theorem changeSegment_sampled (i : Fin 16) (f : Segment → Segment) : (changeSegment i f s).sampled = s.sampled := rfl
@[simp] theorem changeSegment_drive (i : Fin 16) (f : Segment → Segment) : (changeSegment i f s).drive = s.drive := rfl
@[simp] theorem changeSegment_time (i : Fin 16) (f : Segment → Segment) : (changeSegment i f s).time = s.time := rfl
@[simp] theorem changeSegment_path (i : Fin 16) (f : Segment → Segment) : (changeSegment i f s).path = (reportChanged (segmentWords i) s).path := rfl
@[simp] theorem changeSegment_channels (i : Fin 16) (f : Segment → Segment) : (changeSegment i f s).channels = s.channels := rfl
@[simp] theorem changeSegment_rate (i : Fin 16) (f : Segment → Segment) : (changeSegment i f s).rate = s.rate := rfl
@[simp] theorem changeSegment_cells (i : Fin 16) (f : Segment → Segment) : (changeSegment i f s).cells = s.cells := rfl
@[simp] theorem changeSegment_reevalDue (i : Fin 16) (f : Segment → Segment) : (changeSegment i f s).reevalDue = s.reevalDue := rfl
@[simp] theorem changeSegment_level (i : Fin 16) (f : Segment → Segment) : (changeSegment i f s).level = s.level := rfl
@[simp] theorem changeSegment_ring (i : Fin 16) (f : Segment → Segment) : (changeSegment i f s).ring = s.ring := rfl
@[simp] theorem changeSegment_frame (i : Fin 16) (f : Segment → Segment) : (changeSegment i f s).frame = s.frame := rfl
@[simp] theorem changeSegment_call (i : Fin 16) (f : Segment → Segment) : (changeSegment i f s).call = s.call := rfl
@[simp] theorem changeSegment_road (i : Fin 16) (f : Segment → Segment) : (changeSegment i f s).road = { s.road with segments := modifyAt s.road.segments i f } := rfl
@[simp] theorem changeSegment_chambers (i : Fin 16) (f : Segment → Segment) : (changeSegment i f s).chambers = s.chambers := rfl
@[simp] theorem changeSegment_fault (i : Fin 16) (f : Segment → Segment) : (changeSegment i f s).fault = s.fault := rfl

/-! ## setTruck -/

@[simp] theorem setTruck_pending (p : Fin 32) (t : Option Truck) : (setTruck p t s).pending = s.pending := rfl
@[simp] theorem setTruck_run (p : Fin 32) (t : Option Truck) : (setTruck p t s).run = s.run := rfl
@[simp] theorem setTruck_strap (p : Fin 32) (t : Option Truck) : (setTruck p t s).strap = s.strap := rfl
@[simp] theorem setTruck_resetKind (p : Fin 32) (t : Option Truck) : (setTruck p t s).resetKind = s.resetKind := rfl
@[simp] theorem setTruck_resetCount (p : Fin 32) (t : Option Truck) : (setTruck p t s).resetCount = s.resetCount := rfl
@[simp] theorem setTruck_copies (p : Fin 32) (t : Option Truck) : (setTruck p t s).copies = s.copies := rfl
@[simp] theorem setTruck_staged (p : Fin 32) (t : Option Truck) : (setTruck p t s).staged = s.staged := rfl
@[simp] theorem setTruck_effective (p : Fin 32) (t : Option Truck) : (setTruck p t s).effective = s.effective := rfl
@[simp] theorem setTruck_mem (p : Fin 32) (t : Option Truck) : (setTruck p t s).mem = s.mem := rfl
@[simp] theorem setTruck_readData (p : Fin 32) (t : Option Truck) : (setTruck p t s).readData = s.readData := rfl
@[simp] theorem setTruck_waitCycles (p : Fin 32) (t : Option Truck) : (setTruck p t s).waitCycles = s.waitCycles := rfl
@[simp] theorem setTruck_pins (p : Fin 32) (t : Option Truck) : (setTruck p t s).pins = s.pins := rfl
@[simp] theorem setTruck_sampled (p : Fin 32) (t : Option Truck) : (setTruck p t s).sampled = s.sampled := rfl
@[simp] theorem setTruck_drive (p : Fin 32) (t : Option Truck) : (setTruck p t s).drive = s.drive := rfl
@[simp] theorem setTruck_time (p : Fin 32) (t : Option Truck) : (setTruck p t s).time = s.time := rfl
@[simp] theorem setTruck_path (p : Fin 32) (t : Option Truck) : (setTruck p t s).path = (reportChanged (truckWords p) s).path := rfl
@[simp] theorem setTruck_channels (p : Fin 32) (t : Option Truck) : (setTruck p t s).channels = s.channels := rfl
@[simp] theorem setTruck_rate (p : Fin 32) (t : Option Truck) : (setTruck p t s).rate = s.rate := rfl
@[simp] theorem setTruck_cells (p : Fin 32) (t : Option Truck) : (setTruck p t s).cells = s.cells := rfl
@[simp] theorem setTruck_reevalDue (p : Fin 32) (t : Option Truck) : (setTruck p t s).reevalDue = s.reevalDue := rfl
@[simp] theorem setTruck_level (p : Fin 32) (t : Option Truck) : (setTruck p t s).level = s.level := rfl
@[simp] theorem setTruck_ring (p : Fin 32) (t : Option Truck) : (setTruck p t s).ring = s.ring := rfl
@[simp] theorem setTruck_frame (p : Fin 32) (t : Option Truck) : (setTruck p t s).frame = s.frame := rfl
@[simp] theorem setTruck_call (p : Fin 32) (t : Option Truck) : (setTruck p t s).call = s.call := rfl
@[simp] theorem setTruck_road (p : Fin 32) (t : Option Truck) : (setTruck p t s).road = { s.road with trucks := s.road.trucks.set p t } := rfl
@[simp] theorem setTruck_chambers (p : Fin 32) (t : Option Truck) : (setTruck p t s).chambers = s.chambers := rfl
@[simp] theorem setTruck_fault (p : Fin 32) (t : Option Truck) : (setTruck p t s).fault = s.fault := rfl

/-! ## setMuster -/

@[simp] theorem setMuster_pending (m : Muster) : (setMuster m s).pending = s.pending := rfl
@[simp] theorem setMuster_run (m : Muster) : (setMuster m s).run = s.run := rfl
@[simp] theorem setMuster_strap (m : Muster) : (setMuster m s).strap = s.strap := rfl
@[simp] theorem setMuster_resetKind (m : Muster) : (setMuster m s).resetKind = s.resetKind := rfl
@[simp] theorem setMuster_resetCount (m : Muster) : (setMuster m s).resetCount = s.resetCount := rfl
@[simp] theorem setMuster_copies (m : Muster) : (setMuster m s).copies = s.copies := rfl
@[simp] theorem setMuster_staged (m : Muster) : (setMuster m s).staged = s.staged := rfl
@[simp] theorem setMuster_effective (m : Muster) : (setMuster m s).effective = s.effective := rfl
@[simp] theorem setMuster_mem (m : Muster) : (setMuster m s).mem = s.mem := rfl
@[simp] theorem setMuster_readData (m : Muster) : (setMuster m s).readData = s.readData := rfl
@[simp] theorem setMuster_waitCycles (m : Muster) : (setMuster m s).waitCycles = s.waitCycles := rfl
@[simp] theorem setMuster_pins (m : Muster) : (setMuster m s).pins = s.pins := rfl
@[simp] theorem setMuster_sampled (m : Muster) : (setMuster m s).sampled = s.sampled := rfl
@[simp] theorem setMuster_drive (m : Muster) : (setMuster m s).drive = s.drive := rfl
@[simp] theorem setMuster_time (m : Muster) : (setMuster m s).time = s.time := rfl
@[simp] theorem setMuster_path (m : Muster) : (setMuster m s).path = (postAlways musterWords s).path := rfl
@[simp] theorem setMuster_channels (m : Muster) : (setMuster m s).channels = s.channels := rfl
@[simp] theorem setMuster_rate (m : Muster) : (setMuster m s).rate = s.rate := rfl
@[simp] theorem setMuster_cells (m : Muster) : (setMuster m s).cells = s.cells := rfl
@[simp] theorem setMuster_reevalDue (m : Muster) : (setMuster m s).reevalDue = s.reevalDue := rfl
@[simp] theorem setMuster_level (m : Muster) : (setMuster m s).level = { s.level with muster := m } := rfl
@[simp] theorem setMuster_ring (m : Muster) : (setMuster m s).ring = s.ring := rfl
@[simp] theorem setMuster_frame (m : Muster) : (setMuster m s).frame = s.frame := rfl
@[simp] theorem setMuster_call (m : Muster) : (setMuster m s).call = s.call := rfl
@[simp] theorem setMuster_road (m : Muster) : (setMuster m s).road = s.road := rfl
@[simp] theorem setMuster_chambers (m : Muster) : (setMuster m s).chambers = s.chambers := rfl
@[simp] theorem setMuster_fault (m : Muster) : (setMuster m s).fault = s.fault := rfl

/-! ## setList -/

@[simp] theorem setList_pending (l : List PartFrame) : (setList l s).pending = s.pending := rfl
@[simp] theorem setList_run (l : List PartFrame) : (setList l s).run = s.run := rfl
@[simp] theorem setList_strap (l : List PartFrame) : (setList l s).strap = s.strap := rfl
@[simp] theorem setList_resetKind (l : List PartFrame) : (setList l s).resetKind = s.resetKind := rfl
@[simp] theorem setList_resetCount (l : List PartFrame) : (setList l s).resetCount = s.resetCount := rfl
@[simp] theorem setList_copies (l : List PartFrame) : (setList l s).copies = s.copies := rfl
@[simp] theorem setList_staged (l : List PartFrame) : (setList l s).staged = s.staged := rfl
@[simp] theorem setList_effective (l : List PartFrame) : (setList l s).effective = s.effective := rfl
@[simp] theorem setList_mem (l : List PartFrame) : (setList l s).mem = s.mem := rfl
@[simp] theorem setList_readData (l : List PartFrame) : (setList l s).readData = s.readData := rfl
@[simp] theorem setList_waitCycles (l : List PartFrame) : (setList l s).waitCycles = s.waitCycles := rfl
@[simp] theorem setList_pins (l : List PartFrame) : (setList l s).pins = s.pins := rfl
@[simp] theorem setList_sampled (l : List PartFrame) : (setList l s).sampled = s.sampled := rfl
@[simp] theorem setList_drive (l : List PartFrame) : (setList l s).drive = s.drive := rfl
@[simp] theorem setList_time (l : List PartFrame) : (setList l s).time = s.time := rfl
@[simp] theorem setList_path (l : List PartFrame) : (setList l s).path = (reportChanged [0x170] s).path := rfl
@[simp] theorem setList_channels (l : List PartFrame) : (setList l s).channels = s.channels := rfl
@[simp] theorem setList_rate (l : List PartFrame) : (setList l s).rate = s.rate := rfl
@[simp] theorem setList_cells (l : List PartFrame) : (setList l s).cells = s.cells := rfl
@[simp] theorem setList_reevalDue (l : List PartFrame) : (setList l s).reevalDue = s.reevalDue := rfl
@[simp] theorem setList_level (l : List PartFrame) : (setList l s).level = s.level := rfl
@[simp] theorem setList_ring (l : List PartFrame) : (setList l s).ring = { s.ring with list := l } := rfl
@[simp] theorem setList_frame (l : List PartFrame) : (setList l s).frame = s.frame := rfl
@[simp] theorem setList_call (l : List PartFrame) : (setList l s).call = s.call := rfl
@[simp] theorem setList_road (l : List PartFrame) : (setList l s).road = s.road := rfl
@[simp] theorem setList_chambers (l : List PartFrame) : (setList l s).chambers = s.chambers := rfl
@[simp] theorem setList_fault (l : List PartFrame) : (setList l s).fault = s.fault := rfl

/-! ## changeCell -/

@[simp] theorem changeCell_pending (i : Fin 4) (f : Cell → Cell) : (changeCell i f s).pending = s.pending := rfl
@[simp] theorem changeCell_run (i : Fin 4) (f : Cell → Cell) : (changeCell i f s).run = s.run := rfl
@[simp] theorem changeCell_strap (i : Fin 4) (f : Cell → Cell) : (changeCell i f s).strap = s.strap := rfl
@[simp] theorem changeCell_resetKind (i : Fin 4) (f : Cell → Cell) : (changeCell i f s).resetKind = s.resetKind := rfl
@[simp] theorem changeCell_resetCount (i : Fin 4) (f : Cell → Cell) : (changeCell i f s).resetCount = s.resetCount := rfl
@[simp] theorem changeCell_copies (i : Fin 4) (f : Cell → Cell) : (changeCell i f s).copies = s.copies := rfl
@[simp] theorem changeCell_staged (i : Fin 4) (f : Cell → Cell) : (changeCell i f s).staged = s.staged := rfl
@[simp] theorem changeCell_effective (i : Fin 4) (f : Cell → Cell) : (changeCell i f s).effective = s.effective := rfl
@[simp] theorem changeCell_mem (i : Fin 4) (f : Cell → Cell) : (changeCell i f s).mem = s.mem := rfl
@[simp] theorem changeCell_readData (i : Fin 4) (f : Cell → Cell) : (changeCell i f s).readData = s.readData := rfl
@[simp] theorem changeCell_waitCycles (i : Fin 4) (f : Cell → Cell) : (changeCell i f s).waitCycles = s.waitCycles := rfl
@[simp] theorem changeCell_pins (i : Fin 4) (f : Cell → Cell) : (changeCell i f s).pins = s.pins := rfl
@[simp] theorem changeCell_sampled (i : Fin 4) (f : Cell → Cell) : (changeCell i f s).sampled = s.sampled := rfl
@[simp] theorem changeCell_drive (i : Fin 4) (f : Cell → Cell) : (changeCell i f s).drive = s.drive := rfl
@[simp] theorem changeCell_time (i : Fin 4) (f : Cell → Cell) : (changeCell i f s).time = s.time := rfl
@[simp] theorem changeCell_path (i : Fin 4) (f : Cell → Cell) : (changeCell i f s).path = s.path := rfl
@[simp] theorem changeCell_channels (i : Fin 4) (f : Cell → Cell) : (changeCell i f s).channels = s.channels := rfl
@[simp] theorem changeCell_rate (i : Fin 4) (f : Cell → Cell) : (changeCell i f s).rate = s.rate := rfl
@[simp] theorem changeCell_cells (i : Fin 4) (f : Cell → Cell) : (changeCell i f s).cells = modifyAt s.cells i f := rfl
@[simp] theorem changeCell_reevalDue (i : Fin 4) (f : Cell → Cell) : (changeCell i f s).reevalDue = s.reevalDue := rfl
@[simp] theorem changeCell_level (i : Fin 4) (f : Cell → Cell) : (changeCell i f s).level = s.level := rfl
@[simp] theorem changeCell_ring (i : Fin 4) (f : Cell → Cell) : (changeCell i f s).ring = s.ring := rfl
@[simp] theorem changeCell_frame (i : Fin 4) (f : Cell → Cell) : (changeCell i f s).frame = s.frame := rfl
@[simp] theorem changeCell_call (i : Fin 4) (f : Cell → Cell) : (changeCell i f s).call = s.call := rfl
@[simp] theorem changeCell_road (i : Fin 4) (f : Cell → Cell) : (changeCell i f s).road = s.road := rfl
@[simp] theorem changeCell_chambers (i : Fin 4) (f : Cell → Cell) : (changeCell i f s).chambers = s.chambers := rfl
@[simp] theorem changeCell_fault (i : Fin 4) (f : Cell → Cell) : (changeCell i f s).fault = s.fault := rfl

/-! ## postCell -/

@[simp] theorem postCell_pending (i : Fin 4) : (postCell i s).pending = s.pending := rfl
@[simp] theorem postCell_run (i : Fin 4) : (postCell i s).run = s.run := rfl
@[simp] theorem postCell_strap (i : Fin 4) : (postCell i s).strap = s.strap := rfl
@[simp] theorem postCell_resetKind (i : Fin 4) : (postCell i s).resetKind = s.resetKind := rfl
@[simp] theorem postCell_resetCount (i : Fin 4) : (postCell i s).resetCount = s.resetCount := rfl
@[simp] theorem postCell_copies (i : Fin 4) : (postCell i s).copies = s.copies := rfl
@[simp] theorem postCell_staged (i : Fin 4) : (postCell i s).staged = s.staged := rfl
@[simp] theorem postCell_effective (i : Fin 4) : (postCell i s).effective = s.effective := rfl
@[simp] theorem postCell_mem (i : Fin 4) : (postCell i s).mem = s.mem := rfl
@[simp] theorem postCell_readData (i : Fin 4) : (postCell i s).readData = s.readData := rfl
@[simp] theorem postCell_waitCycles (i : Fin 4) : (postCell i s).waitCycles = s.waitCycles := rfl
@[simp] theorem postCell_pins (i : Fin 4) : (postCell i s).pins = s.pins := rfl
@[simp] theorem postCell_sampled (i : Fin 4) : (postCell i s).sampled = s.sampled := rfl
@[simp] theorem postCell_drive (i : Fin 4) : (postCell i s).drive = s.drive := rfl
@[simp] theorem postCell_time (i : Fin 4) : (postCell i s).time = s.time := rfl
@[simp] theorem postCell_channels (i : Fin 4) : (postCell i s).channels = s.channels := rfl
@[simp] theorem postCell_rate (i : Fin 4) : (postCell i s).rate = s.rate := rfl
@[simp] theorem postCell_cells (i : Fin 4) : (postCell i s).cells = s.cells := rfl
@[simp] theorem postCell_reevalDue (i : Fin 4) : (postCell i s).reevalDue = s.reevalDue := rfl
@[simp] theorem postCell_level (i : Fin 4) : (postCell i s).level = s.level := rfl
@[simp] theorem postCell_ring (i : Fin 4) : (postCell i s).ring = s.ring := rfl
@[simp] theorem postCell_frame (i : Fin 4) : (postCell i s).frame = s.frame := rfl
@[simp] theorem postCell_call (i : Fin 4) : (postCell i s).call = s.call := rfl
@[simp] theorem postCell_road (i : Fin 4) : (postCell i s).road = s.road := rfl
@[simp] theorem postCell_chambers (i : Fin 4) : (postCell i s).chambers = s.chambers := rfl
@[simp] theorem postCell_fault (i : Fin 4) : (postCell i s).fault = s.fault := rfl

/-! ## changeChannel -/

@[simp] theorem changeChannel_pending (i : Fin 24) (f : Channel → Channel) : (changeChannel i f s).pending = s.pending := rfl
@[simp] theorem changeChannel_run (i : Fin 24) (f : Channel → Channel) : (changeChannel i f s).run = s.run := rfl
@[simp] theorem changeChannel_strap (i : Fin 24) (f : Channel → Channel) : (changeChannel i f s).strap = s.strap := rfl
@[simp] theorem changeChannel_resetKind (i : Fin 24) (f : Channel → Channel) : (changeChannel i f s).resetKind = s.resetKind := rfl
@[simp] theorem changeChannel_resetCount (i : Fin 24) (f : Channel → Channel) : (changeChannel i f s).resetCount = s.resetCount := rfl
@[simp] theorem changeChannel_copies (i : Fin 24) (f : Channel → Channel) : (changeChannel i f s).copies = s.copies := rfl
@[simp] theorem changeChannel_staged (i : Fin 24) (f : Channel → Channel) : (changeChannel i f s).staged = s.staged := rfl
@[simp] theorem changeChannel_effective (i : Fin 24) (f : Channel → Channel) : (changeChannel i f s).effective = s.effective := rfl
@[simp] theorem changeChannel_mem (i : Fin 24) (f : Channel → Channel) : (changeChannel i f s).mem = s.mem := rfl
@[simp] theorem changeChannel_readData (i : Fin 24) (f : Channel → Channel) : (changeChannel i f s).readData = s.readData := rfl
@[simp] theorem changeChannel_waitCycles (i : Fin 24) (f : Channel → Channel) : (changeChannel i f s).waitCycles = s.waitCycles := rfl
@[simp] theorem changeChannel_pins (i : Fin 24) (f : Channel → Channel) : (changeChannel i f s).pins = s.pins := rfl
@[simp] theorem changeChannel_sampled (i : Fin 24) (f : Channel → Channel) : (changeChannel i f s).sampled = s.sampled := rfl
@[simp] theorem changeChannel_drive (i : Fin 24) (f : Channel → Channel) : (changeChannel i f s).drive = s.drive := rfl
@[simp] theorem changeChannel_time (i : Fin 24) (f : Channel → Channel) : (changeChannel i f s).time = s.time := rfl
@[simp] theorem changeChannel_path (i : Fin 24) (f : Channel → Channel) : (changeChannel i f s).path = s.path := rfl
@[simp] theorem changeChannel_channels (i : Fin 24) (f : Channel → Channel) : (changeChannel i f s).channels = modifyAt s.channels i f := rfl
@[simp] theorem changeChannel_rate (i : Fin 24) (f : Channel → Channel) : (changeChannel i f s).rate = s.rate := rfl
@[simp] theorem changeChannel_cells (i : Fin 24) (f : Channel → Channel) : (changeChannel i f s).cells = s.cells := rfl
@[simp] theorem changeChannel_reevalDue (i : Fin 24) (f : Channel → Channel) : (changeChannel i f s).reevalDue = s.reevalDue := rfl
@[simp] theorem changeChannel_level (i : Fin 24) (f : Channel → Channel) : (changeChannel i f s).level = s.level := rfl
@[simp] theorem changeChannel_ring (i : Fin 24) (f : Channel → Channel) : (changeChannel i f s).ring = s.ring := rfl
@[simp] theorem changeChannel_frame (i : Fin 24) (f : Channel → Channel) : (changeChannel i f s).frame = s.frame := rfl
@[simp] theorem changeChannel_call (i : Fin 24) (f : Channel → Channel) : (changeChannel i f s).call = s.call := rfl
@[simp] theorem changeChannel_road (i : Fin 24) (f : Channel → Channel) : (changeChannel i f s).road = s.road := rfl
@[simp] theorem changeChannel_chambers (i : Fin 24) (f : Channel → Channel) : (changeChannel i f s).chambers = s.chambers := rfl
@[simp] theorem changeChannel_fault (i : Fin 24) (f : Channel → Channel) : (changeChannel i f s).fault = s.fault := rfl

/-! ## setCall -/

@[simp] theorem setCall_pending (p : Fin 8) (c : Option Call) : (setCall p c s).pending = s.pending := rfl
@[simp] theorem setCall_run (p : Fin 8) (c : Option Call) : (setCall p c s).run = s.run := rfl
@[simp] theorem setCall_strap (p : Fin 8) (c : Option Call) : (setCall p c s).strap = s.strap := rfl
@[simp] theorem setCall_resetKind (p : Fin 8) (c : Option Call) : (setCall p c s).resetKind = s.resetKind := rfl
@[simp] theorem setCall_resetCount (p : Fin 8) (c : Option Call) : (setCall p c s).resetCount = s.resetCount := rfl
@[simp] theorem setCall_copies (p : Fin 8) (c : Option Call) : (setCall p c s).copies = s.copies := rfl
@[simp] theorem setCall_staged (p : Fin 8) (c : Option Call) : (setCall p c s).staged = s.staged := rfl
@[simp] theorem setCall_effective (p : Fin 8) (c : Option Call) : (setCall p c s).effective = s.effective := rfl
@[simp] theorem setCall_mem (p : Fin 8) (c : Option Call) : (setCall p c s).mem = s.mem := rfl
@[simp] theorem setCall_readData (p : Fin 8) (c : Option Call) : (setCall p c s).readData = s.readData := rfl
@[simp] theorem setCall_waitCycles (p : Fin 8) (c : Option Call) : (setCall p c s).waitCycles = s.waitCycles := rfl
@[simp] theorem setCall_pins (p : Fin 8) (c : Option Call) : (setCall p c s).pins = s.pins := rfl
@[simp] theorem setCall_sampled (p : Fin 8) (c : Option Call) : (setCall p c s).sampled = s.sampled := rfl
@[simp] theorem setCall_drive (p : Fin 8) (c : Option Call) : (setCall p c s).drive = s.drive := rfl
@[simp] theorem setCall_time (p : Fin 8) (c : Option Call) : (setCall p c s).time = s.time := rfl
@[simp] theorem setCall_path (p : Fin 8) (c : Option Call) : (setCall p c s).path = (reportChanged (callWords p) s).path := rfl
@[simp] theorem setCall_channels (p : Fin 8) (c : Option Call) : (setCall p c s).channels = s.channels := rfl
@[simp] theorem setCall_rate (p : Fin 8) (c : Option Call) : (setCall p c s).rate = s.rate := rfl
@[simp] theorem setCall_cells (p : Fin 8) (c : Option Call) : (setCall p c s).cells = s.cells := rfl
@[simp] theorem setCall_reevalDue (p : Fin 8) (c : Option Call) : (setCall p c s).reevalDue = s.reevalDue := rfl
@[simp] theorem setCall_level (p : Fin 8) (c : Option Call) : (setCall p c s).level = s.level := rfl
@[simp] theorem setCall_ring (p : Fin 8) (c : Option Call) : (setCall p c s).ring = s.ring := rfl
@[simp] theorem setCall_frame (p : Fin 8) (c : Option Call) : (setCall p c s).frame = s.frame := rfl
@[simp] theorem setCall_call (p : Fin 8) (c : Option Call) : (setCall p c s).call = { s.call with table := s.call.table.set p c } := rfl
@[simp] theorem setCall_road (p : Fin 8) (c : Option Call) : (setCall p c s).road = s.road := rfl
@[simp] theorem setCall_chambers (p : Fin 8) (c : Option Call) : (setCall p c s).chambers = s.chambers := rfl
@[simp] theorem setCall_fault (p : Fin 8) (c : Option Call) : (setCall p c s).fault = s.fault := rfl

/-! ## departFrames -/

@[simp] theorem departFrames_pending (id : CallId) : (departFrames id s).pending = s.pending := rfl
@[simp] theorem departFrames_run (id : CallId) : (departFrames id s).run = s.run := rfl
@[simp] theorem departFrames_strap (id : CallId) : (departFrames id s).strap = s.strap := rfl
@[simp] theorem departFrames_resetKind (id : CallId) : (departFrames id s).resetKind = s.resetKind := rfl
@[simp] theorem departFrames_resetCount (id : CallId) : (departFrames id s).resetCount = s.resetCount := rfl
@[simp] theorem departFrames_copies (id : CallId) : (departFrames id s).copies = s.copies := rfl
@[simp] theorem departFrames_staged (id : CallId) : (departFrames id s).staged = s.staged := rfl
@[simp] theorem departFrames_effective (id : CallId) : (departFrames id s).effective = s.effective := rfl
@[simp] theorem departFrames_mem (id : CallId) : (departFrames id s).mem = s.mem := rfl
@[simp] theorem departFrames_readData (id : CallId) : (departFrames id s).readData = s.readData := rfl
@[simp] theorem departFrames_waitCycles (id : CallId) : (departFrames id s).waitCycles = s.waitCycles := rfl
@[simp] theorem departFrames_pins (id : CallId) : (departFrames id s).pins = s.pins := rfl
@[simp] theorem departFrames_sampled (id : CallId) : (departFrames id s).sampled = s.sampled := rfl
@[simp] theorem departFrames_drive (id : CallId) : (departFrames id s).drive = s.drive := rfl
@[simp] theorem departFrames_time (id : CallId) : (departFrames id s).time = s.time := rfl
@[simp] theorem departFrames_path (id : CallId) : (departFrames id s).path = s.path := rfl
@[simp] theorem departFrames_channels (id : CallId) : (departFrames id s).channels = s.channels := rfl
@[simp] theorem departFrames_rate (id : CallId) : (departFrames id s).rate = s.rate := rfl
@[simp] theorem departFrames_cells (id : CallId) : (departFrames id s).cells = s.cells := rfl
@[simp] theorem departFrames_reevalDue (id : CallId) : (departFrames id s).reevalDue = s.reevalDue := rfl
@[simp] theorem departFrames_level (id : CallId) : (departFrames id s).level = s.level := rfl
@[simp] theorem departFrames_ring (id : CallId) : (departFrames id s).ring =
    { s.ring with departed := tabulate (fun n => s.ring.departed[n] || callInFlight s id n) } := rfl
@[simp] theorem departFrames_frame (id : CallId) : (departFrames id s).frame = s.frame := rfl
@[simp] theorem departFrames_call (id : CallId) : (departFrames id s).call = s.call := rfl
@[simp] theorem departFrames_road (id : CallId) : (departFrames id s).road = s.road := rfl
@[simp] theorem departFrames_chambers (id : CallId) : (departFrames id s).chambers = s.chambers := rfl
@[simp] theorem departFrames_fault (id : CallId) : (departFrames id s).fault = s.fault := rfl

/-! ## countCall -/

@[simp] theorem countCall_pending (f : CallUnit → CallUnit) : (countCall f s).pending = s.pending := rfl
@[simp] theorem countCall_run (f : CallUnit → CallUnit) : (countCall f s).run = s.run := rfl
@[simp] theorem countCall_strap (f : CallUnit → CallUnit) : (countCall f s).strap = s.strap := rfl
@[simp] theorem countCall_resetKind (f : CallUnit → CallUnit) : (countCall f s).resetKind = s.resetKind := rfl
@[simp] theorem countCall_resetCount (f : CallUnit → CallUnit) : (countCall f s).resetCount = s.resetCount := rfl
@[simp] theorem countCall_copies (f : CallUnit → CallUnit) : (countCall f s).copies = s.copies := rfl
@[simp] theorem countCall_staged (f : CallUnit → CallUnit) : (countCall f s).staged = s.staged := rfl
@[simp] theorem countCall_effective (f : CallUnit → CallUnit) : (countCall f s).effective = s.effective := rfl
@[simp] theorem countCall_mem (f : CallUnit → CallUnit) : (countCall f s).mem = s.mem := rfl
@[simp] theorem countCall_readData (f : CallUnit → CallUnit) : (countCall f s).readData = s.readData := rfl
@[simp] theorem countCall_waitCycles (f : CallUnit → CallUnit) : (countCall f s).waitCycles = s.waitCycles := rfl
@[simp] theorem countCall_pins (f : CallUnit → CallUnit) : (countCall f s).pins = s.pins := rfl
@[simp] theorem countCall_sampled (f : CallUnit → CallUnit) : (countCall f s).sampled = s.sampled := rfl
@[simp] theorem countCall_drive (f : CallUnit → CallUnit) : (countCall f s).drive = s.drive := rfl
@[simp] theorem countCall_time (f : CallUnit → CallUnit) : (countCall f s).time = s.time := rfl
@[simp] theorem countCall_path (f : CallUnit → CallUnit) : (countCall f s).path = (reportChanged [0x200, 0x204] s).path := rfl
@[simp] theorem countCall_channels (f : CallUnit → CallUnit) : (countCall f s).channels = s.channels := rfl
@[simp] theorem countCall_rate (f : CallUnit → CallUnit) : (countCall f s).rate = s.rate := rfl
@[simp] theorem countCall_cells (f : CallUnit → CallUnit) : (countCall f s).cells = s.cells := rfl
@[simp] theorem countCall_reevalDue (f : CallUnit → CallUnit) : (countCall f s).reevalDue = s.reevalDue := rfl
@[simp] theorem countCall_level (f : CallUnit → CallUnit) : (countCall f s).level = s.level := rfl
@[simp] theorem countCall_ring (f : CallUnit → CallUnit) : (countCall f s).ring = s.ring := rfl
@[simp] theorem countCall_frame (f : CallUnit → CallUnit) : (countCall f s).frame = s.frame := rfl
@[simp] theorem countCall_call (f : CallUnit → CallUnit) : (countCall f s).call = f s.call := rfl
@[simp] theorem countCall_road (f : CallUnit → CallUnit) : (countCall f s).road = s.road := rfl
@[simp] theorem countCall_chambers (f : CallUnit → CallUnit) : (countCall f s).chambers = s.chambers := rfl
@[simp] theorem countCall_fault (f : CallUnit → CallUnit) : (countCall f s).fault = s.fault := rfl

/-! ## setDistress -/

@[simp] theorem setDistress_pending (l : List Distress) : (setDistress l s).pending = s.pending := rfl
@[simp] theorem setDistress_run (l : List Distress) : (setDistress l s).run = s.run := rfl
@[simp] theorem setDistress_strap (l : List Distress) : (setDistress l s).strap = s.strap := rfl
@[simp] theorem setDistress_resetKind (l : List Distress) : (setDistress l s).resetKind = s.resetKind := rfl
@[simp] theorem setDistress_resetCount (l : List Distress) : (setDistress l s).resetCount = s.resetCount := rfl
@[simp] theorem setDistress_copies (l : List Distress) : (setDistress l s).copies = s.copies := rfl
@[simp] theorem setDistress_staged (l : List Distress) : (setDistress l s).staged = s.staged := rfl
@[simp] theorem setDistress_effective (l : List Distress) : (setDistress l s).effective = s.effective := rfl
@[simp] theorem setDistress_mem (l : List Distress) : (setDistress l s).mem = s.mem := rfl
@[simp] theorem setDistress_readData (l : List Distress) : (setDistress l s).readData = s.readData := rfl
@[simp] theorem setDistress_waitCycles (l : List Distress) : (setDistress l s).waitCycles = s.waitCycles := rfl
@[simp] theorem setDistress_pins (l : List Distress) : (setDistress l s).pins = s.pins := rfl
@[simp] theorem setDistress_sampled (l : List Distress) : (setDistress l s).sampled = s.sampled := rfl
@[simp] theorem setDistress_drive (l : List Distress) : (setDistress l s).drive = s.drive := rfl
@[simp] theorem setDistress_time (l : List Distress) : (setDistress l s).time = s.time := rfl
@[simp] theorem setDistress_path (l : List Distress) : (setDistress l s).path = (reportChanged distressWords s).path := rfl
@[simp] theorem setDistress_channels (l : List Distress) : (setDistress l s).channels = s.channels := rfl
@[simp] theorem setDistress_rate (l : List Distress) : (setDistress l s).rate = s.rate := rfl
@[simp] theorem setDistress_cells (l : List Distress) : (setDistress l s).cells = s.cells := rfl
@[simp] theorem setDistress_reevalDue (l : List Distress) : (setDistress l s).reevalDue = s.reevalDue := rfl
@[simp] theorem setDistress_level (l : List Distress) : (setDistress l s).level = s.level := rfl
@[simp] theorem setDistress_ring (l : List Distress) : (setDistress l s).ring = s.ring := rfl
@[simp] theorem setDistress_frame (l : List Distress) : (setDistress l s).frame = s.frame := rfl
@[simp] theorem setDistress_call (l : List Distress) : (setDistress l s).call = { s.call with distress := l } := rfl
@[simp] theorem setDistress_road (l : List Distress) : (setDistress l s).road = s.road := rfl
@[simp] theorem setDistress_chambers (l : List Distress) : (setDistress l s).chambers = s.chambers := rfl
@[simp] theorem setDistress_fault (l : List Distress) : (setDistress l s).fault = s.fault := rfl

/-! ## removeDistress -/

@[simp] theorem removeDistress_pending (m : Id) : (removeDistress m s).pending = s.pending := rfl
@[simp] theorem removeDistress_run (m : Id) : (removeDistress m s).run = s.run := rfl
@[simp] theorem removeDistress_strap (m : Id) : (removeDistress m s).strap = s.strap := rfl
@[simp] theorem removeDistress_resetKind (m : Id) : (removeDistress m s).resetKind = s.resetKind := rfl
@[simp] theorem removeDistress_resetCount (m : Id) : (removeDistress m s).resetCount = s.resetCount := rfl
@[simp] theorem removeDistress_copies (m : Id) : (removeDistress m s).copies = s.copies := rfl
@[simp] theorem removeDistress_staged (m : Id) : (removeDistress m s).staged = s.staged := rfl
@[simp] theorem removeDistress_effective (m : Id) : (removeDistress m s).effective = s.effective := rfl
@[simp] theorem removeDistress_mem (m : Id) : (removeDistress m s).mem = s.mem := rfl
@[simp] theorem removeDistress_readData (m : Id) : (removeDistress m s).readData = s.readData := rfl
@[simp] theorem removeDistress_waitCycles (m : Id) : (removeDistress m s).waitCycles = s.waitCycles := rfl
@[simp] theorem removeDistress_pins (m : Id) : (removeDistress m s).pins = s.pins := rfl
@[simp] theorem removeDistress_sampled (m : Id) : (removeDistress m s).sampled = s.sampled := rfl
@[simp] theorem removeDistress_drive (m : Id) : (removeDistress m s).drive = s.drive := rfl
@[simp] theorem removeDistress_time (m : Id) : (removeDistress m s).time = s.time := rfl
@[simp] theorem removeDistress_path (m : Id) : (removeDistress m s).path = { s.path with reports := s.path.reports
    ++ (wordRange (0x210 + 16 * distressPlace s m) (4 * (s.call.distress.length - distressPlace s m))).map Post.always
    ++ [Post.changed 0x290] } := rfl
@[simp] theorem removeDistress_channels (m : Id) : (removeDistress m s).channels = s.channels := rfl
@[simp] theorem removeDistress_rate (m : Id) : (removeDistress m s).rate = s.rate := rfl
@[simp] theorem removeDistress_cells (m : Id) : (removeDistress m s).cells = s.cells := rfl
@[simp] theorem removeDistress_reevalDue (m : Id) : (removeDistress m s).reevalDue = s.reevalDue := rfl
@[simp] theorem removeDistress_level (m : Id) : (removeDistress m s).level = s.level := rfl
@[simp] theorem removeDistress_ring (m : Id) : (removeDistress m s).ring = s.ring := rfl
@[simp] theorem removeDistress_frame (m : Id) : (removeDistress m s).frame = s.frame := rfl
@[simp] theorem removeDistress_call (m : Id) : (removeDistress m s).call = { s.call with distress := s.call.distress.filter (fun e => e.miner != m) } := rfl
@[simp] theorem removeDistress_road (m : Id) : (removeDistress m s).road = s.road := rfl
@[simp] theorem removeDistress_chambers (m : Id) : (removeDistress m s).chambers = s.chambers := rfl
@[simp] theorem removeDistress_fault (m : Id) : (removeDistress m s).fault = s.fault := rfl

/-! ## changeChamber -/

@[simp] theorem changeChamber_pending (c : Fin 4) (f : Chamber → Chamber) : (changeChamber c f s).pending = s.pending := rfl
@[simp] theorem changeChamber_run (c : Fin 4) (f : Chamber → Chamber) : (changeChamber c f s).run = s.run := rfl
@[simp] theorem changeChamber_strap (c : Fin 4) (f : Chamber → Chamber) : (changeChamber c f s).strap = s.strap := rfl
@[simp] theorem changeChamber_resetKind (c : Fin 4) (f : Chamber → Chamber) : (changeChamber c f s).resetKind = s.resetKind := rfl
@[simp] theorem changeChamber_resetCount (c : Fin 4) (f : Chamber → Chamber) : (changeChamber c f s).resetCount = s.resetCount := rfl
@[simp] theorem changeChamber_copies (c : Fin 4) (f : Chamber → Chamber) : (changeChamber c f s).copies = s.copies := rfl
@[simp] theorem changeChamber_staged (c : Fin 4) (f : Chamber → Chamber) : (changeChamber c f s).staged = s.staged := rfl
@[simp] theorem changeChamber_effective (c : Fin 4) (f : Chamber → Chamber) : (changeChamber c f s).effective = s.effective := rfl
@[simp] theorem changeChamber_mem (c : Fin 4) (f : Chamber → Chamber) : (changeChamber c f s).mem = s.mem := rfl
@[simp] theorem changeChamber_readData (c : Fin 4) (f : Chamber → Chamber) : (changeChamber c f s).readData = s.readData := rfl
@[simp] theorem changeChamber_waitCycles (c : Fin 4) (f : Chamber → Chamber) : (changeChamber c f s).waitCycles = s.waitCycles := rfl
@[simp] theorem changeChamber_pins (c : Fin 4) (f : Chamber → Chamber) : (changeChamber c f s).pins = s.pins := rfl
@[simp] theorem changeChamber_sampled (c : Fin 4) (f : Chamber → Chamber) : (changeChamber c f s).sampled = s.sampled := rfl
@[simp] theorem changeChamber_drive (c : Fin 4) (f : Chamber → Chamber) : (changeChamber c f s).drive = s.drive := rfl
@[simp] theorem changeChamber_time (c : Fin 4) (f : Chamber → Chamber) : (changeChamber c f s).time = s.time := rfl
@[simp] theorem changeChamber_path (c : Fin 4) (f : Chamber → Chamber) : (changeChamber c f s).path = (reportChanged (chamberWords c) s).path := rfl
@[simp] theorem changeChamber_channels (c : Fin 4) (f : Chamber → Chamber) : (changeChamber c f s).channels = s.channels := rfl
@[simp] theorem changeChamber_rate (c : Fin 4) (f : Chamber → Chamber) : (changeChamber c f s).rate = s.rate := rfl
@[simp] theorem changeChamber_cells (c : Fin 4) (f : Chamber → Chamber) : (changeChamber c f s).cells = s.cells := rfl
@[simp] theorem changeChamber_reevalDue (c : Fin 4) (f : Chamber → Chamber) : (changeChamber c f s).reevalDue = s.reevalDue := rfl
@[simp] theorem changeChamber_level (c : Fin 4) (f : Chamber → Chamber) : (changeChamber c f s).level = s.level := rfl
@[simp] theorem changeChamber_ring (c : Fin 4) (f : Chamber → Chamber) : (changeChamber c f s).ring = s.ring := rfl
@[simp] theorem changeChamber_frame (c : Fin 4) (f : Chamber → Chamber) : (changeChamber c f s).frame = s.frame := rfl
@[simp] theorem changeChamber_call (c : Fin 4) (f : Chamber → Chamber) : (changeChamber c f s).call = s.call := rfl
@[simp] theorem changeChamber_road (c : Fin 4) (f : Chamber → Chamber) : (changeChamber c f s).road = s.road := rfl
@[simp] theorem changeChamber_chambers (c : Fin 4) (f : Chamber → Chamber) : (changeChamber c f s).chambers = modifyAt s.chambers c f := rfl
@[simp] theorem changeChamber_fault (c : Fin 4) (f : Chamber → Chamber) : (changeChamber c f s).fault = s.fault := rfl

/-! ## countRoad -/

@[simp] theorem countRoad_pending (f : RoadUnit → RoadUnit) : (countRoad f s).pending = s.pending := rfl
@[simp] theorem countRoad_run (f : RoadUnit → RoadUnit) : (countRoad f s).run = s.run := rfl
@[simp] theorem countRoad_strap (f : RoadUnit → RoadUnit) : (countRoad f s).strap = s.strap := rfl
@[simp] theorem countRoad_resetKind (f : RoadUnit → RoadUnit) : (countRoad f s).resetKind = s.resetKind := rfl
@[simp] theorem countRoad_resetCount (f : RoadUnit → RoadUnit) : (countRoad f s).resetCount = s.resetCount := rfl
@[simp] theorem countRoad_copies (f : RoadUnit → RoadUnit) : (countRoad f s).copies = s.copies := rfl
@[simp] theorem countRoad_staged (f : RoadUnit → RoadUnit) : (countRoad f s).staged = s.staged := rfl
@[simp] theorem countRoad_effective (f : RoadUnit → RoadUnit) : (countRoad f s).effective = s.effective := rfl
@[simp] theorem countRoad_mem (f : RoadUnit → RoadUnit) : (countRoad f s).mem = s.mem := rfl
@[simp] theorem countRoad_readData (f : RoadUnit → RoadUnit) : (countRoad f s).readData = s.readData := rfl
@[simp] theorem countRoad_waitCycles (f : RoadUnit → RoadUnit) : (countRoad f s).waitCycles = s.waitCycles := rfl
@[simp] theorem countRoad_pins (f : RoadUnit → RoadUnit) : (countRoad f s).pins = s.pins := rfl
@[simp] theorem countRoad_sampled (f : RoadUnit → RoadUnit) : (countRoad f s).sampled = s.sampled := rfl
@[simp] theorem countRoad_drive (f : RoadUnit → RoadUnit) : (countRoad f s).drive = s.drive := rfl
@[simp] theorem countRoad_time (f : RoadUnit → RoadUnit) : (countRoad f s).time = s.time := rfl
@[simp] theorem countRoad_path (f : RoadUnit → RoadUnit) : (countRoad f s).path = (reportChanged [0x504] s).path := rfl
@[simp] theorem countRoad_channels (f : RoadUnit → RoadUnit) : (countRoad f s).channels = s.channels := rfl
@[simp] theorem countRoad_rate (f : RoadUnit → RoadUnit) : (countRoad f s).rate = s.rate := rfl
@[simp] theorem countRoad_cells (f : RoadUnit → RoadUnit) : (countRoad f s).cells = s.cells := rfl
@[simp] theorem countRoad_reevalDue (f : RoadUnit → RoadUnit) : (countRoad f s).reevalDue = s.reevalDue := rfl
@[simp] theorem countRoad_level (f : RoadUnit → RoadUnit) : (countRoad f s).level = s.level := rfl
@[simp] theorem countRoad_ring (f : RoadUnit → RoadUnit) : (countRoad f s).ring = s.ring := rfl
@[simp] theorem countRoad_frame (f : RoadUnit → RoadUnit) : (countRoad f s).frame = s.frame := rfl
@[simp] theorem countRoad_call (f : RoadUnit → RoadUnit) : (countRoad f s).call = s.call := rfl
@[simp] theorem countRoad_road (f : RoadUnit → RoadUnit) : (countRoad f s).road = f s.road := rfl
@[simp] theorem countRoad_chambers (f : RoadUnit → RoadUnit) : (countRoad f s).chambers = s.chambers := rfl
@[simp] theorem countRoad_fault (f : RoadUnit → RoadUnit) : (countRoad f s).fault = s.fault := rfl

/-! ## changeFrame -/

@[simp] theorem changeFrame_pending (f : FrameUnit → FrameUnit) : (changeFrame f s).pending = s.pending := rfl
@[simp] theorem changeFrame_run (f : FrameUnit → FrameUnit) : (changeFrame f s).run = s.run := rfl
@[simp] theorem changeFrame_strap (f : FrameUnit → FrameUnit) : (changeFrame f s).strap = s.strap := rfl
@[simp] theorem changeFrame_resetKind (f : FrameUnit → FrameUnit) : (changeFrame f s).resetKind = s.resetKind := rfl
@[simp] theorem changeFrame_resetCount (f : FrameUnit → FrameUnit) : (changeFrame f s).resetCount = s.resetCount := rfl
@[simp] theorem changeFrame_copies (f : FrameUnit → FrameUnit) : (changeFrame f s).copies = s.copies := rfl
@[simp] theorem changeFrame_staged (f : FrameUnit → FrameUnit) : (changeFrame f s).staged = s.staged := rfl
@[simp] theorem changeFrame_effective (f : FrameUnit → FrameUnit) : (changeFrame f s).effective = s.effective := rfl
@[simp] theorem changeFrame_mem (f : FrameUnit → FrameUnit) : (changeFrame f s).mem = s.mem := rfl
@[simp] theorem changeFrame_readData (f : FrameUnit → FrameUnit) : (changeFrame f s).readData = s.readData := rfl
@[simp] theorem changeFrame_waitCycles (f : FrameUnit → FrameUnit) : (changeFrame f s).waitCycles = s.waitCycles := rfl
@[simp] theorem changeFrame_pins (f : FrameUnit → FrameUnit) : (changeFrame f s).pins = s.pins := rfl
@[simp] theorem changeFrame_sampled (f : FrameUnit → FrameUnit) : (changeFrame f s).sampled = s.sampled := rfl
@[simp] theorem changeFrame_drive (f : FrameUnit → FrameUnit) : (changeFrame f s).drive = s.drive := rfl
@[simp] theorem changeFrame_time (f : FrameUnit → FrameUnit) : (changeFrame f s).time = s.time := rfl
@[simp] theorem changeFrame_path (f : FrameUnit → FrameUnit) : (changeFrame f s).path = s.path := rfl
@[simp] theorem changeFrame_channels (f : FrameUnit → FrameUnit) : (changeFrame f s).channels = s.channels := rfl
@[simp] theorem changeFrame_rate (f : FrameUnit → FrameUnit) : (changeFrame f s).rate = s.rate := rfl
@[simp] theorem changeFrame_cells (f : FrameUnit → FrameUnit) : (changeFrame f s).cells = s.cells := rfl
@[simp] theorem changeFrame_reevalDue (f : FrameUnit → FrameUnit) : (changeFrame f s).reevalDue = s.reevalDue := rfl
@[simp] theorem changeFrame_level (f : FrameUnit → FrameUnit) : (changeFrame f s).level = s.level := rfl
@[simp] theorem changeFrame_ring (f : FrameUnit → FrameUnit) : (changeFrame f s).ring = s.ring := rfl
@[simp] theorem changeFrame_frame (f : FrameUnit → FrameUnit) : (changeFrame f s).frame = f s.frame := rfl
@[simp] theorem changeFrame_call (f : FrameUnit → FrameUnit) : (changeFrame f s).call = s.call := rfl
@[simp] theorem changeFrame_road (f : FrameUnit → FrameUnit) : (changeFrame f s).road = s.road := rfl
@[simp] theorem changeFrame_chambers (f : FrameUnit → FrameUnit) : (changeFrame f s).chambers = s.chambers := rfl
@[simp] theorem changeFrame_fault (f : FrameUnit → FrameUnit) : (changeFrame f s).fault = s.fault := rfl

end Sys2Proof.Machine
end

