-- ==== Sys2Proof/Laws/Tables.lean ====
section
/-! SUPPORT. What the table operations do: a changed entry, a mapped table, the first index found, a loop over the indices. -/

set_option Elab.async false

namespace Sys2Proof.Machine

/-- The entry that `modifyAt` changes. -/
@[simp] theorem modifyAt_self {α : Type} {n : Nat} (v : Vector α n) (i : Fin n) (f : α → α) :
    (modifyAt v i f)[i.val] = f v[i.val] := by simp [modifyAt]

/-- `modifyAt` leaves every other entry. -/
theorem modifyAt_other {α : Type} {n : Nat} (v : Vector α n) {i j : Fin n} (f : α → α) (h : j ≠ i) :
    (modifyAt v i f)[j] = v[j] := by
  have : (i : Nat) ≠ j := fun e => h (Fin.ext e.symm)
  simp [modifyAt, this]

/-- Every entry of a table after `modifyAt`. -/
theorem modifyAt_get {α : Type} {n : Nat} (v : Vector α n) (i j : Fin n) (f : α → α) :
    (modifyAt v i f)[j] = if j = i then f v[i] else v[j] := by
  by_cases h : j = i
  · subst h; simp
  · rw [modifyAt_other v f h, if_neg h]

/-- Every entry of a mapped table. -/
@[simp] theorem mapTable_get {α β : Type} {n : Nat} (f : α → β) (v : Vector α n) (i : Fin n) :
    (mapTable f v)[i.val] = f v[i.val] := by
  simp [mapTable]

/-- Every entry of a tabulated table. -/
@[simp] theorem tabulate_get {α : Type} {n : Nat} (f : Fin n → α) (i : Fin n) : (tabulate f)[i.val] = f i := by
  simp [tabulate]

/-- `findIndex` answers an index whose entry satisfies `p`, and none below it does. -/
theorem findIndex_some {α : Type} {n : Nat} {v : Vector α n} {p : α → Bool} {i : Fin n} (h : findIndex v p = some i) :
    p v[i] = true ∧ ∀ j < i, p v[j] = false := by
  obtain ⟨hi, as, bs, happ, hno⟩ := List.find?_eq_some_iff_append.mp h
  refine ⟨by simpa using hi, fun j hj => ?_⟩
  have hs : (List.finRange n).Pairwise (· < ·) := List.sortedLT_finRange n |>.pairwise
  rw [happ] at hs
  have hj' : j ∈ as ++ i :: bs := happ ▸ List.mem_finRange j
  rcases List.mem_append.mp hj' with ha | hb
  · simpa using hno j ha
  · rcases List.mem_cons.mp hb with rfl | hb
    · exact absurd hj (lt_irrefl _)
    · exact absurd ((List.pairwise_cons.mp (List.pairwise_append.mp hs).2.1).1 j hb) (lt_asymm hj)

/-- `findIndex` answers none exactly where no entry satisfies `p`. -/
theorem findIndex_none {α : Type} {n : Nat} {v : Vector α n} {p : α → Bool} :
    findIndex v p = none ↔ ∀ i : Fin n, p v[i] = false := by
  simp [findIndex, List.find?_eq_none]

/-- What a loop over the indices keeps is what each of its turns keeps. -/
theorem forEach_keeps {σ : Type} {n : Nat} {f : Fin n → σ → σ} (P : σ → Prop) (hf : ∀ i s, P s → P (f i s)) (s : σ)
    (h : P s) : P (forEach n f s) := by
  unfold forEach
  generalize List.finRange n = l
  induction l generalizing s with
  | nil => exact h
  | cons i rest ih => exact ih _ (hf i s h)

/-- What a loop over a list keeps is what each of its turns keeps. -/
theorem foldl_keeps {σ α : Type} {f : σ → α → σ} (P : σ → Prop) (hf : ∀ s a, P s → P (f s a)) (l : List α) (s : σ)
    (h : P s) : P (l.foldl f s) := by
  induction l generalizing s with
  | nil => exact h
  | cons a rest ih => exact ih _ (hf s a h)

end Sys2Proof.Machine
end

