-- ==== Sys2Proof/Laws/Frames.lean ====
section
/-! SUPPORT. What a unit's operations inside an event leave as it was: `SameBut` composes, and each shared operation keeps it.
`Within` says besides that the operation touches neither memory nor the own-write queue nor the lines nor a shadow. -/

set_option Elab.async false

namespace Sys2Proof.Machine

open Sys2Proof.Config

/-! ## SameBut composes -/

theorem SameBase.refl (s : State) : SameBase s s := by simp [SameBase]

theorem SameBase.trans {s u t : State} (h : SameBase s u) (k : SameBase u t) : SameBase s t := by
  simp only [SameBase] at *; grind

theorem SameLevel.refl (s : State) : SameLevel s s := by simp [SameLevel]

theorem SameLevel.trans {s u t : State} (h : SameLevel s u) (k : SameLevel u t) : SameLevel s t := by
  obtain ⟨h1, h2, h3, h4, h5⟩ := h
  obtain ⟨k1, k2, k3, k4, k5⟩ := k
  refine ⟨k1.trans h1, k2.trans h2, k3.trans h3, fun hs => ?_, fun m hm => (k5 m hm).trans (h5 m hm)⟩
  have hu := h4 hs
  exact (k4 (hu ▸ hs)).trans hu

theorem SameRoad.refl (s : State) : SameRoad s s := by simp [SameRoad]

theorem SameRoad.trans {s u t : State} (h : SameRoad s u) (k : SameRoad u t) : SameRoad s t := by
  obtain ⟨h1, h2, h3, h4⟩ := h
  obtain ⟨k1, k2, k3, k4⟩ := k
  refine ⟨k1.trans h1, k2.trans h2, fun i => ⟨(k3 i).1.trans (h3 i).1, (k3 i).2.trans (h3 i).2⟩, fun p => ?_⟩
  rcases k4 p with kp | ⟨kn, x, kx, kf⟩
  · rcases h4 p with hp | ⟨hn, hx⟩
    · exact .inl (kp.trans hp)
    · exact .inr ⟨kp.trans hn, hx⟩
  · rcases h4 p with hp | ⟨hn, hx⟩
    · exact .inr ⟨kn, x, hp ▸ kx, kf⟩
    · exact .inr ⟨kn, hx⟩

theorem SameFault.refl (s : State) : SameFault s s := by simp [SameFault]

theorem SameFault.trans {s u t : State} (h : SameFault s u) (k : SameFault u t) : SameFault s t :=
  ⟨k.1.trans h.1, k.2.1.trans h.2.1, fun i a b c => (k.2.2 i a b c).trans (h.2.2 i a b c)⟩

theorem SamePath.refl (s : State) : SamePath s s := by simp [SamePath]

theorem SamePath.trans {s u t : State} (h : SamePath s u) (k : SamePath u t) : SamePath s t := by
  simp only [SamePath] at *; grind

/-- A state differs from itself in nothing. -/
theorem SameBut.refl (l : List Area) (s : State) : SameBut l s s := by
  simp [SameBut, SameBase.refl, SameLevel.refl, SameRoad.refl, SameFault.refl, SamePath.refl]

/-- Two changes within the same areas make one. -/
theorem SameBut.trans {l : List Area} {s u t : State} (h : SameBut l s u) (k : SameBut l u t) : SameBut l s t := by
  obtain ⟨h1, h2, h3, h4, h5, h6, hd, h7, h8, h9, ha, hb, hc⟩ := h
  obtain ⟨k1, k2, k3, k4, k5, k6, kd, k7, k8, k9, ka, kb, kc⟩ := k
  exact ⟨h1.trans k1, fun n => (k2 n).trans (h2 n), fun n => ⟨(k3 n).1.trans (h3 n).1, (k3 n).2.trans (h3 n).2⟩,
    fun n => ⟨(k4 n).1.trans (h4 n).1, (k4 n).2.trans (h4 n).2⟩, fun n => (h5 n).trans (k5 n), fun n => (k6 n).trans (h6 n),
    fun n m => (kd n m).trans (hd n m),
    fun n => (k7 n).trans (h7 n), fun n => (k8 n).trans (h8 n), fun n => (h9 n).trans (k9 n), fun n => (ka n).trans (ha n),
    fun n => (hb n).trans (kb n), fun n => (hc n).trans (kc n)⟩

/-- A change within some areas is one within more. -/
theorem SameBut.mono {l k : List Area} {s t : State} (hs : ∀ a ∈ l, a ∈ k) (h : SameBut l s t) : SameBut k s t := by
  obtain ⟨h1, h2, h3, h4, h5, h6, hd, h7, h8, h9, ha, hb, hc⟩ := h
  exact ⟨h1, fun n => h2 (fun m => n (hs _ m)), fun n => h3 (fun m => n (hs _ m)), fun n => h4 (fun m => n (hs _ m)),
    fun n => h5 (fun m => n (hs _ m)), fun n => h6 (fun m => n (hs _ m)),
    fun n n' => hd (fun m => n (hs _ m)) (fun m => n' (hs _ m)), fun n => h7 (fun m => n (hs _ m)),
    fun n => h8 (fun m => n (hs _ m)), fun n => h9 (fun m => n (hs _ m)), fun n => ha (fun m => n (hs _ m)),
    fun n => hb (fun m => n (hs _ m)), fun n => hc (fun m => n (hs _ m))⟩

/-! ## Within -/

/-- `t` follows from `s` by a unit's work inside an event: it differs from `s` only in the listed areas, in what any event may
change, and in what is handed on. -/
def Within (l : List Area) (s t : State) : Prop :=
  SameBut l s t ∧ t.mem = s.mem ∧ t.path.queue = s.path.queue ∧ t.path.followUp = s.path.followUp
    ∧ t.path.sweep = s.path.sweep ∧ t.waitCycles = s.waitCycles ∧ t.drive = s.drive
    ∧ t.ring.shadows = s.ring.shadows ∧ t.ring.fill = s.ring.fill ∧ t.path.shown = s.path.shown

theorem Within.refl (l : List Area) (s : State) : Within l s s :=
  ⟨SameBut.refl l s, rfl, rfl, rfl, rfl, rfl, rfl, rfl, rfl, rfl⟩

theorem Within.trans {l : List Area} {s u t : State} (h : Within l s u) (k : Within l u t) : Within l s t := by
  obtain ⟨h0, h1, h2, h3, h4, h5, h6, h7, h8, h9⟩ := h
  obtain ⟨k0, k1, k2, k3, k4, k5, k6, k7, k8, k9⟩ := k
  exact ⟨h0.trans k0, k1.trans h1, k2.trans h2, k3.trans h3, k4.trans h4, k5.trans h5, k6.trans h6, k7.trans h7, k8.trans h8,
    k9.trans h9⟩

theorem Within.mono {l k : List Area} {s t : State} (hs : ∀ a ∈ l, a ∈ k) (h : Within l s t) : Within k s t :=
  ⟨h.1.mono hs, h.2⟩

/-- A change within some areas followed by one within none. -/
theorem Within.andThen {l : List Area} {s u t : State} (h : Within l s u) (k : Within [] u t) : Within l s t :=
  h.trans (k.mono (by simp))

/-- A loop over the indices stays within what its turns stay within. -/
theorem forEach_within {l : List Area} {n : Nat} {f : Fin n → State → State} (hf : ∀ i u, Within l u (f i u)) (s : State) :
    Within l s (forEach n f s) :=
  forEach_keeps (Within l s) (fun i u h => h.trans (hf i u)) s (Within.refl l s)

/-- A loop over a list stays within what its turns stay within. -/
theorem foldl_within {α : Type} {l : List Area} {f : State → α → State} (hf : ∀ a u, Within l u (f u a)) (as : List α)
    (s : State) : Within l s (as.foldl f s) :=
  foldl_keeps (Within l s) (fun u a h => h.trans (hf a u)) as s (Within.refl l s)

/-! ## The plain updates -/

theorem postChanged_within (l : List Nat) (s : State) : Within [] s (postChanged l s) := by
  simp [Within, SameBut, SameBase, SameLevel, SameRoad, SameFault, SamePath]

theorem postAlways_within (l : List Nat) (s : State) : Within [] s (postAlways l s) := by
  simp [Within, SameBut, SameBase, SameLevel, SameRoad, SameFault, SamePath]

theorem reportChanged_within (l : List Nat) (s : State) : Within [] s (reportChanged l s) := by
  simp [Within, SameBut, SameBase, SameLevel, SameRoad, SameFault, SamePath]

theorem reportAlways_within (l : List Nat) (s : State) : Within [] s (reportAlways l s) := by
  simp [Within, SameBut, SameBase, SameLevel, SameRoad, SameFault, SamePath]

theorem post_within (p : Post) (s : State) : Within [] s (post p s) := by
  simp [Within, SameBut, SameBase, SameLevel, SameRoad, SameFault, SamePath]

theorem requestFrame_within (f : PartFrame) (s : State) : Within [] s (requestFrame f s) := by
  simp [Within, SameBut, SameBase, SameLevel, SameRoad, SameFault, SamePath]

theorem withdrawFrames_within (p : PartFrame → Bool) (s : State) : Within [] s (withdrawFrames p s) := by
  simp [Within, SameBut, SameBase, SameLevel, SameRoad, SameFault, SamePath, withdrawFrames]

theorem postFault_within (k : FaultKind) (s : State) : Within [] s (postFault k s) := postChanged_within _ s

theorem setList_within (l : List PartFrame) (s : State) : Within [] s (setList l s) := by
  simp [Within, SameBut, SameBase, SameLevel, SameRoad, SameFault, SamePath]

theorem setMuster_within (m : Muster) (s : State) : Within [] s (setMuster m s) := by
  simp [Within, SameBut, SameBase, SameLevel, SameRoad, SameFault, SamePath]

theorem changeCell_within (i : Fin 4) (f : Cell → Cell) (s : State) : Within [.trip] s (changeCell i f s) := by
  simp [Within, SameBut, SameBase, SameLevel, SameRoad, SameFault, SamePath]

theorem postCell_within (i : Fin 4) (s : State) : Within [] s (postCell i s) := reportChanged_within _ s

theorem changeChannel_within (i : Fin 24) (f : Channel → Channel) (s : State) : Within [.air] s (changeChannel i f s) := by
  simp [Within, SameBut, SameBase, SameLevel, SameRoad, SameFault, SamePath]

theorem setCall_within (p : Fin 8) (c : Option Call) (s : State) : Within [.call] s (setCall p c s) := by
  simp [Within, SameBut, SameBase, SameLevel, SameRoad, SameFault, SamePath]

theorem countCall_within (f : CallUnit → CallUnit) (s : State) : Within [.call] s (countCall f s) := by
  simp [Within, SameBut, SameBase, SameLevel, SameRoad, SameFault, SamePath]

theorem setDistress_within (l : List Distress) (s : State) : Within [.call] s (setDistress l s) := by
  simp [Within, SameBut, SameBase, SameLevel, SameRoad, SameFault, SamePath]

theorem removeDistress_within (m : Id) (s : State) : Within [.call] s (removeDistress m s) :=
  Within.andThen (by simp [Within, SameBut, SameBase, SameLevel, SameRoad, SameFault, SamePath])
    ((reportAlways_within _ _).andThen (reportChanged_within _ _))

theorem changeChamber_within (c : Fin 4) (f : Chamber → Chamber) (s : State) : Within [.refuge] s (changeChamber c f s) := by
  simp [Within, SameBut, SameBase, SameLevel, SameRoad, SameFault, SamePath]

theorem countRoad_within (f : RoadUnit → RoadUnit) (s : State) : Within [.road] s (countRoad f s) := by
  simp [Within, SameBut, SameBase, SameLevel, SameRoad, SameFault, SamePath]

theorem setTruck_within (p : Fin 32) (t : Option Truck) (s : State) : Within [.road] s (setTruck p t s) := by
  simp [Within, SameBut, SameBase, SameLevel, SameRoad, SameFault, SamePath]

theorem changeFrame_within (f : FrameUnit → FrameUnit) (s : State) : Within [.frame] s (changeFrame f s) := by
  simp [Within, SameBut, SameBase, SameLevel, SameRoad, SameFault, SamePath]

/-- A change of a segment that keeps its occupant lists is within none of the areas. -/
theorem changeSegment_within (i : Fin 16) (f : Segment → Segment) (s : State)
    (hg : ∀ g, (f g).granted = g.granted) (hu : ∀ g, (f g).unauthorised = g.unauthorised) :
    Within [] s (changeSegment i f s) := by
  have key : ∀ j : Fin 16, (modifyAt s.road.segments i f)[j].granted = s.road.segments[j].granted
      ∧ (modifyAt s.road.segments i f)[j].unauthorised = s.road.segments[j].unauthorised := by
    intro j
    rw [modifyAt_get]
    split
    · rename_i h; subst h; exact ⟨hg _, hu _⟩
    · exact ⟨rfl, rfl⟩
  simpa [Within, SameBut, SameBase, SameLevel, SameRoad, SameFault, SamePath] using key

/-- Any change of a segment is within the road area. -/
theorem changeSegment_within_road (i : Fin 16) (f : Segment → Segment) (s : State) :
    Within [.road] s (changeSegment i f s) := by
  simp [Within, SameBut, SameBase, SameLevel, SameRoad, SameFault, SamePath]

theorem markSegment_within (i : Fin 16) (s : State) : Within [] s (markSegment i s) :=
  changeSegment_within i _ s (fun _ => rfl) (fun _ => rfl)

/-! ## Records, faults and the ALERT cause set -/

/-- Counting a fault changes its own counter and the log. -/
theorem countFault_within (k : FaultKind) (d : FaultId) (s : State) : Within [.fault] s (countFault k d s) := by
  simp [Within, SameBut, SameBase, SameLevel, SameRoad, SameFault, SamePath]

/-- Counting one of the three faults that the end of an event records. -/
theorem countFault_quiet (k : FaultKind) (d : FaultId) (s : State)
    (hk : k = .ownWriteStall ∨ k = .eventLost ∨ k = .frameDropped) : Within [] s (countFault k d s) := by
  have key : ∀ j : Fin 12, j ≠ 6 → j ≠ 7 → j ≠ 11 →
      (countFault k d s).fault.counters[j] = s.fault.counters[j] := by
    intro j h6 h7 hb
    rcases hk with rfl | rfl | rfl
    · exact modifyAt_other _ _ h6
    · exact modifyAt_other _ _ h7
    · exact modifyAt_other _ _ hb
  refine ⟨⟨by simp [SameBase], ?_, ?_, ?_, ?_, ?_, ?_, ?_, ?_, ?_, ?_, ?_, ?_⟩, rfl, rfl, rfl, rfl, rfl, rfl, rfl, rfl, rfl⟩
  all_goals first
    | exact fun _ => ⟨rfl, rfl, key⟩
    | simp [SameLevel, SameRoad, SamePath]

/-- An event record, or its loss, leaves every unit as it was. -/
theorem addRecord_within (kind subject : Nat) (info : Word) (s : State) : Within [] s (addRecord kind subject info s) := by
  unfold addRecord
  split
  · exact Within.refl [] s
  · split
    · exact (countFault_quiet _ _ s (by simp)).andThen (postFault_within _ _)
    · simp [Within, SameBut, SameBase, SameLevel, SameRoad, SameFault, SamePath]

theorem joinAlert_within (m : AlertMember) (s : State) : Within [.level] s (joinAlert m s) := by
  unfold joinAlert
  split
  · exact Within.refl _ s
  · simp [Within, SameBut, SameBase, SameLevel, SameRoad, SameFault, SamePath]

/-- The latch or a segment joining leaves every settled member. -/
theorem joinAlert_quiet (m : AlertMember) (s : State) (hm : AlertMember.settled m = false) :
    Within [] s (joinAlert m s) := by
  unfold joinAlert
  split
  · exact Within.refl _ s
  · have key : ∀ a, AlertMember.settled a = true → (a ∈ s.level.alerts ++ [m] ↔ a ∈ s.level.alerts) := by
      intro a ha
      have : a ≠ m := by rintro rfl; simp_all
      simp [this]
    simpa [Within, SameBut, SameBase, SameLevel, SameRoad, SameFault, SamePath] using key

theorem leaveAlert_within (m : AlertMember) (s : State) : Within [.level] s (leaveAlert m s) := by
  unfold leaveAlert
  split
  · simp [Within, SameBut, SameBase, SameLevel, SameRoad, SameFault, SamePath]
  · exact Within.refl _ s

/-- The latch or a segment leaving leaves every settled member. -/
theorem leaveAlert_quiet (m : AlertMember) (s : State) (hm : AlertMember.settled m = false) :
    Within [] s (leaveAlert m s) := by
  unfold leaveAlert
  split
  · have key : ∀ a, AlertMember.settled a = true → (a ∈ s.level.alerts.filter (· ≠ m) ↔ a ∈ s.level.alerts) := by
      intro a ha
      have : a ≠ m := by rintro rfl; simp_all
      simp [this]
    simpa [Within, SameBut, SameBase, SameLevel, SameRoad, SameFault, SamePath] using key
  · exact Within.refl _ s

/-! ## The roadway unit's operations -/

theorem dropHolder_within (i : Fin 16) (truck : Id) (s : State) : Within [] s (dropHolder i truck s) :=
  changeSegment_within i _ s (fun _ => rfl) (fun _ => rfl)

theorem dropWaiter_within (i : Fin 16) (truck : Id) (s : State) : Within [] s (dropWaiter i truck s) :=
  changeSegment_within i _ s (fun _ => rfl) (fun _ => rfl)

theorem rederive_within (i : Fin 16) (s : State) : Within [] s (rederive i s) := by
  have change := changeSegment_within i
    (fun g => { g with direction := directionOf (segmentHeadings s s.road.segments[i]) }) s (fun _ => rfl) (fun _ => rfl)
  unfold rederive
  dsimp only
  split
  · exact Within.refl _ s
  · split
    · exact ((change.andThen (addRecord_within _ _ _ _)).andThen (requestFrame_within _ _)).andThen (joinAlert_quiet _ _ rfl)
    · split
      · exact ((change.andThen (addRecord_within _ _ _ _)).andThen (leaveAlert_quiet _ _ rfl)).andThen
          (markSegment_within _ _)
      · exact change

theorem announceRevoke_within (i : Fin 16) (truck : Id) (reason : RevokeReason) (form : Nat) (s : State) :
    Within [] s (announceRevoke i truck reason form s) :=
  (requestFrame_within _ s).andThen (addRecord_within _ _ _ _)

theorem withdrawGrant_within (truck seg : Id) (s : State) : Within [] s (withdrawGrant truck seg s) :=
  withdrawFrames_within _ s

theorem revokeHolder_within (i : Fin 16) (reason : RevokeReason) (truck : Id) (s : State) :
    Within [] s (revokeHolder i reason truck s) :=
  ((((dropHolder_within i truck s).andThen (withdrawGrant_within _ _ _)).andThen (announceRevoke_within _ _ _ _ _)).andThen
    (rederive_within _ _)).andThen (markSegment_within _ _)

theorem revokeWaiter_within (i : Fin 16) (reason : RevokeReason) (truck : Id) (s : State) :
    Within [] s (revokeWaiter i reason truck s) :=
  ((dropWaiter_within i truck s).andThen (announceRevoke_within _ _ _ _ _)).andThen (markSegment_within _ _)

theorem leaveOrder_within (i : Fin 16) (reason : RevokeReason) (truck : Id) (s : State) :
    Within [] s (leaveOrder i reason truck s) := announceRevoke_within _ _ _ _ _

theorem eachTruck_within {f : Id → State → State} (hf : ∀ id u, Within [] u (f id u)) (trucks : List Id) (s : State) :
    Within [] s (eachTruck f trucks s) := foldl_within (f := fun t id => f id t) (fun a u => hf a u) trucks s

theorem revokeForGas_within (i : Fin 16) (p : Id → Bool) (s : State) : Within [] s (revokeForGas i p s) :=
  ((eachTruck_within (revokeHolder_within i .gas) _ s).andThen (eachTruck_within (revokeWaiter_within i .gas) _ _)).andThen
    (eachTruck_within (leaveOrder_within i .gas) _ _)

theorem regateSegment_within (i : Fin 16) (s : State) : Within [] s (regateSegment i s) := by
  have change := changeSegment_within i (fun g => { g with gated := gatedGrade s s.effective.segments[i].gate }) s
    (fun _ => rfl) (fun _ => rfl)
  unfold regateSegment
  dsimp only
  split
  · split
    · exact change.andThen (revokeForGas_within _ _ _)
    · split
      · exact (change.andThen (revokeForGas_within _ _ _)).andThen (markSegment_within _ _)
      · exact change
  · split
    · exact change.andThen (markSegment_within _ _)
    · exact change

/-- Gating again leaves everything but the roads' holders, queues, directions and gated grades. -/
theorem regate_within (channels : List (Fin 24)) (s : State) : Within [] s (regate channels s) := by
  refine forEach_within (fun i u => ?_) s
  split
  · exact regateSegment_within i u
  · exact Within.refl _ u

theorem evacuateSegment_within (i : Fin 16) (s : State) : Within [] s (evacuateSegment i s) :=
  ((eachTruck_within (revokeHolder_within i .evacuation) _ s).andThen
    (eachTruck_within (revokeWaiter_within i .evacuation) _ _)).andThen (markSegment_within _ _)

theorem evacuateRoads_within (s : State) : Within [] s (evacuateRoads s) := by
  refine forEach_within (fun i u => ?_) s
  split
  · exact evacuateSegment_within i u
  · exact Within.refl _ u

theorem markRoads_within (s : State) : Within [] s (markRoads s) := by
  refine forEach_within (fun i u => ?_) s
  split
  · exact markSegment_within i u
  · exact Within.refl _ u

theorem grantHead_within (i : Fin 16) (w : Waiter) (rest : List Waiter) (s : State) : Within [] s (grantHead i w rest s) := by
  unfold grantHead
  dsimp only
  refine Within.andThen ?_ (requestFrame_within _ _)
  refine Within.andThen ?_ (addRecord_within _ _ _ _)
  refine changeSegment_within i _ s ?_ ?_ <;> intro g <;> rfl

/-- One examination of a head, if it does anything. -/
theorem serveHead_within {i : Fin 16} {s t : State} (h : serveHead i s = some t) : Within [] s t := by
  unfold serveHead at h
  dsimp only at h
  split at h
  · cases h
  · split at h
    · cases h; exact revokeWaiter_within _ _ _ _
    · split at h
      · cases h; exact grantHead_within _ _ _ _
      · cases h

theorem serveHeads_within (n : Nat) (i : Fin 16) (s : State) : Within [] s (serveHeads n i s) := by
  induction n generalizing s with
  | zero => exact Within.refl _ s
  | succ n ih =>
    unfold serveHeads
    split
    · rename_i t h; exact (serveHead_within h).trans (ih t)
    · exact Within.refl _ s

theorem serveSegment_within (i : Fin 16) (s : State) : Within [] s (serveSegment i s) :=
  (serveHeads_within _ i s).andThen (changeSegment_within i _ _ (fun _ => rfl) (fun _ => rfl))

/-- Forgetting a truck whose forget timer has expired. -/
theorem forgetTruck_within {p : Fin 32} {s : State} (h : firstForgettable s = some p) : Within [] s (forgetTruck p s) := by
  obtain ⟨hp, -⟩ := findIndex_some h
  unfold forgetTruck
  split
  · rename_i t ht
    have hf : t.forget = .expired := by
      simp only [Fin.getElem_fin] at ht hp
      simp only [ht, Bool.and_eq_true, beq_iff_eq] at hp
      exact hp.1
    refine (addRecord_within recTruckForgotten t.id.toNat (detail [(1, t.lost.isSome.toNat)]) s).trans ?_
    generalize hu : addRecord recTruckForgotten t.id.toNat (detail [(1, t.lost.isSome.toNat)]) s = u
    have hut : u.road.trucks = s.road.trucks := by
      subst hu; unfold addRecord; split <;> [rfl; (split <;> rfl)]
    have key : ∀ q : Fin 32, (u.road.trucks.set p none)[q] = u.road.trucks[q]
        ∨ ((u.road.trucks.set p none)[q] = none ∧ ∃ k, u.road.trucks[q] = some k ∧ k.forget = .expired) := by
      intro q
      by_cases hq : q = p
      · subst hq
        refine .inr ⟨by simp, t, by rw [hut]; exact ht, hf⟩
      · have : (p : Nat) ≠ q := fun e => hq (Fin.ext e.symm)
        exact .inl (by simp [this])
    have : SameRoad u (setTruck p none u) := ⟨rfl, rfl, fun _ => ⟨rfl, rfl⟩, key⟩
    simp [Within, SameBut, SameBase, SameLevel, SameFault, SamePath, this]
  · exact Within.refl _ s

/-! ## The level unit's operations -/

theorem requestEvacuate_within (s : State) : Within [] s (requestEvacuate s) := by
  unfold requestEvacuate
  split
  · split
    · exact requestFrame_within _ s
    · exact Within.refl _ s
  · exact Within.refl _ s

theorem withdrawEvacuate_within (s : State) : Within [] s (withdrawEvacuate s) := withdrawFrames_within _ s

theorem levelRecord_within (a b : Level) (k : Nat) (c : List (Nat × Nat)) (s : State) :
    Within [] s (levelRecord a b k c s) := addRecord_within _ _ _ s

theorem laterRecord_within (c : TakenCause) (s : State) : Within [] s (laterRecord c s) := levelRecord_within _ _ _ _ s

theorem changeRecord_within (a b : Level) (s : State) : Within [] s (changeRecord a b s) := by
  unfold changeRecord
  split
  · exact levelRecord_within _ _ _ _ s
  · exact levelRecord_within _ _ _ _ s

theorem tellReaders_within (a b : Level) (s : State) : Within [] s (tellReaders a b s) := by
  have mark : ∀ u : State, Within [] u { u with reevalDue := true } := by
    intro u; simp [Within, SameBut, SameBase, SameLevel, SameRoad, SameFault, SamePath]
  unfold tellReaders
  split
  · exact (evacuateRoads_within s).andThen (mark _)
  · split
    · exact (markRoads_within s).andThen (mark _)
    · exact Within.refl _ s

/-- Deriving the level changes the level itself and what a change hands on. -/
theorem deriveLevel_within (s : State) : Within [] s (deriveLevel s) := by
  have setLevel : ∀ (u : State) (v : Level), Within [] u { u with level := { u.level with level := v, taken := [] } } := by
    intro u v; simp [Within, SameBut, SameBase, SameLevel, SameRoad, SameFault, SamePath]
  unfold deriveLevel
  dsimp only
  split
  · exact Within.refl _ s
  · have first : ∀ u : State, Within [] u (reportChanged [0x110] (tellReaders s.level.level (levelOf s.level) u)) := fun u =>
      (tellReaders_within _ _ u).andThen (reportChanged_within _ _)
    have frames : ∀ u : State, Within [] u
        (if levelOf s.level = .evacuate then requestEvacuate u
          else if s.level.level = .evacuate then withdrawEvacuate u else u) := by
      intro u
      split
      · exact requestEvacuate_within u
      · split
        · exact withdrawEvacuate_within u
        · exact Within.refl _ u
    have musters : ∀ u : State, Within [] u
        (if levelOf s.level = .evacuate then musterEntry u else if s.level.level = .evacuate then musterExit u else u) := by
      intro u
      split
      · exact setMuster_within _ u
      · split
        · exact setMuster_within _ u
        · exact Within.refl _ u
    refine Within.andThen ?_ (foldl_within (fun c u => laterRecord_within c u) _ _)
    refine Within.andThen ?_ (musters _)
    refine Within.andThen ?_ (postChanged_within _ _)
    refine Within.andThen ?_ (frames _)
    refine Within.andThen ?_ (first _)
    refine Within.andThen ?_ (setLevel _ _)
    exact changeRecord_within _ _ s

theorem takeCause_within (c : Cause) (fault : Nat) (s : State) : Within [] s (takeCause c fault s) := by
  unfold takeCause
  dsimp only
  split
  · split
    · exact laterRecord_within _ s
    · simp [Within, SameBut, SameBase, SameLevel, SameRoad, SameFault, SamePath]
  · rename_i h
    simp [Within, SameBut, SameBase, SameLevel, SameRoad, SameFault, SamePath, h]

/-- With no cause in force, taking one fills the cause record and waits for the level's derivation. -/
theorem takeCause_of_none {c : Cause} {fault : Nat} {s : State} (h : s.level.cause = none) :
    takeCause c fault s
      = { s with level := { s.level with cause := some c, taken := [{ cause := c, fault := fault }] } } := by
  simp [takeCause, h]

/-- With the level EVACUATE, a cause behind the one in force is a later cause, recorded at once. -/
theorem takeCause_of_evacuate {c d : Cause} {fault : Nat} {s : State} (h : s.level.cause = some d)
    (hl : s.level.level = .evacuate) : takeCause c fault s = laterRecord { cause := c, fault := fault } s := by
  simp [takeCause, h, hl]

/-- With a cause in force that the level does not show yet, a cause taken behind it waits. -/
theorem takeCause_of_waiting {c d : Cause} {fault : Nat} {s : State} (h : s.level.cause = some d)
    (hl : s.level.level ≠ .evacuate) : takeCause c fault s
      = { s with level := { s.level with taken := s.level.taken ++ [{ cause := c, fault := fault }] } } := by
  simp [takeCause, h, hl]

/-- A level that stands as the cause record and the set give it is left alone. -/
theorem deriveLevel_of_same {s : State} (h : levelOf s.level = s.level.level) : deriveLevel s = s := by
  simp [deriveLevel, h]

/-- A local cause fills an absent cause record and leaves one that stands. -/
theorem localCause_within (kind : CauseKind) (reason : BitVec 4) (fault : Nat) (s : State) :
    Within [] s (localCause kind reason fault s) := by
  refine Within.trans ?_ (takeCause_within _ _ _)
  simp [Within, SameBut, SameBase, SameLevel, SameRoad, SameFault, SamePath]

theorem remoteCause_within (hop : BitVec 4) (node : NodeId) (seq : BitVec 8) (reason : BitVec 4) (s : State) :
    Within [] s (remoteCause hop node seq reason s) := takeCause_within _ _ s

/-- Recording a fault changes its counter and the log, and may latch an alert or give an evacuation cause. -/
theorem recordFault_within (k : FaultKind) (d : FaultId) (s : State) : Within [.fault] s (recordFault k d s) := by
  unfold recordFault
  split
  · exact Within.refl _ s
  · dsimp only
    refine Within.andThen ?_ (postFault_within _ _)
    split
    · exact (countFault_within k d s).andThen (joinAlert_quiet _ _ rfl)
    · exact (countFault_within k d s).andThen (localCause_within _ _ _ _)
    · exact countFault_within k d s
    · exact countFault_within k d s

/-- Recording one of the three faults that the end of an event records. -/
theorem recordFault_quiet (k : FaultKind) (d : FaultId) (s : State)
    (hk : k = .ownWriteStall ∨ k = .eventLost ∨ k = .frameDropped) : Within [] s (recordFault k d s) := by
  unfold recordFault
  split
  · exact Within.refl _ s
  · dsimp only
    refine Within.andThen ?_ (postFault_within _ _)
    split
    · exact (countFault_quiet k d s hk).andThen (joinAlert_quiet _ _ rfl)
    · exact (countFault_quiet k d s hk).andThen (localCause_within _ _ _ _)
    · exact countFault_quiet k d s hk
    · exact countFault_quiet k d s hk

/-! ## The send list -/

theorem dropFrame_within (f : PartFrame) (waiting : Bool) (s : State) : Within [] s (dropFrame f waiting s) :=
  (recordFault_quiet _ _ s (by simp)).andThen (addRecord_within _ _ _ _)

theorem takeRequest_within (f : PartFrame) (s : State) : Within [] s (takeRequest f s) := by
  unfold takeRequest
  dsimp only
  split
  · exact setList_within _ s
  · split
    · exact setList_within _ s
    · split
      · split
        · exact (setList_within _ s).andThen (dropFrame_within _ _ _)
        · exact dropFrame_within _ _ s
      · exact dropFrame_within _ _ s

end Sys2Proof.Machine
end

