-- ==== Sys2Proof/Laws/Memory.lean ====
section
/-! SUPPORT. The laws of memory: a read after a write, and the canonical form, which every memory operation keeps. -/

set_option Elab.async false

namespace Sys2Proof.Machine

open Sys2Proof.Config

/-! ## One byte -/

/-- At or below the bound of a canonical list nothing is listed. -/
theorem memRead_below {m : List Host.Cell} {k d : Nat} (h : memOrdered (some k) m = true) (hd : d ≤ k) :
    memRead m d = blankByte := by
  induction m generalizing k with
  | nil => rfl
  | cons cell rest ih =>
    obtain ⟨k', v'⟩ := cell
    simp only [memOrdered, Bool.and_eq_true, decide_eq_true_eq] at h
    have hne : k' ≠ d := by omega
    simp only [memRead, hne, if_false]
    exact ih h.2 (by omega)

/-- A read after a write of one byte: the byte written at its address, and every other address as before. -/
theorem memRead_memWrite (m : List Host.Cell) (a c : Nat) (b : Byte) (low : Option Nat) (h : memOrdered low m = true) :
    memRead (memWrite m a b) c = if c = a then b else memRead m c := by
  induction m generalizing low with
  | nil =>
    unfold memWrite
    split_ifs with hb hc hc
    · exact hb.symm
    · rfl
    · exact if_pos hc.symm
    · exact if_neg (Ne.symm hc)
  | cons cell rest ih =>
    obtain ⟨k, v⟩ := cell
    have hrest : memOrdered (some k) rest = true := by
      simp only [memOrdered, Bool.and_eq_true] at h; exact h.2
    unfold memWrite
    split_ifs with h1 hb hc hc h2 hb hc hc hc
    · rw [hc, hb, memRead, if_neg (by omega)]; exact memRead_below hrest (by omega)
    · rfl
    · exact if_pos hc.symm
    · exact if_neg (Ne.symm hc)
    · rw [hc, hb]; exact memRead_below hrest (by omega)
    · exact (if_neg (by omega)).symm
    · exact if_pos (by omega)
    · exact (if_neg (by omega)).trans (if_neg (by omega)).symm
    · exact (if_neg (by omega)).trans ((ih _ hrest).trans (if_pos hc))
    · simp only [memRead, ih _ hrest, if_neg hc]

/-- A write of one byte keeps the canonical form above any bound below its address. -/
theorem memOrdered_memWrite (m : List Host.Cell) (a : Nat) (b : Byte) (low : Option Nat) (h : memOrdered low m = true)
    (hlow : ∀ l, low = some l → l < a) : memOrdered low (memWrite m a b) = true := by
  induction m generalizing low with
  | nil =>
    unfold memWrite
    split
    · rfl
    · cases low <;> simp_all [memOrdered]
  | cons cell rest ih =>
    obtain ⟨k, v⟩ := cell
    simp only [memOrdered, Bool.and_eq_true] at h
    unfold memWrite
    split
    · split
      · simp_all [memOrdered]
      · cases low <;> simp_all [memOrdered]
    · split
      · subst_vars
        split
        · have : ∀ l, low = some l → memOrdered (some l) rest = true ∨ True := fun _ _ => Or.inr trivial
          cases low with
          | none => cases rest <;> simp_all [memOrdered]
          | some l => cases rest <;> simp_all [memOrdered]; omega
        · simp_all [memOrdered]
      · simp only [memOrdered, Bool.and_eq_true]
        refine ⟨h.1, ih _ h.2 ?_⟩
        rintro l ⟨rfl⟩
        omega

/-- Writing one byte keeps the canonical form. -/
theorem memWrite_wf {m : List Host.Cell} (a : Nat) (b : Byte) (h : Memory.wf m = true) : Memory.wf (memWrite m a b) = true :=
  memOrdered_memWrite m a b none h (by simp)

/-- A read after a write of one byte, in canonical memory. -/
theorem memRead_memWrite_wf {m : List Host.Cell} (a c : Nat) (b : Byte) (h : Memory.wf m = true) :
    memRead (memWrite m a b) c = if c = a then b else memRead m c := memRead_memWrite m a c b none h

/-! ## Words -/

/-- Writing lanes keeps the canonical form. -/
theorem memWriteLanes_wf {m : List Host.Cell} (a : Nat) (lanes : BitVec 4) (w : Word) (h : Memory.wf m = true) :
    Memory.wf (memWriteLanes m a lanes w) = true := by
  unfold memWriteLanes
  generalize List.range 4 = l
  induction l generalizing m with
  | nil => exact h
  | cons k rest ih =>
    apply ih
    show Memory.wf (if bitOf lanes k = true then _ else m) = true
    split
    · exact memWrite_wf _ _ h
    · exact h

/-- Writing a word keeps the canonical form. -/
theorem memWriteWord_wf {m : List Host.Cell} (a : Nat) (w : Word) (h : Memory.wf m = true) :
    Memory.wf (memWriteWord m a w) = true := memWriteLanes_wf a 0xF w h

/-- A read after a write of lanes: the written lanes' bytes, and every other byte as before. -/
theorem memRead_memWriteLanes {m : List Host.Cell} (a c : Nat) (lanes : BitVec 4) (w : Word) (h : Memory.wf m = true) :
    memRead (memWriteLanes m a lanes w) c =
      if a ≤ c ∧ c < a + 4 ∧ bitOf lanes (c - a) = true then laneByte w (c - a) else memRead m c := by
  have step : ∀ n ≤ 4, Memory.wf ((List.range n).foldl
        (fun m k => if bitOf lanes k then memWrite m (a + k) (laneByte w k) else m) m) = true
      ∧ memRead ((List.range n).foldl (fun m k => if bitOf lanes k then memWrite m (a + k) (laneByte w k) else m) m) c =
        if a ≤ c ∧ c < a + n ∧ bitOf lanes (c - a) = true then laneByte w (c - a) else memRead m c := by
    intro n
    induction n with
    | zero => intro _; exact ⟨h, by rw [if_neg (by omega)]; rfl⟩
    | succ n ih =>
      intro hn
      obtain ⟨hw, hr⟩ := ih (by omega)
      rw [List.range_succ, List.foldl_append]
      simp only [List.foldl_cons, List.foldl_nil]
      by_cases hl : bitOf lanes n = true
      · simp only [hl, if_true]
        refine ⟨memWrite_wf _ _ hw, ?_⟩
        rw [memRead_memWrite_wf _ _ _ hw, hr]
        by_cases hc : c = a + n
        · subst hc; simp [hl]
        · rw [if_neg hc]
          have : (a ≤ c ∧ c < a + n ∧ bitOf lanes (c - a) = true) ↔ (a ≤ c ∧ c < a + (n + 1) ∧ bitOf lanes (c - a) = true) := by
            constructor
            · rintro ⟨x, y, z⟩; exact ⟨x, by omega, z⟩
            · rintro ⟨x, y, z⟩; exact ⟨x, by omega, z⟩
          simp only [this]
      · simp only [hl, Bool.false_eq_true, if_false]
        refine ⟨hw, ?_⟩
        rw [hr]
        have : (a ≤ c ∧ c < a + n ∧ bitOf lanes (c - a) = true) ↔ (a ≤ c ∧ c < a + (n + 1) ∧ bitOf lanes (c - a) = true) := by
          constructor
          · rintro ⟨x, y, z⟩; exact ⟨x, by omega, z⟩
          · rintro ⟨x, y, z⟩
            refine ⟨x, ?_, z⟩
            by_contra hcon
            have : c - a = n := by omega
            rw [this] at z
            exact hl z
        simp only [this]
  exact (step 4 (by omega)).2

/-- A read after a write of a word: the word's four bytes, and every other byte as before. -/
theorem memRead_memWriteWord {m : List Host.Cell} (a c : Nat) (w : Word) (h : Memory.wf m = true) :
    memRead (memWriteWord m a w) c = if a ≤ c ∧ c < a + 4 then laneByte w (c - a) else memRead m c := by
  rw [memWriteWord, memRead_memWriteLanes a c 0xF w h]
  by_cases hc : a ≤ c ∧ c < a + 4
  · have hlane : bitOf (0xF : BitVec 4) (c - a) = true := by
      have : c - a < 4 := by omega
      interval_cases c - a <;> decide
    rw [if_pos ⟨hc.1, hc.2, hlane⟩, if_pos hc]
  · rw [if_neg hc, if_neg (fun x => hc ⟨x.1, x.2.1⟩)]

/-- A word is made of its four lane bytes. -/
theorem word_of_laneBytes (w : Word) : laneByte w 3 ++ laneByte w 2 ++ laneByte w 1 ++ laneByte w 0 = w := by
  simp only [laneByte, bits]
  ext i hi
  simp only [BitVec.getElem_append, BitVec.getElem_extractLsb']
  split <;> [skip; split <;> [skip; split]] <;> rw [← BitVec.getLsbD_eq_getElem] <;> congr 1 <;> omega

/-- The word just written is the word read. -/
theorem memWord_memWriteWord {m : List Host.Cell} (a : Nat) (w : Word) (h : Memory.wf m = true) :
    memWord (memWriteWord m a w) a = w := by
  simp only [memWord, memRead_memWriteWord _ _ _ h]
  simp
  exact word_of_laneBytes w

/-- A word that does not overlap the word written reads as before. -/
theorem memWord_memWriteWord_other {m : List Host.Cell} (a c : Nat) (w : Word) (h : Memory.wf m = true)
    (hd : c + 4 ≤ a ∨ a + 4 ≤ c) : memWord (memWriteWord m a w) c = memWord m c := by
  simp only [memWord, memRead_memWriteWord _ _ _ h]
  rw [if_neg (by omega), if_neg (by omega), if_neg (by omega), if_neg (by omega)]

/-- Memory after reset is in its canonical form. -/
theorem reset_memory_wf : Memory.wf State.reset.mem = true := rfl

/-- A drain keeps the canonical form. -/
theorem drainOldest_wf {s : State} (h : Memory.wf s.mem = true) : Memory.wf (drainOldest s).mem = true := by
  unfold drainOldest
  split
  · exact h
  · dsimp only
    split
    · unfold drainNotice
      dsimp only
      split <;> exact memWriteWord_wf _ _ h
    · exact memWriteWord_wf _ _ h

end Sys2Proof.Machine
end

