-- ==== Sys2Proof/Laws/Settle.lean ====
section
/-! SUPPORT. The end of an event: what it leaves as it was, and that it keeps memory canonical and the own-write queue within its
bound with distinct addresses, and what entering a word adds to the report words that the event has queued. -/

set_option Elab.async false

namespace Sys2Proof.Machine

open Sys2Proof.Config

/-! ## What the end of an event leaves as it was -/

/-- A change of the ring unit that keeps the ring records and the departed slots. -/
theorem setRing_sameBut {r : RingUnit} {s : State} (h : r.rings = s.ring.rings) (hd : r.departed = s.ring.departed) :
    SameBut [] s { s with ring := r } := by
  simp [SameBut, SameBase, SameLevel, SameRoad, SameFault, SamePath, h, hd]

theorem changeShadow_sameBut (n : Fin 64) (f : Shadow → Shadow) (s : State) : SameBut [] s (changeShadow n f s) :=
  (setRing_sameBut (r := { s.ring with shadows := modifyAt s.ring.shadows n f }) rfl rfl).trans (reportChanged_within _ _).1

theorem drainNotice_sameBut (n : Fin 16) (s : State) : SameBut [] s (drainNotice n s) := by
  unfold drainNotice
  dsimp only
  split
  · exact SameBut.refl [] s
  · refine SameBut.trans ?_ (reportChanged_within _ _).1
    refine SameBut.trans (changeShadow_sameBut _ _ s) (setRing_sameBut ?_ ?_) <;> rfl

/-- A drain changes memory, the queue and, by a notice, the ring unit alone. -/
theorem drainOldest_sameBut (s : State) : SameBut [] s (drainOldest s) := by
  unfold drainOldest
  split
  · exact SameBut.refl [] s
  · dsimp only
    split
    · refine SameBut.trans ?_ (drainNotice_sameBut _ _)
      simp [SameBut, SameBase, SameLevel, SameRoad, SameFault, SamePath]
    · simp [SameBut, SameBase, SameLevel, SameRoad, SameFault, SamePath]

theorem appendEntry_sameBut (w : OwnWrite) (s : State) : SameBut [] s (appendEntry w s) := by
  simp [SameBut, SameBase, SameLevel, SameRoad, SameFault, SamePath]

theorem stallEnter_sameBut (w : OwnWrite) (s : State) : SameBut [] s (stallEnter w s) := by
  unfold stallEnter
  refine (drainOldest_sameBut s).trans ((appendEntry_sameBut w _).trans ?_)
  simp [SameBut, SameBase, SameLevel, SameRoad, SameFault, SamePath]

theorem enterNew_sameBut (w : OwnWrite) (s : State) : SameBut [] s (enterNew w s) := by
  unfold enterNew
  split
  · exact appendEntry_sameBut w s
  · exact (stallEnter_sameBut w s).trans (recordFault_quiet _ _ _ (by simp)).1

theorem enterQueue_sameBut (w : OwnWrite) (s : State) : SameBut [] s (enterQueue w s) := by
  unfold enterQueue
  split
  · split <;> simp [SameBut, SameBase, SameLevel, SameRoad, SameFault, SamePath]
  · exact enterNew_sameBut w s

theorem enterMirror_sameBut (o : Nat) (s : State) : SameBut [] s (enterMirror o s) := by
  refine SameBut.trans ?_ (enterQueue_sameBut _ _)
  simp [SameBut, SameBase, SameLevel, SameRoad, SameFault, SamePath]

/-- What a unit hands on enters the queue as an own-write or as a mirror word with its present value, or leaves the state as it is. -/
theorem enterPost_cases (s0 : State) (p : Post) (s : State) :
    (∃ w, p = .write w ∧ enterPost s0 p s = enterQueue w s)
      ∨ (∃ o, (p = .always o ∨ p = .changed o) ∧ (enterPost s0 p s = enterMirror o s ∨ enterPost s0 p s = s)) := by
  cases p with
  | write w => exact .inl ⟨w, rfl, rfl⟩
  | always o => exact .inr ⟨o, .inl rfl, by unfold enterPost; dsimp only; split <;> simp⟩
  | changed o => exact .inr ⟨o, .inr rfl, by unfold enterPost; dsimp only; split <;> simp⟩

theorem enterPost_sameBut (s0 : State) (p : Post) (s : State) : SameBut [] s (enterPost s0 p s) := by
  obtain ⟨w, -, h⟩ | ⟨o, -, h | h⟩ := enterPost_cases s0 p s
  · exact h ▸ enterQueue_sameBut w s
  · exact h ▸ enterMirror_sameBut o s
  · exact h.symm ▸ SameBut.refl [] s

theorem enterFollowUp_sameBut (s : State) : SameBut [] s (enterFollowUp s) := by
  unfold enterFollowUp
  split
  · refine SameBut.trans ?_ (enterNew_sameBut _ _)
    simp [SameBut, SameBase, SameLevel, SameRoad, SameFault, SamePath]
  · exact SameBut.refl [] s

theorem buildFrame_sameBut (s : State) : SameBut [] s (buildFrame s) := by
  unfold buildFrame
  split
  · exact SameBut.refl [] s
  · rename_i f rest _
    have posts : ∀ (u : State) (l : List Post),
        SameBut [] u { u with path := { u.path with posts := u.path.posts ++ l } } := by
      intro u l; simp [SameBut, SameBase, SameLevel, SameRoad, SameFault, SamePath]
    dsimp only
    refine SameBut.trans ?_ (reportChanged_within _ _).1
    refine SameBut.trans ?_ (posts _ _)
    refine SameBut.trans ?_ (changeShadow_sameBut _ _ _)
    exact setRing_sameBut rfl rfl

theorem settleUnits_sameBut {s0 s t : State} (h : settleUnits s0 s = some t) : SameBut [] s t := by
  unfold settleUnits at h
  split at h
  · cases h
  · split at h
    · cases h; exact (deriveLevel_within s).1
    · split at h
      · cases h; exact (serveSegment_within _ s).1
      · split at h
        · rename_i hp; cases h; exact (forgetTruck_within hp).1
        · split at h
          · cases h; exact (setMuster_within _ s).1
          · split at h
            · cases h
              refine SameBut.trans ?_ (takeRequest_within _ _).1
              simp [SameBut, SameBase, SameLevel, SameRoad, SameFault, SamePath]
            · split at h
              · cases h; exact buildFrame_sameBut s
              · cases h

theorem settlePath_sameBut {s0 s t : State} (h : settlePath s0 s = some t) : SameBut [] s t := by
  unfold settlePath at h
  split at h
  · cases h
    refine SameBut.trans ?_ (enterPost_sameBut _ _ _)
    simp [SameBut, SameBase, SameLevel, SameRoad, SameFault, SamePath]
  · split at h
    · cases h
      refine SameBut.trans ?_ (enterPost_sameBut _ _ _)
      simp [SameBut, SameBase, SameLevel, SameRoad, SameFault, SamePath]
    · split at h
      · cases h
        refine SameBut.trans ?_ (enterQueue_sameBut _ _)
        simp [SameBut, SameBase, SameLevel, SameRoad, SameFault, SamePath]
      · split at h
        · cases h
        · cases h
          simp [SameBut, SameBase, SameLevel, SameRoad, SameFault, SamePath]

/-- One thing that the end of an event does. -/
theorem settleStep_sameBut {s0 s t : State} (h : settleStep s0 s = some t) : SameBut [] s t := by
  unfold settleStep at h
  split at h
  · cases h; exact enterFollowUp_sameBut s
  · split at h
    · rename_i hu; cases h; exact settleUnits_sameBut hu
    · exact settlePath_sameBut h

/-- What every step of the end of an event keeps, the whole end keeps. -/
theorem settle_keeps {P : State → Prop} {s0 : State} (hstep : ∀ s t, P s → settleStep s0 s = some t → P t) (n : Nat)
    {s : State} (h : P s) : P (settle n s0 s) := by
  induction n generalizing s with
  | zero => exact h
  | succ n ih =>
    unfold settle
    split
    · rename_i t ht; exact ih (hstep _ _ h ht)
    · exact h

/-- The end of an event leaves every area as it was. -/
theorem settle_sameBut (n : Nat) (s0 s : State) : SameBut [] s (settle n s0 s) :=
  settle_keeps (P := SameBut [] s) (fun _ _ h ht => h.trans (settleStep_sameBut ht)) n (SameBut.refl [] s)

theorem beginEvent_sameBut (s : State) : SameBut [] s (beginEvent s) := by
  simp [SameBut, SameBase, SameLevel, SameRoad, SameFault, SamePath]

theorem sweepPut_sameBut (s : State) : SameBut [] s (sweepPut s) := by
  unfold sweepPut
  split
  · exact SameBut.refl [] s
  · split
    · split
      · simp [SameBut, SameBase, SameLevel, SameRoad, SameFault, SamePath]
      · simp [SameBut, SameBase, SameLevel, SameRoad, SameFault, SamePath]
    · exact SameBut.refl [] s

/-- What every end of an event keeps, the level unit's events that follow it keep. -/
theorem levelEvents_keeps {P : State → Prop} (hend : ∀ s, P s → P (levelEvent s)) (n : Nat) {s : State} (h : P s) :
    P (levelEvents n s) := by
  induction n generalizing s with
  | zero => exact h
  | succ n ih =>
    unfold levelEvents
    split
    · exact ih (hend _ h)
    · exact h

theorem levelEvents_sameBut (n : Nat) (s : State) : SameBut [] s (levelEvents n s) :=
  levelEvents_keeps (P := SameBut [] s) (fun _ h => h.trans (settle_sameBut _ _ _)) n (SameBut.refl [] s)

theorem driveLines_sameBut (s : State) : SameBut [] s (driveLines s) := by
  simp [SameBut, SameBase, SameLevel, SameRoad, SameFault, SamePath]

/-- What an event changes beyond its own effect is nothing that `SameBut` names. -/
theorem event_sameBut {l : List Area} {f : State → State} {s : State}
    (h : SameBut l (beginEvent s) (f (beginEvent s))) : SameBut l s (event f s) := by
  have none_in : ∀ {u v : State}, SameBut [] u v → SameBut l u v := fun k => k.mono (by simp)
  unfold event
  dsimp only
  refine (none_in (beginEvent_sameBut s)).trans (h.trans ?_)
  refine (none_in (settle_sameBut settleBound (eventBase (beginEvent s) (f (beginEvent s))) _)).trans ?_
  refine none_in (SameBut.trans (SameBut.trans ?_ (levelEvents_sameBut 2 _)) (driveLines_sameBut _))
  split
  · exact sweepPut_sameBut _
  · exact SameBut.refl [] _

/-! ## Memory and the own-write queue -/

/-- Memory is canonical, and the own-write queue holds at most 32 entries with distinct addresses. -/
def PathSound (s : State) : Prop :=
  Memory.wf s.mem = true ∧ s.path.queue.length ≤ queueSize ∧ (s.path.queue.map (·.addr)).Nodup

/-- A unit's work inside an event leaves memory and the queue alone. -/
theorem PathSound.within {l : List Area} {s t : State} (h : PathSound s) (k : Within l s t) : PathSound t := by
  obtain ⟨-, hm, hq, -⟩ := k
  simpa [PathSound, hm, hq] using h

/-- An address with no entry is no entry's address. -/
theorem queued_false {q : List OwnWrite} {a : Addr} (h : queued q a = false) : a ∉ q.map (·.addr) := by
  intro ha
  obtain ⟨w, hw, rfl⟩ := List.mem_map.mp ha
  simp only [queued, List.any_eq_false] at h
  simpa using h w hw

theorem drainNotice_path (n : Fin 16) (s : State) :
    (drainNotice n s).mem = s.mem ∧ (drainNotice n s).path.queue = s.path.queue := by
  unfold drainNotice
  dsimp only
  split <;> exact ⟨rfl, rfl⟩

/-- A queue with a new last address. -/
theorem nodup_append_new {l : List Addr} {a : Addr} (hn : l.Nodup) (ha : a ∉ l) : (l ++ [a]).Nodup := by
  refine List.nodup_append.mpr ⟨hn, by simp, ?_⟩
  rintro b hb c hc rfl
  exact ha (List.mem_singleton.mp hc ▸ hb)

/-- A drain removes the oldest entry and nothing else of the queue. -/
theorem drainOldest_queue (s : State) : (drainOldest s).path.queue = s.path.queue.tail := by
  unfold drainOldest
  split
  · rename_i h; simp [h]
  · rename_i h
    dsimp only
    split
    · rw [(drainNotice_path _ _).2]; simp [h]
    · simp [h]

theorem enterNew_pathSound {w : OwnWrite} {s : State} (h : PathSound s) (hw : w.addr ∉ s.path.queue.map (·.addr)) :
    PathSound (enterNew w s) := by
  obtain ⟨hm, hl, hn⟩ := h
  unfold enterNew
  split
  · refine ⟨hm, ?_, ?_⟩
    · simp only [appendEntry_path, List.length_append, List.length_singleton]; omega
    · simp only [appendEntry_path, List.map_append, List.map_cons, List.map_nil]
      exact nodup_append_new hn hw
  · rename_i hfull
    refine PathSound.within (s := stallEnter w s) ?_ (recordFault_quiet _ _ _ (by simp))
    refine ⟨drainOldest_wf hm, ?_, ?_⟩
    · simp only [stallEnter, appendEntry_path, drainOldest_queue, List.length_append, List.length_tail, List.length_singleton]
      simp only [queueSize] at *; omega
    · simp only [stallEnter, appendEntry_path, drainOldest_queue, List.map_append, List.map_cons, List.map_nil, List.map_tail]
      exact nodup_append_new (hn.sublist (List.tail_sublist _)) (fun ha => hw (List.mem_of_mem_tail ha))

/-! ### The report words that the event has queued -/

theorem drainNotice_shown (n : Fin 16) (s : State) : (drainNotice n s).path.shown = s.path.shown := by
  unfold drainNotice
  dsimp only
  split <;> rfl

theorem drainOldest_shown (s : State) : (drainOldest s).path.shown = s.path.shown := by
  unfold drainOldest
  split
  · rfl
  · dsimp only
    split
    · rw [drainNotice_shown]
    · rfl

theorem enterNew_shown (w : OwnWrite) (s : State) : (enterNew w s).path.shown = s.path.shown := by
  unfold enterNew
  split
  · rfl
  · obtain ⟨-, -, -, -, -, -, -, -, -, h⟩ := recordFault_quiet .ownWriteStall (.own unitPath 0 0) (stallEnter w s) (by simp)
    rw [h]
    exact drainOldest_shown s

theorem enterQueue_shown (w : OwnWrite) (s : State) : (enterQueue w s).path.shown = s.path.shown := by
  unfold enterQueue
  split
  · split <;> rfl
  · exact enterNew_shown w s

/-- A mirror word that enters is the one the event keeps in mind last, with its value. -/
@[simp] theorem enterMirror_shown (o : Nat) (s : State) : (enterMirror o s).path.shown = (o, mirror s o) :: s.path.shown :=
  enterQueue_shown _ _

/-- The coalesced queue has the same addresses in the same order. -/
theorem coalesce_addresses (q : List OwnWrite) (w : OwnWrite) : (coalesce q w).map (·.addr) = q.map (·.addr) := by
  unfold coalesce
  rw [List.map_map]
  refine List.map_congr_left fun e _ => ?_
  simp only [Function.comp]
  split <;> rfl

theorem enterQueue_pathSound {w : OwnWrite} {s : State} (h : PathSound s) : PathSound (enterQueue w s) := by
  unfold enterQueue
  split
  · split
    · exact h
    all_goals
      obtain ⟨hm, hl, hn⟩ := h
      refine ⟨hm, ?_, ?_⟩
      · simpa [coalesce] using hl
      · simpa only [coalesce_addresses] using hn
  · rename_i hq
    exact enterNew_pathSound h (queued_false (by simpa using hq))

theorem enterMirror_pathSound {o : Nat} {s : State} (h : PathSound s) : PathSound (enterMirror o s) :=
  enterQueue_pathSound (s := { s with path := { s.path with shown := (o, mirror s o) :: s.path.shown } }) h

theorem enterPost_pathSound {s0 : State} {p : Post} {s : State} (h : PathSound s) : PathSound (enterPost s0 p s) := by
  obtain ⟨w, -, e⟩ | ⟨o, -, e | e⟩ := enterPost_cases s0 p s
  · exact e ▸ enterQueue_pathSound h
  · exact e ▸ enterMirror_pathSound h
  · exact e.symm ▸ h

theorem settleStep_pathSound {s0 s t : State} (h : PathSound s) (ht : settleStep s0 s = some t) : PathSound t := by
  unfold settleStep at ht
  split at ht
  · rename_i hf
    cases ht
    unfold enterFollowUp
    split
    · refine enterNew_pathSound (s := { s with path := { s.path with followUp := none } }) h (queued_false ?_)
      simp only [followUpFree, Bool.and_eq_true, Bool.not_eq_true'] at hf
      exact hf.2
    · exact h
  · split at ht
    · rename_i hu
      cases ht
      unfold settleUnits at hu
      split at hu
      · cases hu
      · split at hu
        · cases hu; exact h.within (deriveLevel_within s)
        · split at hu
          · cases hu; exact h.within (serveSegment_within _ s)
          · split at hu
            · rename_i hp; cases hu; exact h.within (forgetTruck_within hp)
            · split at hu
              · cases hu; exact h.within (setMuster_within _ s)
              · split at hu
                · rename_i rest _; cases hu
                  exact PathSound.within (s := { s with ring := { s.ring with requests := rest } }) h (takeRequest_within _ _)
                · split at hu
                  · cases hu
                    unfold buildFrame
                    split <;> exact h
                  · cases hu
    · unfold settlePath at ht
      split at ht
      · rename_i rest _
        cases ht
        exact enterPost_pathSound (s := { s with path := { s.path with posts := rest } }) h
      · split at ht
        · rename_i rest _
          cases ht
          exact enterPost_pathSound (s := { s with path := { s.path with reports := rest } }) h
        · split at ht
          · cases ht
            exact enterQueue_pathSound (s := { s with path := { s.path with outcome := none } }) h
          · split at ht
            · cases ht
            · cases ht; exact h

/-- The end of an event keeps memory canonical and the queue sound. -/
theorem settle_pathSound (n : Nat) (s0 : State) {s : State} (h : PathSound s) : PathSound (settle n s0 s) :=
  settle_keeps (P := PathSound) (fun _ _ hs ht => settleStep_pathSound hs ht) n h

theorem sweepPut_pathSound {s : State} (h : PathSound s) : PathSound (sweepPut s) := by
  unfold sweepPut
  split
  · exact h
  · split
    · rename_i hlen
      split
      · rename_i o ho
        have hq := List.find?_some ho
        simp only [Bool.and_eq_true, Bool.not_eq_true'] at hq
        have hw := queued_false hq.2
        obtain ⟨hm, hl, hn⟩ := h
        refine ⟨hm, ?_, ?_⟩
        · simp only [appendEntry_path, List.length_append, List.length_singleton]; omega
        · simp only [appendEntry_path, List.map_append, List.map_cons, List.map_nil]
          exact nodup_append_new hn hw
      · exact h
    · exact h

/-- An event whose own effect keeps memory canonical and the queue sound keeps them to its end. -/
theorem event_pathSound {f : State → State} {s : State} (h : PathSound (f (beginEvent s))) : PathSound (event f s) := by
  unfold event
  dsimp only
  have ht := settle_pathSound settleBound (eventBase (beginEvent s) (f (beginEvent s))) h
  refine levelEvents_keeps (P := PathSound) (fun u hu => settle_pathSound settleBound (levelBase u) hu) 2 ?_
  split
  · exact sweepPut_pathSound ht
  · exact ht

end Sys2Proof.Machine
end

