-- ==== Sys2Proof/Laws/Units.lean ====
section
/-! SUPPORT. What each unit's operations change: the areas of the state that they are within. -/

set_option Elab.async false

namespace Sys2Proof.Machine

open Sys2Proof.Config

/-- A change within some areas, seen as one within more. -/
theorem Within.wide {l k : List Area} {s t : State} (h : Within l s t) (hs : ∀ a ∈ l, a ∈ k := by decide) : Within k s t :=
  h.mono hs

/-- A change within `k` followed by one within fewer areas. -/
theorem Within.next {l k : List Area} {s u t : State} (h : Within k s u) (h' : Within l u t)
    (hs : ∀ a ∈ l, a ∈ k := by decide) : Within k s t := h.trans (h'.mono hs)

/-! ## The trip unit -/

theorem cellStateRecord_within (i : Fin 4) (a b : CellState) (s : State) : Within [] s (cellStateRecord i a b s) :=
  addRecord_within _ _ _ s

theorem noConfirm_within (i : Fin 4) (s : State) : Within [.fault] s (noConfirm i s) := recordFault_within _ _ s

theorem tripCell_within (i : Fin 4) (s : State) : Within [.trip, .level] s (tripCell i s) := by
  unfold tripCell
  dsimp only
  refine Within.next ?_ (joinAlert_within _ _)
  refine Within.next ?_ (postCell_within _ _)
  split
  · refine Within.next ?_ (localCause_within _ _ _ _)
    refine Within.next ?_ (addRecord_within _ _ _ _)
    exact (changeCell_within i _ s).wide
  · refine Within.next ?_ (addRecord_within _ _ _ _)
    exact (changeCell_within i _ s).wide

/-- Evaluating a cell changes the cell, and a trip joins the ALERT cause set. -/
theorem evaluateCell_within (i : Fin 4) (s : State) : Within [.trip, .level] s (evaluateCell i s) := by
  unfold evaluateCell
  split
  · dsimp only
    split
    · refine Within.next ?_ (tripCell_within _ _)
      exact (changeCell_within i _ s).wide.next (postCell_within _ _)
    · exact (changeCell_within i _ s).wide.next (postCell_within _ _)
  · exact Within.refl _ s

theorem reevaluate_within (touched : Selector → Bool) (s : State) : Within [.trip, .level] s (reevaluate touched s) := by
  refine forEach_within (fun i u => ?_) s
  split
  · exact evaluateCell_within i u
  · exact Within.refl _ u

theorem confirmArrives_within (i : Fin 4) (v : Bool) (s : State) : Within [.trip, .fault] s (confirmArrives i v s) := by
  unfold confirmArrives
  dsimp only
  split
  · exact Within.refl _ s
  · split
    · exact ((changeCell_within i _ s).wide.next (cellStateRecord_within _ _ _ _)).next (postCell_within _ _)
    · exact ((changeCell_within i _ s).wide.next (cellStateRecord_within _ _ _ _)).next (postCell_within _ _)
    · exact (((changeCell_within i _ s).wide.next (cellStateRecord_within _ _ _ _)).next (noConfirm_within _ _)).next
        (postCell_within _ _)
    · exact Within.refl _ s

theorem confirmExpiry_within (i : Fin 4) (s : State) : Within [.trip, .fault] s (confirmExpiry i s) :=
  (((changeCell_within i _ s).wide.next (cellStateRecord_within _ _ _ _)).next (noConfirm_within _ _)).next
    (postCell_within _ _)

theorem confirmLine_within (n : Fin 8) (i : Fin 4) (s : State) :
    Within [.trip, .level, .fault] s (confirmLine n i s) := by
  unfold confirmLine
  dsimp only
  refine Within.next ?_ (reevaluate_within _ _)
  refine Within.next ?_ (confirmArrives_within _ _ _)
  refine Within.next ?_ (postCell_within _ _)
  simp [Within, SameBut, SameBase, SameLevel, SameRoad, SameFault, SamePath]

theorem evacuatingReevaluation_within (s : State) : Within [.trip, .level] s (evacuatingReevaluation s) := by
  refine Within.trans ?_ (reevaluate_within _ _)
  simp [Within, SameBut, SameBase, SameLevel, SameRoad, SameFault, SamePath]

/-! ## The refuge unit -/

theorem flagRecord_within (c : Fin 4) (k : Nat) (v : Bool) (s : State) : Within [] s (flagRecord c k v s) :=
  addRecord_within _ _ _ s

/-- Deriving an alarm changes the chamber and its member of the ALERT cause set. -/
theorem deriveAlarm_within (c : Fin 4) (s : State) : Within [.refuge, .level] s (deriveAlarm c s) := by
  unfold deriveAlarm
  dsimp only
  split
  · exact Within.refl _ s
  · split
    · refine Within.next ?_ (requestFrame_within _ _)
      refine Within.next ?_ (joinAlert_within _ _)
      exact (changeChamber_within c _ s).wide.next (addRecord_within _ _ _ _)
    · split
      · refine Within.next ?_ (leaveAlert_within _ _)
        exact (changeChamber_within c _ s).wide.next (addRecord_within _ _ _ _)
      · exact (changeChamber_within c _ s).wide

theorem deriveMismatch_within (c : Fin 4) (s : State) : Within [.refuge] s (deriveMismatch c s) := by
  unfold deriveMismatch
  dsimp only
  split <;> split
  · exact Within.refl _ s
  · exact (changeChamber_within c _ s).next (addRecord_within _ _ _ _)
  · exact Within.refl _ s
  · exact (changeChamber_within c _ s).next (addRecord_within _ _ _ _)

theorem removeMiner_within (c : Fin 4) (m : Id) (s : State) : Within [.refuge] s (removeMiner c m s) :=
  changeChamber_within c _ s

theorem joinChamber_within (c : Fin 4) (m : Id) (r : Bool) (s : State) : Within [.refuge] s (joinChamber c m r s) := by
  unfold joinChamber
  dsimp only
  split
  · split
    · exact changeChamber_within c _ s
    · exact (changeChamber_within c _ s).next (addRecord_within _ _ _ _)
  · exact (changeChamber_within c _ s).next (addRecord_within _ _ _ _)

theorem deriveChambers_within (cs : List (Fin 4)) (s : State) : Within [.refuge, .level] s (deriveChambers cs s) :=
  (foldl_within (l := [.refuge]) (fun c u => deriveMismatch_within c u) cs s).wide.trans
    (foldl_within (fun c u => deriveAlarm_within c u) cs _)

theorem checkIn_within (c : Fin 4) (m : Id) (s : State) : Within [.refuge, .level] s (checkIn c m s) := by
  unfold checkIn
  split
  · split
    · exact Within.refl _ s
    · dsimp only
      refine Within.trans ?_ (deriveChambers_within _ _)
      refine Within.next ?_ (joinChamber_within _ _ _ _)
      exact (removeMiner_within _ m s).wide.next (addRecord_within _ _ _ _)
  · exact (joinChamber_within c m false s).wide.trans (deriveChambers_within _ _)

theorem checkOut_within (c : Fin 4) (m : Id) (s : State) : Within [.refuge, .level] s (checkOut c m s) := by
  unfold checkOut
  dsimp only
  split
  · exact ((removeMiner_within c m s).wide.next (addRecord_within _ _ _ _)).trans (deriveChambers_within _ _)
  · split
    · exact Within.refl _ s
    · exact ((changeChamber_within c _ s).wide.next (addRecord_within _ _ _ _)).trans (deriveChambers_within _ _)

theorem checkOutByRequest_within (c : Fin 4) (m : Id) (s : State) :
    Within [.refuge, .level] s (checkOutByRequest c m s) :=
  ((removeMiner_within c m s).wide.next (addRecord_within _ _ _ _)).trans (deriveChambers_within _ _)

theorem chamberSilence_within (c : Fin 4) (s : State) : Within [.refuge, .level] s (chamberSilence c s) :=
  ((changeChamber_within c _ s).wide.next (flagRecord_within _ _ _ _)).trans (deriveAlarm_within _ _)

theorem airlockExpiry_within (c : Fin 4) (s : State) : Within [.refuge, .level] s (airlockExpiry c s) :=
  ((changeChamber_within c _ s).wide.next (flagRecord_within _ _ _ _)).trans (deriveAlarm_within _ _)

theorem reportChamber_within (c : Fin 4) (a : AirlockReport) (n : BitVec 16) (s : State) :
    Within [.refuge] s (reportChamber c a n s) := by
  unfold reportChamber
  dsimp only
  have first : ∀ (u : State) (b : Bool), Within [.refuge] u (if b then flagRecord c 1 false u else u) := by
    intro u b; split
    · exact (flagRecord_within _ _ _ u).wide
    · exact Within.refl _ u
  split
  · refine Within.trans ?_ (changeChamber_within c _ _)
    exact (changeChamber_within c _ s).trans (first _ _)
  · split
    · refine Within.next ?_ (flagRecord_within _ _ _ _)
      refine Within.trans ?_ (changeChamber_within c _ _)
      exact (changeChamber_within c _ s).trans (first _ _)
    · refine Within.trans ?_ (changeChamber_within c _ _)
      exact (changeChamber_within c _ s).trans (first _ _)

/-! ## The air unit -/

theorem recomputeChannel_within (i : Fin 24) (s : State) : Within [.air] s (recomputeChannel i s) :=
  changeChannel_within i _ s

theorem evaluateAgreement_within (i j : Fin 24) (s : State) : Within [.air] s (evaluateAgreement i j s) := by
  unfold evaluateAgreement
  dsimp only
  split
  · exact Within.refl _ s
  · split
    · exact (changeChannel_within i _ s).trans (changeChannel_within j _ _)
    · exact (changeChannel_within i _ s).trans (changeChannel_within j _ _)

theorem handFaults_within (i : Fin 24) (a b : FaultFlags) (s : State) : Within [.fault] s (handFaults i a b s) := by
  unfold handFaults
  split
  · exact Within.refl _ s
  · dsimp only
    split
    · exact (addRecord_within _ _ _ s).wide.trans (recordFault_within _ _ _)
    · exact (addRecord_within _ _ _ s).wide

theorem handGrade_within (i : Fin 24) (a b : Grade) (s : State) : Within [] s (handGrade i a b s) := by
  unfold handGrade
  split
  · exact Within.refl _ s
  · dsimp only
    split
    · exact (addRecord_within _ _ _ s).trans (requestFrame_within _ _)
    · exact addRecord_within _ _ _ s

theorem handOn_within (i : Fin 24) (c : Channel) (s : State) : Within [.fault] s (handOn i c s) :=
  ((handFaults_within i _ _ s).next (handGrade_within _ _ _ _)).next (postChanged_within _ _)

/-- An arrival changes channels and hands on records and faults. -/
theorem arrival_within (i : Fin 24) (graded : Bool) (f : Channel → Channel) (s : State) :
    Within [.air, .fault] s (arrival i graded f s) := by
  unfold arrival
  dsimp only
  split
  · refine Within.next ?_ (handOn_within _ _ _)
    exact (changeChannel_within i f s).wide.next (recomputeChannel_within _ _)
  · split
    · refine Within.next ?_ (handOn_within _ _ _)
      refine Within.next ?_ (recomputeChannel_within _ _)
      exact (changeChannel_within i f s).wide.next (evaluateAgreement_within _ _ _)
    · refine Within.next ?_ (handOn_within _ _ _)
      refine Within.next ?_ (handOn_within _ _ _)
      refine Within.next ?_ (recomputeChannel_within _ _)
      refine Within.next ?_ (recomputeChannel_within _ _)
      exact (changeChannel_within i f s).wide.next (evaluateAgreement_within _ _ _)

theorem alertChannel_within (s : State) (i : Fin 24) : Within [.level] s (alertChannel s i) := by
  unfold alertChannel
  split
  · exact Within.refl _ s
  · split
    · exact joinAlert_within _ s
    · exact leaveAlert_within _ s

/-- Telling the readers of the channels changes cells, the ALERT cause set and chamber alarms, and gates the roads. -/
theorem airReaders_within (alarms : Bool) (s0 s : State) : Within [.trip, .level, .refuge] s (airReaders alarms s0 s) := by
  have base : Within [.trip, .level, .refuge] s (regate (gradesChanged s0 s)
      ((gradesChanged s0 s).foldl alertChannel (reevaluate (channelTouched s0 s) s))) := by
    refine Within.next ?_ (regate_within _ _)
    refine Within.next ?_ (foldl_within (l := [.level]) (fun i u => alertChannel_within u i) _ _)
    exact (reevaluate_within _ s).wide
  unfold airReaders
  dsimp only
  split
  · refine base.trans (forEach_within (fun c u => ?_) _)
    split
    · exact (deriveAlarm_within c u).wide
    · exact Within.refl _ u
  · exact base

theorem rawReading_within (n : Fin 16) (w : Word) (s : State) :
    Within [.air, .trip, .level, .refuge, .fault] s (rawReading n w s) := by
  unfold rawReading
  split
  · exact Within.refl _ s
  · split
    · exact Within.refl _ s
    · exact (arrival_within _ _ _ s).wide.next (airReaders_within _ _ _)

theorem chamberValue_within (c : Fin 4) (g : Gas) (w : BitVec 16) (s : State) :
    Within [.air, .fault] s (chamberValue c g w s) := by
  unfold chamberValue
  split
  · exact Within.refl _ s
  · exact arrival_within _ _ _ s

theorem staleExpiry_within (i : Fin 24) (s : State) :
    Within [.air, .trip, .level, .refuge, .fault] s (staleExpiry i s) := by
  unfold staleExpiry
  dsimp only
  refine Within.next ?_ (airReaders_within _ _ _)
  exact (arrival_within _ _ _ s).wide

theorem acknowledge_within (i : Fin 24) (shown : Nat) (s : State) :
    Within [.air, .trip, .level, .refuge] s (acknowledge i shown s) := by
  unfold acknowledge
  dsimp only
  split
  · refine Within.next ?_ (airReaders_within _ _ _)
    refine Within.next ?_ (postChanged_within _ _)
    refine Within.next ?_ (addRecord_within _ _ _ _)
    split
    · exact (changeChannel_within i _ s).wide
    · exact (changeChannel_within i _ s).wide.next (addRecord_within _ _ _ _)
  · exact Within.refl _ s

/-! ## The call unit -/

theorem rederivePriority_within (p : Fin 8) (s : State) : Within [.call] s (rederivePriority p s) := by
  unfold rederivePriority
  split
  · exact Within.refl _ s
  · dsimp only
    split
    · exact Within.refl _ s
    · exact (addRecord_within _ _ _ s).wide.trans (setCall_within _ _ _)

theorem rederivePriorities_within (s : State) : Within [.call] s (rederivePriorities s) :=
  forEach_within (fun p u => rederivePriority_within p u) s

theorem callActivity_within (p : Fin 8) (s : State) : Within [.call] s (callActivity p s) := by
  unfold callActivity
  split
  · exact Within.refl _ s
  · exact setCall_within _ _ s

theorem admitCall_within (p : Fin 8) (id : CallId) (m : Id) (o : CallOrigin) (q : Priority) (s : State) :
    Within [.call] s (admitCall p id m o q s) := by
  unfold admitCall
  dsimp only
  refine Within.trans ?_ (setCall_within _ _ _)
  simp [Within, SameBut, SameBase, SameLevel, SameRoad, SameFault, SamePath]

/-- A call that leaves marks its frames in flight and nothing else. -/
theorem departFrames_within (id : CallId) (s : State) : Within [.call] s (departFrames id s) := by
  simp [Within, SameBut, SameBase, SameLevel, SameRoad, SameFault, SamePath]

theorem freeCall_within (p : Fin 8) (id : CallId) (s : State) : Within [.call] s (freeCall p id s) := by
  unfold freeCall
  refine Within.trans ?_ (setCall_within _ _ _)
  refine Within.trans ?_ (departFrames_within _ _)
  simp [Within, SameBut, SameBase, SameLevel, SameRoad, SameFault, SamePath]

theorem preemptCall_within (p : Fin 8) (id : CallId) (s : State) : Within [.call] s (preemptCall p id s) := by
  unfold preemptCall
  split
  · exact Within.refl _ s
  · exact ((freeCall_within p _ s).next (addRecord_within _ _ _ _)).trans (countCall_within _ _)

theorem callOpen_within (id : CallId) (m : Id) (o : CallOrigin) (s : State) : Within [.call] s (callOpen id m o s) := by
  unfold callOpen
  split
  · split
    · exact Within.refl _ s
    · exact ((setCall_within _ _ s).trans (rederivePriorities_within _)).trans (callActivity_within _ _)
  · dsimp only
    split
    · exact admitCall_within _ _ _ _ _ s
    · split
      · exact (preemptCall_within _ _ s).trans (admitCall_within _ _ _ _ _ _)
      · exact (addRecord_within _ _ _ s).wide.trans (countCall_within _ _)

theorem closeCall_within (p : Fin 8) (reason : Nat) (s : State) : Within [.call] s (closeCall p reason s) := by
  unfold closeCall
  split
  · exact Within.refl _ s
  · exact (freeCall_within p _ s).next (addRecord_within _ _ _ _)

theorem callClose_within (id : CallId) (s : State) : Within [.call] s (callClose id s) := by
  unfold callClose
  split
  · exact closeCall_within _ _ s
  · exact Within.refl _ s

theorem callVoice_within (id : CallId) (s : State) : Within [.call] s (callVoice id s) := by
  unfold callVoice
  split
  · exact callActivity_within _ s
  · exact Within.refl _ s

theorem callSent_within (n : Fin 64) (tag : BitVec 8) (s : State) : Within [.call] s (callSent n tag s) := by
  unfold callSent
  split
  · exact callVoice_within _ s
  · exact Within.refl _ s

theorem callSilence_within (p : Fin 8) (s : State) : Within [.call] s (callSilence p s) := by
  unfold callSilence
  split
  · exact Within.refl _ s
  · split
    · exact setCall_within _ _ s
    · exact (closeCall_within _ _ s).trans (countCall_within _ _)

theorem refreshDistress_within (m : Id) (id : CallId) (d : Distress) (s : State) :
    Within [.call] s (refreshDistress m id d s) := by
  unfold refreshDistress
  dsimp only
  generalize (if id = 0 then d.call else some id) = call
  split
  · exact setDistress_within _ s
  · exact (setDistress_within _ s).trans (rederivePriorities_within _)

theorem addDistress_within (m : Id) (id : CallId) (n : NodeId) (s : State) :
    Within [.call, .level] s (addDistress m id n s) := by
  unfold addDistress
  dsimp only
  refine Within.next ?_ (requestFrame_within _ _)
  have listed : Within [.call, .level] s (rederivePriorities (addRecord recDistressAdded m.toNat (distressDetail n id)
      (setDistress (s.call.distress ++
        [{ miner := m, node := n, first := s.time, last := s.time, call := callField id }]) s))) :=
    ((setDistress_within _ s).wide.next (addRecord_within _ _ _ _)).next (rederivePriorities_within _)
  split
  · exact listed.next (joinAlert_within _ _)
  · exact listed

theorem overflowDistress_within (m : Id) (id : CallId) (n : NodeId) (s : State) :
    Within [.call] s (overflowDistress m id n s) := by
  unfold overflowDistress
  dsimp only
  refine Within.next ?_ (requestFrame_within _ _)
  refine Within.next ?_ (reportChanged_within _ _)
  have count : ∀ u : State,
      Within [.call] u { u with call := { u.call with overflow := saturate countTop u.call.overflow } } := by
    intro u; simp [Within, SameBut, SameBase, SameLevel, SameRoad, SameFault, SamePath]
  exact (addRecord_within _ _ _ s).wide.trans (count _)

theorem callDistress_within (m : Id) (id : CallId) (n : NodeId) (s : State) :
    Within [.call, .level] s (callDistress m id n s) := by
  unfold callDistress
  split
  · exact (refreshDistress_within _ _ _ s).wide
  · split
    · exact addDistress_within _ _ _ s
    · exact (overflowDistress_within _ _ _ s).wide

theorem clearDistress_within (d : Distress) (s : State) : Within [.call, .level] s (clearDistress d s) := by
  have cleared : Within [.call, .level] s (rederivePriorities (withdrawFrames (PartFrame.relays d.miner)
      (addRecord recDistressCleared d.miner.toNat (detail [detailTime d.first])
        (removeDistress d.miner s)))) :=
    (((removeDistress_within _ s).wide.next (addRecord_within _ _ _ _)).next (withdrawFrames_within _ _)).next
      (rederivePriorities_within _)
  unfold clearDistress
  dsimp only
  split
  · exact cleared.next (leaveAlert_within _ _)
  · exact cleared

/-! ## The roadway unit's own events -/

theorem beaconTruck_within {b : Beacon} {s t : State} (h : beaconTruck b s = some t) : Within [.road] s t := by
  unfold beaconTruck at h
  split at h
  · dsimp only at h
    split at h <;> cases h
    · exact (setTruck_within _ _ s).next (addRecord_within _ _ _ _)
    · exact setTruck_within _ _ s
  · split at h <;> cases h
    exact setTruck_within _ _ s

theorem leaveSegment_within (truck : Id) (i : Fin 16) (s : State) : Within [.road] s (leaveSegment truck i s) :=
  (((changeSegment_within_road i _ s).next (addRecord_within _ _ _ _)).next (rederive_within _ _)).next
    (markSegment_within _ _)

theorem beaconLeave_within (truck : Id) (current : Option (Fin 16)) (s : State) :
    Within [.road] s (beaconLeave truck current s) := by
  refine forEach_within (fun i u => ?_) s
  split
  · exact leaveSegment_within truck i u
  · exact Within.refl _ u

theorem beaconEnter_within (b : Beacon) (i : Fin 16) (s : State) : Within [.road] s (beaconEnter b i s) := by
  unfold beaconEnter
  dsimp only
  split
  · exact (((changeSegment_within_road i _ s).next (addRecord_within _ _ _ _)).next (rederive_within _ _)).next
      (markSegment_within _ _)
  · split
    · exact (rederive_within _ s).wide
    · refine Within.next ?_ (rederive_within _ _)
      refine Within.next ?_ (addRecord_within _ _ _ _)
      have first : Within [.road] s (if waits s.road.segments[i] b.truck then
          markSegment i (dropWaiter i b.truck s) else s) := by
        split
        · exact ((dropWaiter_within i b.truck s).trans (markSegment_within _ _)).wide
        · exact Within.refl _ s
      split
      · exact first
      · exact first.trans (changeSegment_within_road i _ _)

theorem leaveOtherQueues_within (truck : Id) (i : Fin 16) (s : State) : Within [] s (leaveOtherQueues truck i s) := by
  refine forEach_within (fun k u => ?_) s
  split
  · exact (dropWaiter_within k truck u).trans (markSegment_within _ _)
  · exact Within.refl _ u

theorem beaconRequest_within (b : Beacon) (i : Fin 16) (s : State) : Within [.road] s (beaconRequest b i s) := by
  unfold beaconRequest
  dsimp only
  split
  · exact Within.refl _ s
  · split
    · exact Within.refl _ s
    · split
      · exact (changeSegment_within_road i _ s).next (markSegment_within _ _)
      · split
        · exact (addRecord_within _ _ _ s).wide.trans (countRoad_within _ _)
        · exact ((leaveOtherQueues_within _ _ s).wide.trans (changeSegment_within_road i _ _)).next (markSegment_within _ _)

/-- A beacon changes the roads alone. -/
theorem takeBeacon_within (b : Beacon) (s : State) : Within [.road] s (takeBeacon b s) := by
  unfold takeBeacon
  split
  · exact (addRecord_within _ _ _ s).wide.trans (countRoad_within _ _)
  · rename_i u hu
    have enter : ∀ v : State, Within [.road] v
        (match controlledIndex u b.current with | some i => beaconEnter b i v | none => v) := by
      intro v; split
      · exact beaconEnter_within _ _ v
      · exact Within.refl _ v
    have placed := ((beaconTruck_within hu).trans (beaconLeave_within b.truck (controlledIndex u b.current) u)).trans (enter _)
    dsimp only
    split
    · exact placed.trans (beaconRequest_within _ _ _)
    · exact placed

theorem grantExpiry_within (i : Fin 16) (truck : Id) (s : State) : Within [] s (grantExpiry i truck s) :=
  (((((dropHolder_within i truck s).andThen (withdrawGrant_within _ _ _)).andThen (addRecord_within _ _ _ _)).andThen
    (requestFrame_within _ _)).andThen (rederive_within _ _)).andThen (markSegment_within _ _)

theorem truckStaleExpiry_within (p : Fin 32) (s : State) : Within [.road] s (truckStaleExpiry p s) := by
  unfold truckStaleExpiry
  split
  · exact Within.refl _ s
  · split
    · exact setTruck_within _ _ s
    · dsimp only
      refine Within.trans ((setTruck_within _ _ s).next (addRecord_within _ _ _ _)) (forEach_within (fun k u => ?_) _)
      split
      · exact ((dropWaiter_within k _ u).trans (markSegment_within _ _)).wide
      · exact Within.refl _ u

theorem clearPlaces_within (truck : Id) (i : Fin 16) (s : State) : Within [.road] s (clearPlaces truck i s) :=
  ((((dropHolder_within i truck s).wide.next (dropWaiter_within _ _ _)).trans (changeSegment_within_road i _ _)).next
    (rederive_within _ _)).next (markSegment_within _ _)

theorem clearTruck_within (p : Fin 32) (truck : Id) (s : State) : Within [.road] s (clearTruck p truck s) := by
  unfold clearTruck
  dsimp only
  refine Within.trans ?_ (setTruck_within _ _ _)
  refine Within.next ?_ (addRecord_within _ _ _ _)
  refine Within.trans ?_ (foldl_within (fun i u => clearPlaces_within truck i u) _ _)
  refine Within.next ?_ (foldl_within (l := []) (fun i u => requestFrame_within _ u) _ _)
  refine Within.next ?_ (foldl_within (l := []) (fun i u => requestFrame_within _ u) _ _)
  exact (withdrawFrames_within _ s).wide

end Sys2Proof.Machine
end

