-- ==== Sys2Proof/Tests/Slice0.lean ====
section
/-! SUPPORT. Own tests: ill-formed commands refused by WellFormed; small one-step tests whose expected values come from the
spec's worked cases or from its tables by hand; and, for every statement of Obligations.lean that has hypotheses, states and
operands that meet them. -/

set_option Elab.async false

namespace Sys2Proof.Tests

open Sys2Proof.Machine Sys2Proof.Config

/-! ## WellFormed refuses -/

theorem test_wf_unknownRequest_known_code : (Instr.unknownRequest 5 0 0).wellFormed = false := by decide
theorem test_wf_settingWrite_unaligned : (Instr.settingWrite 0x03F021 0).wellFormed = false := by decide
theorem test_wf_adjustmentWrite_unaligned : (Instr.adjustmentWrite 0x03F602 0).wellFormed = false := by decide
theorem test_wf_consumeIndexWrite_unaligned : (Instr.consumeIndexWrite 0x07D807 0).wellFormed = false := by decide
theorem test_wf_rawAirWrite_unaligned : (Instr.rawAirWrite 0x07D7C1 0).wellFormed = false := by decide
theorem test_wf_channelArmingRead_unaligned : (Instr.channelArmingRead 0x07E041).wellFormed = false := by decide
theorem test_wf_logArmingRead_unaligned : (Instr.logArmingRead 0x07E662).wellFormed = false := by decide
theorem test_wf_consumingRead_unaligned : (Instr.consumingRead 0x07E013).wellFormed = false := by decide
theorem test_wf_txWord0_unaligned : (Instr.txWord0ControllerWrite 0x07D081 0).wellFormed = false := by decide
theorem test_wf_txWord2_unaligned : (Instr.txWord2ControllerWrite 0x07D08A 0).wellFormed = false := by decide
theorem test_wf_modemTxRead_unaligned : (Instr.modemTxRead 0x07D001).wellFormed = false := by decide
theorem test_wf_modemTxWriteback_unaligned : (Instr.modemTxWriteback 0x07D003 0).wellFormed = false := by decide
theorem test_wf_headerCapture_unaligned : (Instr.headerCaptureWrite 0x07A001 0).wellFormed = false := by decide
theorem test_wf_receiveCompletion_unaligned : (Instr.receiveCompletion 0x07D402 0).wellFormed = false := by decide
theorem test_wf_partialRead_full : (Instr.modemTxPartialRead 0x07D000 0xF).wellFormed = false := by decide
theorem test_wf_partialWrite_full : (Instr.partialWrite .modem 0x07D000 0xF 0).wellFormed = false := by decide
theorem test_wf_beacon_truck_zero : (Instr.truckBeacon 0 .diesel .inbye 30 40 0).wellFormed = false := by decide
theorem test_wf_beacon_origin_zero : (Instr.truckBeacon 7 .diesel .inbye 0 40 0).wellFormed = false := by decide
theorem test_wf_beacon_origin_top : (Instr.truckBeacon 7 .diesel .inbye 4095 40 0).wellFormed = false := by decide
theorem test_wf_callOpen_call_zero : (Instr.callOpen 0 7 .handset).wellFormed = false := by decide
theorem test_wf_callOpen_miner_zero : (Instr.callOpen 9 0 .handset).wellFormed = false := by decide
theorem test_wf_callOpen_chamber_zero : (Instr.callOpen 9 7 (.chamber 0)).wellFormed = false := by decide
theorem test_wf_callClose_zero : (Instr.callClose 0).wellFormed = false := by decide
theorem test_wf_voice_zero : (Instr.voice 0).wellFormed = false := by decide
theorem test_wf_distress_miner_zero : (Instr.distress 0 0 30).wellFormed = false := by decide
theorem test_wf_distress_node_top : (Instr.distress 7 0 4095).wellFormed = false := by decide
theorem test_wf_checkIn_zero : (Instr.checkIn 0 0).wellFormed = false := by decide
theorem test_wf_checkOut_zero : (Instr.checkOut 0 0).wellFormed = false := by decide
theorem test_wf_evacuate_relay_zero : (Instr.evacuateFrame 1 0 30 0 9).wellFormed = false := by decide
theorem test_wf_evacuate_cause_top : (Instr.evacuateFrame 1 22 4095 0 9).wellFormed = false := by decide
theorem test_wf_airAlarm_origin_zero : (Instr.airAlarmFrame 0 3 .alarm).wellFormed = false := by decide

/-! ## A node for the tests -/

/-- Channel 6 of the worked case "A Methane Head" (chapter 1), with a stale time of 5 s. -/
def methane : ChannelSet :=
  { source := .localInput 3, alerting := true, faultGrade := .notice, shift := 2, zero := 410, underMargin := 20, span := 556,
    fullScale := 500, limits := { t1 := 50, t2 := 100, t3 := 125, hyst := 10 }, staleTime := 5 }

/-- Channel 12 of the worked case "An Oxygen Channel in a Chamber" (chapter 1). -/
def oxygen : ChannelSet :=
  { source := .chamber 1 .o2, falling := true, faultGrade := .alarm, fullScale := 2500,
    limits := { t1 := 1950, t2 := 1850, t3 := 1700, hyst := 20 }, staleTime := 60 }

/-- Cell 0 of the worked case "A Methane Trip with a Late Isolator" (chapter 2). -/
def confirmedCell : CellSet :=
  { enabled := true, confirmRequired := true, confirmTimeout := 20,
    inputs := #v[{ index := 6, n := 3, code := 2 }, {}, {}, {}] }

/-- A cell on EVACUATING alone. -/
def evacuatingCell : CellSet := { enabled := true, inputs := #v[{ code := 5 }, {}, {}, {}] }

/-- A controlled segment gated by channel 6. -/
def segment40 : SegmentSet := { id := 40, controlled := true, convoy := 2, gate := 0x40, grantTime := 10 }

/-- Settings that pass every start check: node 21, split B, a methane head, an oxygen channel, a confirmed trip cell, a cell on
EVACUATING, two controlled segments and two chambers. -/
def settings : Settings :=
  { regions := { report := 0x07E000, events := 0x07D800, rawAir := 0x07D7C0, txSlots := 0x07D000, rxSlots := 0x07D400,
                 rxBuffers := 0x07A000, partFrames := 0x07C000 }
    node := { nodeId := 21, split := 2, hop := 2, clock := 8000, repeatPeriod := 10, rateWindow := 10, patrol := 1,
              remoteHold := 3, truckStale := 30, truckForget := 60, silenceTime := 20, silenceAny := true }
    channels := ((Vector.replicate 24 {}).set 6 methane).set 12 oxygen
    cells := ((Vector.replicate 4 {}).set 0 confirmedCell).set 1 evacuatingCell
    lines := #v[{ fn := .tripOut 0 }, { fn := .confirmIn 0 }, { fn := .tripOut 1 }, { fn := .beacon }, { fn := .siren },
                {}, {}, {}]
    segments := ((Vector.replicate 16 {}).set 0 segment40).set 1 { id := 41, controlled := true }
    chambers := #v[{ id := 301, capacity := 2, silenceTime := 5, airlockLimit := 6 },
                   { id := 302, capacity := 2, silenceTime := 5, airlockLimit := 6, o2 := some 12 }, {}, {}] }

/-- The node in SETUP. -/
def setupNode : State := { copies := settings }

/-- The node in RUN with the start scan and the sweep done, nothing queued, every ring at its first slot. -/
def node : State :=
  { run := true, copies := settings, effective := settings, time := 41000
    path := { scanCursor := 64 }
    channels := mapTable startChannel settings.channels
    rate := PeriodTimer.start 10
    cells := mapTable startCell settings.cells
    level := { repeatTimer := PeriodTimer.start 10 }
    ring := { shadows := Vector.replicate 64 { scanned := true },
              rings := #v[{ next := some 0 }, { next := some 8 }, { next := some 16 }, { next := some 32 }] }
    chambers := mapTable startChamber settings.chambers
    fault := { patrol := PeriodTimer.start 1 } }

/-- The state after a command. -/
def after (c : Instr) (s : State) : State :=
  match exec c s with
  | .next t => t
  | .fault _ | .refused _ => s

/-- The node with channel 6 changed. -/
def withHead (f : Channel → Channel) : State := { node with channels := modifyAt node.channels 6 f }

/-- The node with one call in position 0. -/
def withCall (c : Call) : State :=
  { node with call := { table := (Vector.replicate 8 none).set 0 (some c), order := [0] } }

/-- A call of miner 7. -/
def oneCall : Call :=
  { id := 9, miner := 7, origin := .handset, priority := .ordinary, opened := 1000, last := 1000, silence := .running 20 20 }

/-- The level unit in EVACUATE. -/
def evacuatedLevel : LevelUnit :=
  { level := .evacuate, ownSeq := 1, muster := { current := true }, repeatTimer := PeriodTimer.start 10
    cause := some { kind := .request, node := 21, seq := 1, hop := some 2, reason := 9, time := 40000 } }

/-- The node in EVACUATE by a request (worked case "A Trip That Evacuates": own sequence 1, hop 2). -/
def evacuated : State := { node with level := evacuatedLevel }

/-- A truck of the table. -/
def oneTruck : Truck :=
  { id := 7, power := .diesel, heading := .inbye, lastSegment := 40, lastBeacon := 1000, lost := none, stale := .running 30 30,
    forget := .running 60 60 }

/-- The roads with that truck in position 0, holding segment 0. -/
def oneTruckRoad : RoadUnit :=
  { trucks := (Vector.replicate 32 none).set 0 (some oneTruck)
    segments := (Vector.replicate 16 {}).set 0
      { direction := .inbye, holders := [{ truck := 7, dir := .inbye, grant := .running 10 10 }] } }

/-- The node with a truck in position 0 that holds segment 0. -/
def withTruck : State := { node with road := oneTruckRoad }

/-- Chamber 0 full, both timers due. -/
def fullChamber : Chamber :=
  { occupants := [7, 8], silenceTimer := .running 5 5, airlock := .opened, airlockTimer := .running 6 6 }

/-- The node with that chamber. -/
def withChamber : State := { node with chambers := node.chambers.set 0 fullChamber }

/-- The node with one transmit shadow changed. -/
def withShadow (n : Fin 64) (h : Shadow) : State :=
  { node with ring := { node.ring with shadows := node.ring.shadows.set n h } }

/-- A raw air word with raw code `r`, sequence `q` and the front-end fault clear (R180). -/
def rawWord (r q : Nat) : Word := layout [(0, 12, r), (12, 4, q)]

/-! ## One step of each kind, with values from the spec's worked cases or its tables -/

/-- Worked case "A Methane Head": seq 5. -/
theorem test_reading_first :
    let t := after (.rawAirWrite 0x07D7CC (rawWord 1000 5)) node
    t.channels[6].a16 = 1280 ∧ average t.channels[6] = 80 ∧ t.channels[6].computed = .notice
      ∧ memWord t.mem 0x07D7CC = 0x000253E8 := by decide +kernel

/-- Worked case "A Methane Head": seq 8 from a16 1,567. -/
theorem test_reading_alarm :
    let t := after (.rawAirWrite 0x07D7CC (rawWord 1300 8))
      (withHead (fun c => { c with a16 := 1567, seen := true, seq := some 7, computed := .notice, live := .notice, latched := .notice }))
    t.channels[6].a16 = 1659 ∧ held t.channels[6] = .alarm ∧ t.level.level = .alert := by decide +kernel

/-- Worked case "An Oxygen Channel in a Chamber": 1,875 from ALARM is NOTICE. -/
theorem test_chamber_value :
    let t := after (.refugeStatus 1 .shut 1875 0 0)
      { node with channels := node.channels.set 12 { node.channels[12] with a16 := 16 * 1860, seen := true, computed := .alarm } }
    t.channels[12].computed = .notice ∧ average t.channels[12] = 1875 ∧ t.chambers[1].airlock = .shut := by decide +kernel

/-- Worked case "An Oxygen Channel in a Chamber": 0xFFFF holds the average and adds FE; the live grade is ALARM. -/
theorem test_chamber_value_absent :
    let t := after (.refugeStatus 1 .shut 0xFFFF 0 0)
      { node with channels := node.channels.set 12 { node.channels[12] with a16 := 16 * 1875, seen := true, computed := .notice } }
    average t.channels[12] = 1875 ∧ t.channels[12].faults.fe = true ∧ t.channels[12].live = .alarm := by decide +kernel

/-- Worked case "Acknowledging Through the Mirror", steps 1 and 2. -/
theorem test_acknowledge :
    let s := withHead (fun c => { c with live := .notice, latched := .alarm, computed := .notice, seen := true })
    let t := after (.ackWordRead 6) { s with path := { s.path with arming := some { target := .channel 6, shown := 2 } } }
    held t.channels[6] = .notice ∧ t.path.arming = none := by decide +kernel

/-- Worked case "Acknowledging Through the Mirror", step 1: word A in memory shows held ALARM. -/
theorem test_arming_read :
    (after (.channelArmingRead 0x07E070) { node with mem := [(0x07E070, 0x26)] }).path.arming
      = some { target := .channel 6, shown := 2 } := by decide +kernel

/-- Worked case "A Methane Trip with a Late Isolator", step 2, with the default escalation. -/
theorem test_confirm_expiry :
    let t := after (.confirmTimerExpiry 0)
      { node with cells := node.cells.set 0 { state := .tripped, demand := true, confirm := .running 20 20 } }
    t.cells[0].state = .unconfirmed ∧ t.level.level = .evacuate := by decide +kernel

/-- Worked case "A Methane Trip with a Late Isolator", step 3. -/
theorem test_confirm_line :
    let t := after (.confirmInChange 1 true)
      { node with cells := node.cells.set 0 { state := .unconfirmed, demand := true, confirm := .expired } }
    t.cells[0].state = .isolated ∧ t.cells[0].confirm = .off ∧ t.drive[0] = some false := by decide +kernel

/-- Worked case "A Methane Trip with a Late Isolator", steps 5 and 7: the outcome words of R182. -/
theorem test_reset_cell :
    let s := { node with cells := node.cells.set 0 { state := .isolated, demand := true } }
    (after (.resetCell 0x21 0) s).path.queue.map (·.data) = [0x03210206]
      ∧ (after (.resetCell 0x21 0) { s with cells := s.cells.set 0 { state := .isolated } }).cells[0].state = .ready := by
  decide +kernel

/-- Worked case "Hops Along a Roadway": node 13 takes the frame of node 12. -/
theorem test_evacuate_frame :
    let t := after (.evacuateFrame 3 12 12 7 9) node
    t.level.cause = some { kind := .remote, node := 12, seq := 7, hop := some 2, reason := 9, time := 41000 }
      ∧ t.level.level = .evacuate := by decide +kernel

/-- Worked case "Hops Along a Roadway": hop remaining raised from absent to 0. -/
theorem test_evacuate_frame_raises :
    let c : Cause := { kind := .remote, node := 12, seq := 7, hop := none, reason := 9, time := 1 }
    ((after (.evacuateFrame 1 14 12 7 9) { evacuated with level := { evacuatedLevel with cause := some c } }).level.cause.map (·.hop))
      = some (some 0) := by decide +kernel

/-- R57: reason 7 is BAD_ARGUMENT, reason 8 is taken. -/
theorem test_evacuate_request :
    (after (.evacuate 1 7) node).path.queue.map (·.data) = [0x04010400]
      ∧ (after (.evacuate 1 8) node).level.ownSeq = 1 := by decide +kernel

/-- Worked case "A Trip That Evacuates", at 52.0 s: REFUSED, CELLS_ACTIVE. -/
theorem test_end_evacuation_refused :
    (after (.endEvacuation 0x77 0) { evacuated with cells := node.cells.set 1 { state := .isolated } }).path.queue.map (·.data)
      = [0x05770203] := by decide +kernel

/-- R58: the ended cause. -/
theorem test_end_evacuation :
    let t := after (.endEvacuation 0x77 0) evacuated
    t.level.level = .normal ∧ t.level.ended = some (21, 1) := by decide +kernel

/-- R182: NODE word 0 of node 21, split B, hop 2. -/
theorem test_setting_write :
    let t := after (.settingWrite 0x03F020 0x00220015) {}
    t.copies.node.nodeId = 21 ∧ t.copies.node.split = 2 ∧ t.copies.node.hop = 2 ∧ t.effective.node.nodeId = 0 := by
  decide +kernel

/-- R182: T1 and T2 of channel 6's adjustment block. -/
theorem test_adjustment_write :
    let t := after (.adjustmentWrite 0x03F660 0x00640032) node
    t.staged.channels[6].t1 = 50 ∧ t.staged.channels[6].t2 = 100 ∧ memWord t.mem 0x03F660 = 0x00640032 := by decide +kernel

/-- R177: an index past the produce index is clamped to it, in the copy and on the lanes. -/
theorem test_consume_clamped :
    let t := after (.consumeIndexWrite 0x07D804 0xABCD0009) { node with fault := { node.fault with produce := 3, consume := 1 } }
    t.fault.consume = 3 ∧ memWord t.mem 0x07D804 = 0xABCD0003 := by decide +kernel

/-- R174: the kind 1 shown is the kind held. -/
theorem test_release :
    let held : LogEntry := { kind := .guardWrite, ident := .bus .other 0x07E000 5, time := 1, further := 0 }
    (after .releaseWordRead { node with
      fault := { node.fault with log := some held }
      path := { node.path with arming := some { target := .log, shown := 1 } } }).fault.log = none := by decide +kernel

/-- R174: an accepted release of an EMPTY log queues all four log words. -/
theorem test_release_empty :
    let t := after .releaseWordRead { node with path := { node.path with arming := some { target := .log, shown := 0 } } }
    ((t.path.queue.map (·.addr)).filter (fun a => 0x07E000 ≤ a)).take 4 = [0x07E660, 0x07E664, 0x07E668, 0x07E66C] := by decide +kernel

/-- R66: a MODEM write to REPORT is dropped and counted. -/
theorem test_guard_write :
    let t := after (.guardWrite .modem 0x07E000 0xF 5) node
    t.mem = [] ∧ t.fault.counters[0] = 1 := by decide +kernel

/-- R65: an address outside every region passes for any initiator, one lane alone. -/
theorem test_plain_write :
    (after (.plainWrite .other 0x000102 0x4 0x00AB0000) node).mem = [(0x102, 0xAB)] := by decide +kernel

/-- R68: a partial write of word 0 makes the shadow UNKNOWN. -/
theorem test_partial_write :
    let t := after (.partialWrite .controller 0x07D080 0x3 0x80000010) node
    t.ring.shadows[8].state = .unknown ∧ t.fault.counters[1] = 1 := by decide +kernel

/-- R88: owner 1 gives the slot; R89: word 2's fields. -/
theorem test_controller_words :
    (after (.txWord0ControllerWrite 0x07D080 0x80000020) node).ring.shadows[8].state = .ready
      ∧ (after (.txWord2ControllerWrite 0x07D088 0x0211E609) node).ring.shadows[8].tag = 9
      ∧ (after (.txWord2ControllerWrite 0x07D088 0x0211E609) node).ring.shadows[8].dest = 0x1E6 := by decide +kernel

/-- R83, R84: the READY head of the REFUGE ring is shown, one whose tag names no call is to be discarded. -/
theorem test_modem_read :
    (after (.modemTxRead 0x07D080) (withShadow 8 { state := .ready, scanned := true, length := 32 })).readData = 0x80000000
      ∧ (after (.modemTxRead 0x07D080) (withShadow 8 { state := .ready, scanned := true, length := 32, tag := 9 })).readData
        = 0xC0000000 := by decide +kernel

/-- R84: a partial read shows owner and discard 0. -/
theorem test_modem_partial_read :
    (after (.modemTxPartialRead 0x07D080 0x8) { node with mem := [(0x07D080, 0x20), (0x07D083, 0x80)] }).readData = 0x20 := by
  decide +kernel

/-- R86: the head goes on, from the last slot of the REFUGE ring to its first. -/
theorem test_modem_writeback :
    let s := withShadow 15 { state := .inFlight, scanned := true, length := 32, shown := some .owned }
    let t := after (.modemTxWriteback 0x07D0F0 0x30000020)
      { s with ring := { s.ring with rings := s.ring.rings.set 1 { next := some 15 } } }
    t.ring.rings[1].next = some 8 ∧ t.ring.rings[1].failed = 1 ∧ t.ring.shadows[15].state = .empty := by decide +kernel

/-- The node with a call, id 9, one of whose frames is IN_FLIGHT at the head of the REFUGE ring. -/
def sending : State :=
  { withCall oneCall with ring := (withShadow 8 { state := .inFlight, scanned := true, tag := 9, shown := some .owned }).ring }

/-- R123: a frame IN_FLIGHT when its call leaves has departed; one that is not, and a frame of another call, have not. -/
theorem test_frames_depart :
    (after (.callClose 9) sending).ring.departed[8] = true ∧ (after (.callClose 9) sending).ring.departed[9] = false
      ∧ (after (.closeCall 1 9) (withCall oneCall)).ring.departed[8] = false := by decide +kernel

/-- R119, R123: the SENT completion is an activity of the call with its tag, but not of one that has taken the id of the call that left. -/
theorem test_sent_completion :
    let gone := { sending with ring := { sending.ring with departed := sending.ring.departed.set 8 true } }
    ((after (.modemTxWriteback 0x07D080 0x10000020) sending).call.table[0].map (·.last)) = some 41000
      ∧ (after (.modemTxWriteback 0x07D080 0x10000020) gone).call = gone.call := by decide +kernel

/-- R101: H0 starts the entry anew. -/
theorem test_header_capture :
    (after (.headerCaptureWrite 0x07A100 0x04016005) node).frame.capture[1] = { h0 := some 0x04016005 } := by decide +kernel

/-- R102, R105, R106: a VOICE frame of call 9 from node 0x16 is dispatched, and the VOICE command takes it. -/
theorem test_receive_completion :
    let c : Capture := { h0 := some 0x04001605, h1 := some 9, h2 := some 0, h3 := some 0 }
    let s := { node with frame := { node.frame with capture := (Vector.replicate 32 {}).set 1 c } }
    let t := after (.receiveCompletion 0x07D410 0x10) s
    t.frame.handover = some (.voice 9) ∧ t.frame.dispatched = 1 ∧ (after (.voice 9) t).frame.handover = none := by
  decide +kernel

/-- R118, case 1 and 2: an empty table, and a table full of ORDINARY calls for a chamber's call. -/
theorem test_call_open :
    let full : CallUnit :=
      { table := mapTable (fun p : Fin 8 => some { oneCall with id := BitVec.ofNat 8 (p.val + 20) }) ⟨⟨List.finRange 8⟩, by simp⟩,
        order := [3, 0, 1, 2, 4, 5, 6, 7] }
    let t := after (.callOpen 9 7 (.chamber 301)) { node with call := full }
    (after (.callOpen 9 7 .handset) node).call.order = [0]
      ∧ (t.call.table[3].map (·.id)) = some 9 ∧ t.call.preempted = 1 ∧ t.call.order = [0, 1, 2, 4, 5, 6, 7, 3] := by
  decide +kernel

/-- R121 and R122: a call is closed by its frame and by a request. -/
theorem test_call_close :
    (after (.callClose 9) (withCall oneCall)).call.table[0] = none
      ∧ (after (.closeCall 1 9) (withCall oneCall)).call.table[0] = none
      ∧ (after (.closeCall 1 10) (withCall oneCall)).path.queue.map (·.data) = [0x08010208] := by decide +kernel

/-- R120: an ORDINARY call is closed at its silence expiry. -/
theorem test_call_silence :
    (after (.callSilenceExpiry 0) (withCall oneCall)).call.silenceCloses = 1 := by decide +kernel

/-- R125: a distress entry brings the level to ALERT. -/
theorem test_distress : (after (.distress 7 0 30) node).level.level = .alert := by decide +kernel

/-- R134 to R140: a beacon that requests a free segment is granted it at the end of the event. -/
theorem test_beacon_granted :
    let t := after (.truckBeacon 7 .diesel .inbye 30 0 40) node
    (t.road.segments[0].holders.map (·.truck)) = [7] ∧ t.road.segments[0].direction = .inbye
      ∧ t.road.segments[0].queue = [] := by decide +kernel

/-- R136: a truck that enters without a grant is unauthorised. -/
theorem test_beacon_unauthorised :
    (after (.truckBeacon 7 .diesel .inbye 30 41 0) node).road.segments[1].unauthorised = [7] := by decide +kernel

/-- R146 and R149: a lapse and a clearing leave the segment FREE. -/
theorem test_truck_leaves :
    (after (.grantTimerExpiry 0 7) withTruck).road.segments[0].direction = .free
      ∧ (after (.clearTruck 1 7) withTruck).road.segments[0].direction = .free := by decide +kernel

/-- R147 and R148: the truck becomes LOST at node time 41,000; a holder's forget timer expires and the truck stays. -/
theorem test_truck_timers :
    ((after (.truckStaleExpiry 0) withTruck).road.trucks[0].map (·.lost)) = some (some 41000)
      ∧ ((after (.truckForgetExpiry 0) withTruck).road.trucks[0].map (·.forget)) = some .expired := by decide +kernel

/-- R154 and R155: a full chamber overflows; an unlisted miner's check-out takes the overflow. -/
theorem test_check_in_out :
    (after (.checkIn 0 9) withChamber).chambers[0].overflow = 1
      ∧ (after (.checkOut 0 9) { node with chambers := node.chambers.set 0 { fullChamber with overflow := 1 } }).chambers[0].overflow
        = 0 := by decide +kernel

/-- R159, R161: an OCCUPIED chamber alarms. -/
theorem test_chamber_timer : (after (.chamberSilenceExpiry 0) withChamber).chambers[0].alarm = true := by decide +kernel

/-- R50: the remote hold of 3 s runs, expires and leaves. -/
theorem test_remote_alert :
    let t := after (.airAlarmFrame 30 3 .alarm) node
    t.level.remote = .running 0 3 ∧ t.level.level = .alert
      ∧ (after .remoteAlertExpiry { t with level := { t.level with remote := .running 3 3 } }).level.level = .normal := by
  decide +kernel

/-- R24: a stale timer of 5 s. -/
theorem test_stale :
    let t := after (.staleTimerExpiry 6) (withHead (fun c => { c with stale := .running 5 5 }))
    t.channels[6].faults.stale = true ∧ t.channels[6].live = .notice := by decide +kernel

/-- Worked case "A Climb Below the First Threshold": 48 from 30 with rate limit 15. -/
theorem test_rate_window :
    let s := withHead (fun c => { c with a16 := 768, seen := true, windowStart := 30, limits := { c.limits with rate := 15 } })
    let t := after .rateWindowExpiry { s with rate := { s.rate with due := true } }
    t.channels[6].rising = true ∧ t.channels[6].live = .notice ∧ t.channels[6].windowStart = 48 := by decide +kernel

/-- EVACUATE with the repeat timer due. -/
def repeating : State :=
  { evacuated with level := { evacuatedLevel with repeatTimer := { period := some 10, due := true } } }

/-- R55, R56, R95, R112: at the repeat expiry the frame of the cause is built into PART slot 0: kind 10H, hop 2, node 21, sequence 1
in H0, and in H1 the cause's node 21, sequence 1 and reason 9. -/
theorem test_repeat :
    let t := after .repeatTimerExpiry repeating
    (t.ring.records[0].map (·.frame)) = some (.evacuate 21 1 9 2)
      ∧ (t.path.queue.map (fun w => (w.addr, w.data))).take 7
        = [(0x07C000, 0x10201501), (0x07C004, 0x00901015), (0x07C008, 0), (0x07C00C, 0), (0x07D004, 0x0007C000),
           (0x07D008, 0x010FFF00), (0x07D000, 0x80000010)] := by decide +kernel

/-- Channel 6 with channel 7 as its partner, both with limit 5 and agreement time 1 s; channel 7 stands at 100. -/
def partners : State :=
  let pair : ChannelSet := { methane with agreeLimit := 5, agreeTime := 1 }
  { node with
    effective := { settings with
      channels := (settings.channels.set 6 { pair with partner := some 7 }).set 7 { pair with source := .localInput 4, partner := some 6 } }
    channels := node.channels.set 7 { node.channels[6] with seen := true, a16 := 1600, last := 100 } }

/-- R23: a reading 20 below the partner starts a disagreement now, of both; one that comes 1 s after the start is DISAGREE of both. -/
theorem test_partners_apart :
    let t := after (.rawAirWrite 0x07D7CC (rawWord 1000 5)) partners
    let u := after (.rawAirWrite 0x07D7CC (rawWord 1000 6)) { t with time := 42000 }
    t.channels[6].disagreeStart = some 41000 ∧ t.channels[7].disagreeStart = some 41000
      ∧ t.channels[7].faults.disagree = false ∧ u.channels[6].faults.disagree = true ∧ u.channels[7].faults.disagree = true
      ∧ u.channels[7].live = .notice := by decide +kernel

/-- R178: the expiry makes a read pending, and the read finds the identity word missing. -/
theorem test_patrol :
    let t := after .patrolTimerExpiry { node with fault := { node.fault with patrol := { period := some 1, due := true } } }
    t.path.patrolPending = true ∧ (after .patrolRead t).fault.counters[8] = 1
      ∧ (after .patrolRead t).path.patrolCursor = 4 := by decide +kernel

/-- R72: the oldest entry, low byte at the low address (log entry 5). -/
theorem test_drain :
    let w : OwnWrite := { addr := 0x07E010, data := 0x01020304, kind := .coalescing }
    let t := after .drain { node with path := { node.path with queue := [w] } }
    t.mem = [(0x07E010, 4), (0x07E011, 3), (0x07E012, 2), (0x07E013, 1)] ∧ t.path.queue = [] := by decide +kernel

/-- R82: the scan takes an owned slot as READY. -/
theorem test_scan :
    let t := after .startScanRead
      { node with path := { node.path with scanCursor := 8 }, mem := [(0x07D080, 0x20), (0x07D083, 0x80)] }
    t.ring.shadows[8].state = .ready ∧ t.ring.shadows[8].length = 32 ∧ t.path.scanCursor = 9 := by decide +kernel

/-- R76, R77: node time counts, and at 42,000 ms a second has passed. -/
theorem test_tick :
    (after .timeBaseTick { node with time := 41999 }).channels[6].stale = .running 1 5
      ∧ (after .timeBaseTick node).time = 41001 := by decide +kernel

/-- R165, R166: START refuses a clock of 0 with CLOCK_RANGE, and enters RUN with node 21's settings. -/
theorem test_start :
    (after (.start 7 0) {}).path.queue.map (·.data) = [0x01070211]
      ∧ (after (.start 7 0) setupNode).run = true ∧ (after (.start 7 0) setupNode).cells[0].state = .ready
      ∧ (after (.start 7 0) setupNode).drive[0] = some true := by decide +kernel

/-- R170, R171: a RESTART keeps the copies and counts; POWER_ON clears both. -/
theorem test_resets :
    let t := after (.restart 1 9 0) node
    t.run = false ∧ t.resetCount = 1 ∧ t.copies.node.nodeId = 21 ∧ (t.path.queue.map (·.addr)) = [0x07FF04]
      ∧ (after (.resetInput 0) t).resetCount = 2 ∧ (after (.powerOn 0) t).copies.node.nodeId = 0 := by decide +kernel

/-- R169: a channel's adjustment waits; R164: an unknown code and its outcome word. -/
theorem test_adjust_and_unknown :
    let s := { node with staged := { node.staged with channels := node.staged.channels.set 6 methane.limits } }
    (after (.applyAdjustment 1 6) s).channels[6].waiting = some methane.limits
      ∧ (after (.unknownRequest 0x0B 5 0) node).path.queue.map (·.data) = [0x0B050300] := by decide +kernel

/-- R35: the cell on EVACUATING trips in its own event. -/
theorem test_reevaluation :
    (after .evacuatingReevaluation { evacuated with reevalDue := true }).cells[1].state = .isolated := by decide +kernel

/-- R36, R47, R54: cell 0 evacuates on its trip at RUN entry; in the same event cell 1 still reads EVACUATING false and the inverted
cell 2 trips; cell 1 trips in the event that follows. -/
theorem test_level_derived_at_the_end :
    let tripping : CellSet := { confirmedCell with evacuateOnTrip := true, inputs := #v[{ code := 1 }, {}, {}, {}] }
    let cells := (((Vector.replicate 4 {}).set 0 tripping).set 1 evacuatingCell).set 2 { evacuatingCell with outputInvert := true }
    let t := after (.start 7 0) { copies := { settings with cells := cells, lines := settings.lines.set 5 { fn := .tripOut 2 } } }
    t.level.level = .evacuate ∧ t.reevalDue = true ∧ t.cells[1].state = .ready ∧ tripActive t.cells[2] = true
      ∧ tripActive (after .evacuatingReevaluation t).cells[1] = true := by decide +kernel

/-- R123: the CALL_CLOSED record and the produce index stand ahead of the call's report words. -/
theorem test_record_before_report :
    ((after (.callClose 9) (withCall oneCall)).path.queue.map (·.addr)).take 6
      = [0x07D810, 0x07D814, 0x07D818, 0x07D81C, 0x07D800, 0x07E1A0] := by decide +kernel

/-- R129: with two entries of one node and no call, the removal of the first queues all eight words of both positions, last. -/
theorem test_clear_distress_words :
    let d : Distress := { miner := 7, node := 30, first := 1, last := 1, call := none }
    let t := after (.clearDistress 1 7) { node with call := { node.call with distress := [d, { d with miner := 8 }] } }
    (List.range 8).all (fun k => queued t.path.queue (reportAddr t (0x210 + 4 * k))) = true
      ∧ (t.path.queue.map (·.addr)).take 1 = [0x07D810] := by decide +kernel

/-- R54, R172: a cause that a fault at the end of an event has brought is derived by the level unit, its words queued. -/
theorem test_level_event :
    let t := levelEvent { node with level := { evacuatedLevel with level := .alert } }
    t.level.level = .evacuate ∧ queued t.path.queue 0x07E014 = true ∧ queued t.path.queue 0x07E018 = true := by decide +kernel

/-! ## The hypotheses of the statements are met -/

/-- A state in RUN with an empty own-write queue and its fill index in the PART ring keeps Law 9. -/
theorem queueKept_of_empty (s : State) (hr : s.run = true) (hq : s.path.queue = []) (hf : s.ring.fill.val < ringStart s 1) :
    QueueKept s := by
  refine ⟨by simp [hq], by simp [hq], by simp [hq], by simp [hq], fun _ => hf, fun h => ?_⟩
  rw [hr] at h; cases h

theorem node_queueKept : QueueKept node := queueKept_of_empty node rfl rfl (by decide)

theorem withShadow_queueKept (n : Fin 64) (h : Shadow) : QueueKept (withShadow n h) :=
  queueKept_of_empty _ rfl rfl (show node.ring.fill.val < ringStart node 1 by decide +kernel)

/-- The segments with entry 0 as given. -/
def segmentsWith (g : Segment) : Vector Segment 16 := (Vector.replicate 16 {}).set 0 g

/-- Nothing is left over at the end of an event. -/
theorem settled_of_isNone (s : State) (h : (settleStep (beginEvent s) (beginEvent s)).isNone = true) : Settled s :=
  Option.isNone_iff_eq_none.mp h

/-- Offsets in the setting area, in the regions of the node, and in no region. -/
theorem witness_regions :
    regionAt node 0x03F000 = some (.setting, 0) ∧ regionAt node 0x07E670 = some (.report, 0x670)
      ∧ regionAt node 0x07D804 = some (.events, 4) ∧ regionAt node 0x07D7FC = some (.rawAir, 60)
      ∧ regionAt node 0x07D3F0 = some (.txSlots, 16 * 63) ∧ regionAt node 0x07D5F0 = some (.rxSlots, 16 * 31)
      ∧ regionAt node 0x07BF0C = some (.rxBuffers, 0x1F0C) ∧ regionAt node 0x07C3FC = some (.partFrames, 0x3FC)
      ∧ regionAt node 0x000100 = none ∧ regionAt setupNode 0x07D804 = none := by decide +kernel

theorem witness_StepRunsTheFrontCommand : node.pending = [] := rfl

theorem witness_RestartAccepted : node.run = true ∧ cellsTripped node = false ∧ node.level.level = .normal := by decide +kernel

theorem witness_RefusedRequestsChangeNothing :
    requestWordOf (.endEvacuation 1 0) = some (requestWord 5 1 0)
      ∧ (judgeRequest 0 (requestWord 5 1 0) { node with cells := node.cells.set 1 { state := .isolated } }).outcome ≠ outDone
      ∧ requestWordOf (.evacuate 1 7) = some (requestWord 4 1 7)
      ∧ (judgeRequest 0 (requestWord 4 1 7) node).outcome ≠ outDone
      ∧ requestWordOf (.start 1 0) = some (requestWord 1 1 0) ∧ (judgeRequest 0 (requestWord 1 1 0) node).outcome ≠ outDone := by
  decide +kernel

/-- The request words of every clause, with the argument at the ends of the ranges. -/
theorem witness_RequestOutcomes :
    requestCode (requestWord 0 1 0) = 0 ∧ requestCode (requestWord 11 1 0) = 11 ∧ setupNode.run = false
      ∧ requestCode (requestWord 2 1 0) = 2 ∧ requestCode (requestWord 10 1 0) = 10 ∧ requestCode (requestWord 1 1 0) = 1
      ∧ failingCheck setupNode = none ∧ failingCheck {} = some 0x11 ∧ node.run = true
      ∧ requestArg (requestWord 3 1 3) = 3 ∧ requestArg (requestWord 3 1 4) = 4 ∧ requestArg (requestWord 4 1 8) = 8
      ∧ requestArg (requestWord 4 1 15) = 15 ∧ requestArg (requestWord 4 1 16) = 16 ∧ requestArg (requestWord 6 1 0xFF) = 0xFF
      ∧ requestArg (requestWord 6 1 23) = 23 ∧ requestArg (requestWord 6 1 24) = 24 ∧ requestArg (requestWord 7 1 0) = 0
      ∧ requestArg (requestWord 8 1 255) = 255 ∧ requestArg (requestWord 8 1 256) = 256
      ∧ requestArg (requestWord 9 1 0xFFFF) = 0xFFFF := by decide +kernel

/-- The start check that setting copies fail first. -/
def checkOf (c : Settings) : Option Nat := failingCheck { copies := c }

/-- The settings with the node id, the split code and the clock given. -/
def withNode (nodeId : NodeId) (split clock : Nat) : Settings :=
  { settings with node := { settings.node with nodeId := nodeId, split := split, clock := clock } }

/-- R165, checks 1 to 7: each fails alone, and passes at the ends of its range. -/
theorem test_start_checks_first_half :
    let regions := settings.regions
    checkOf settings = none ∧ checkOf (withNode 1 1 8000) = none ∧ checkOf (withNode 4094 4 100000) = none
      ∧ checkOf (withNode 21 2 7999) = some 0x11 ∧ checkOf (withNode 21 2 100001) = some 0x11
      ∧ checkOf (withNode 21 0 8000) = some 0x12 ∧ checkOf (withNode 21 5 8000) = some 0x12
      ∧ checkOf { settings with regions := { regions with events := 0x07D804 } } = some 0x13
      ∧ checkOf { settings with regions := { regions with rxSlots := 0x07D200 } } = some 0x14
      ∧ checkOf { settings with regions := { regions with events := 0x03F800 } } = some 0x14
      ∧ checkOf (withNode 0 2 8000) = some 0x15 ∧ checkOf (withNode 4095 2 8000) = some 0x15
      ∧ checkOf { settings with channels := settings.channels.set 7 methane } = some 0x16
      ∧ checkOf { settings with channels := settings.channels.set 6 { methane with fullScale := 0 } } = some 0x17
      ∧ checkOf { settings with channels := settings.channels.set 6 { methane with fullScale := 124 } } = some 0x17
      ∧ checkOf { settings with channels := settings.channels.set 12 { oxygen with falling := false } } = some 0x17 := by
  decide +kernel

/-- R165, checks 8 to 14: a partner that is the channel itself, past 23, and one that names back; a selector of no meaning, GRADE
with n = 0 and CELL of the cell itself; two beacons; a cell with no line; ids given twice; another chamber's channel. -/
theorem test_start_checks_second_half :
    let head (partner : Fin 32) (c : Settings) : Settings :=
      { c with channels := c.channels.set 6 { methane with partner := some partner } }
    let input (q : Selector) : Settings :=
      { settings with cells := settings.cells.set 0 { confirmedCell with inputs := #v[q, {}, {}, {}] } }
    let other : ChannelSet := { methane with source := .localInput 4, partner := some 6 }
    checkOf (head 6 settings) = some 0x18 ∧ checkOf (head 24 settings) = some 0x18 ∧ checkOf (head 12 settings) = some 0x18
      ∧ checkOf (head 7 { settings with channels := settings.channels.set 7 other }) = none
      ∧ checkOf (input { code := 7 }) = some 0x19 ∧ checkOf (input { code := 2, index := 6 }) = some 0x19
      ∧ checkOf (input { code := 4 }) = some 0x19 ∧ checkOf (input { code := 6, index := 3 }) = none
      ∧ checkOf { settings with lines := settings.lines.set 7 { fn := .beacon } } = some 0x1A
      ∧ checkOf { settings with cells := settings.cells.set 2 evacuatingCell } = some 0x1B
      ∧ checkOf { settings with segments := settings.segments.set 15 { id := 40 } } = some 0x1C
      ∧ checkOf { settings with chambers := settings.chambers.set 3 { id := 302 } } = some 0x1D
      ∧ checkOf { settings with chambers := settings.chambers.set 3 { id := 303, co := some 12 } } = some 0x1E := by decide +kernel

/-- The tables as a reset leaves them; no cell trips; and a copy with no cell enabled. -/
theorem witness_StartEntersRun :
    let bare : State := { copies := { settings with cells := Vector.replicate 4 {} } }
    setupNode.run = false ∧ failingCheck setupNode = none ∧ setupNode.level = {} ∧ setupNode.road = {} ∧ setupNode.fault = {}
      ∧ setupNode.ring.list = [] ∧ setupNode.path.queue = [] ∧ setupNode.path.followUp = none
      ∧ (after (.start 7 0) setupNode).waitCycles = 0 ∧ failingCheck bare = none
      ∧ (∀ i : Fin 4, bare.copies.cells[i].enabled = false) := by decide +kernel

/-- R166, R167, R176: identity, produce index 0, the STARTED record, the outcome word, then the level word of the sweep. -/
theorem test_start_queue :
    let t := after (.start 7 0) setupNode
    t.path.queue.map (fun w => (w.addr, w.data))
        = [(0x07E000, 0x24601015), (0x07E004, 0), (0x07D800, 0), (0x07D810, 1), (0x07D814, 0), (0x07D818, 21), (0x07D81C, 1),
           (0x03FF04, 0x01070100), (0x07E010, 0)]
      ∧ t.path.sweep = some 0x014 ∧ t.path.followUp = some 1 := by decide +kernel

/-- The node in SETUP with cell 0, which requires confirmation, on the selector TRUE. -/
def startTripping : State :=
  { copies := { settings with
      cells := settings.cells.set 0 { confirmedCell with inputs := #v[{ code := 1 }, {}, {}, {}] } } }

/-- A cell trips at the entry, and nothing stalls. -/
theorem witness_StartEntersRun_tripped :
    let t := after (.start 7 0) startTripping
    startTripping.run = false ∧ failingCheck startTripping = none ∧ startTripping.level = {} ∧ startTripping.road = {}
      ∧ startTripping.fault = {} ∧ startTripping.ring.list = [] ∧ startTripping.path.queue = []
      ∧ startTripping.path.followUp = none ∧ t.waitCycles = 0
      ∧ (List.finRange 4).filter (fun i => tripActive t.cells[i]) = [0] := by decide +kernel

/-- R36, R37, R50, R166: behind the STARTED record the CELL_TRIPPED record of cell 0 (TRIPPED, input 0 true), the LEVEL record to ALERT
without a cause, and the outcome word before the sweep's first free word. -/
theorem test_start_trip_queue :
    let q := (after (.start 7 0) startTripping).path.queue
    ((q.drop 7).take 8).map (fun w => (w.addr, w.data))
        = [(0x07D820, 0x18), (0x07D824, 0), (0x07D828, 0), (0x07D82C, 0x0A),
           (0x07D830, 0x20), (0x07D834, 0), (0x07D838, 0), (0x07D83C, 4)]
      ∧ (q.drop (q.length - 2)).map (·.addr) = [0x03FF04, 0x07E014] := by decide +kernel

/-- Reasons 8 and 15; the cause record absent and in force. -/
theorem witness_EvacuateRequestTaken :
    node.run = true ∧ 8 ≤ (8 : BitVec 16).toNat ∧ (8 : BitVec 16).toNat ≤ 15 ∧ (15 : BitVec 16).toNat ≤ 15
      ∧ node.level.cause = none ∧ node.level.level ≠ .evacuate ∧ evacuated.run = true ∧ evacuated.level.cause ≠ none
      ∧ evacuated.level.level = .evacuate := by decide +kernel

/-- R61: the summary at the entry, at a check-in within the evacuation, and at the exit; below EVACUATE it stays. -/
theorem test_muster :
    let t := after (.evacuate 1 9) withChamber
    let u := after (.checkIn 1 9) t
    let v := after (.endEvacuation 1 0) u
    t.level.muster = { counts := #v[2, 0, 0, 0], current := true, entry := 41000 }
      ∧ u.level.muster = { counts := #v[2, 1, 0, 0], current := true, entry := 41000 }
      ∧ v.level.muster = { counts := #v[2, 1, 0, 0], current := false, entry := 41000 }
      ∧ (after (.checkOut 1 9) v).level.muster = v.level.muster := by decide +kernel

/-- Both cases of MusterGoesOn: in EVACUATE with a cause, and below it without. -/
theorem witness_MusterGoesOn :
    evacuated.level.level = .evacuate ∧ evacuated.level.cause ≠ none ∧ node.level.level ≠ .evacuate ∧ node.level.cause = none
      ∧ NoEndCause node := by
  unfold NoEndCause; decide +kernel

theorem witness_EndEvacuationAccepted :
    evacuated.run = true ∧ cellsTripped evacuated = false ∧ alertingHeld evacuated = false ∧ NoEndCause evacuated
      ∧ evacuated.level.cause ≠ none ∧ evacuated.level.level = .evacuate ∧ NoEndCause node ∧ node.level.cause = none ∧ alertingHeld node = false := by
  unfold NoEndCause; decide +kernel

/-- Cells 0 and 3. -/
theorem witness_ResetCellDone :
    let s := { node with cells := (node.cells.set 0 { state := .tripped, confirm := .running 3 20 }).set 3 { state := .isolated } }
    s.run = true ∧ (0 : BitVec 16).toNat = (0 : Fin 4).val ∧ tripActive s.cells[0] = true ∧ s.cells[0].demand = false
      ∧ (3 : BitVec 16).toNat = (3 : Fin 4).val ∧ tripActive s.cells[3] = true ∧ s.cells[3].demand = false := by decide +kernel

/-- Channel 6 and the periods. -/
theorem witness_AdjustmentApplied :
    let staged : Staged := { channels := node.staged.channels.set 6 methane.limits, rateWindow := 20 }
    let s := { node with staged := staged }
    s.run = true ∧ (6 : BitVec 16).toNat = (6 : Fin 24).val ∧ s.effective.channels[6].source ≠ .off
      ∧ s.level.level ≠ .evacuate ∧ Grade.atLeastAlarm (held s.channels[6]) = false
      ∧ thresholdsOrdered s.effective.channels[6] s.staged.channels[6] = true := by decide +kernel

/-- A distress entry, a call with the top call id, an occupant. -/
theorem witness_ListedThingsAreRemoved :
    let d : Distress := { miner := 0xFFFF, node := 30, first := 1, last := 1, call := none }
    let s := { node with call := { node.call with distress := [d] } }
    s.run = true ∧ (0xFFFF : BitVec 16) ≠ 0 ∧ distressOf s 0xFFFF = some d
      ∧ (255 : BitVec 16).toNat ≤ 255 ∧ callPosition (withCall { oneCall with id := 255 }) ((255 : BitVec 16).setWidth 8) = some 0
      ∧ (withCall { oneCall with id := 255 }).run = true ∧ withChamber.run = true ∧ listedIn withChamber 8 = some 0 := by decide +kernel

theorem witness_TruckCleared : withTruck.run = true ∧ (7 : BitVec 16) ≠ 0 ∧ truckPosition withTruck 7 = some 0 := by decide +kernel

/-- R182 with the rules that clamp: words of all ones and of all zeros, whose clamped fields stand at the ends of their ranges and
whose codes are those that mean nothing. -/
theorem test_setting_words_clamped :
    let ones (o : Nat) : Settings := takeSettings o 0xFFFFFFFF settings
    let zeros (o : Nat) : Settings := takeSettings o 0 settings
    ((ones 0x028).node.repeatPeriod = 60 ∧ (zeros 0x028).node.repeatPeriod = 1 ∧ (ones 0x028).node.patrol = 60)
      ∧ ((ones 0x02C).node.remoteHold = 3600 ∧ (ones 0x030).node.truckStale = 600 ∧ (zeros 0x030).node.truckForget = 1)
      ∧ ((ones 0x320).channels[23].shift = 4 ∧ (ones 0x320).channels[23].source = .off
        ∧ (ones 0x320).channels[23].partner = some 31 ∧ (zeros 0x320).channels[23].partner = none)
      ∧ ((ones 0x334).channels[23].staleTime = 600 ∧ (zeros 0x338).channels[23].agreeTime = 1)
      ∧ ((ones 0x370).cells[3].mode = .any ∧ (ones 0x374).cells[3].inputs[1] = { index := 31, n := 3, code := 15, invert := true })
      ∧ ((ones 0x39C).lines[7] = { fn := .none, invert := true } ∧ (ones 0x490).segments[15].convoy = 4
        ∧ (zeros 0x490).segments[15].convoy = 1)
      ∧ ((ones 0x4D0).chambers[3].capacity = 20 ∧ (zeros 0x4D0).chambers[3].capacity = 1
        ∧ (ones 0x50C).faults[11] = { logOff := true, escalation := .default }) := by decide +kernel

/-- R168: the last channel's staged words, and the three periods. -/
theorem test_adjustment_words :
    let g := takeStaged 0x774 0xFFFF1234 (takeStaged 0x770 0x00020001 {})
    g.channels[23] = { t1 := 1, t2 := 2, t3 := 0x1234, hyst := 4095 } ∧ (takeStaged 0x778 9 g).channels[23].rate = 9
      ∧ (takeStaged 0x780 61 g).rateWindow = 60 ∧ (takeStaged 0x784 0 g).repeatPeriod = 1
      ∧ (takeStaged 0x788 61 g).patrol = 60 := by decide +kernel

/-- The first and last words of the setting sections and of the ADJUSTMENT section; indices 3 (within), 4 (past) and 0 (moved
back), with produce 3 and consume 1. -/
theorem witness_ControllerWordsTaken :
    let s := { node with fault := { node.fault with produce := 3, consume := 1 } }
    setupNode.run = false ∧ 0 % 4 = 0 ∧ 0 < 0x510 ∧ 0x50C % 4 = 0 ∧ 0x50C < 0x510 ∧ 0x600 % 4 = 0 ∧ 0x600 < 0x78C
      ∧ 0x788 % 4 = 0 ∧ 0x600 ≤ 0x788 ∧ 0x788 < 0x78C
      ∧ s.run = true ∧ fullWordAccess 0x07D804 0xF = true ∧ regionAt s (wordBase (0x07D804 : Addr).toNat) = some (.events, 4)
      ∧ ((3 : BitVec 16) - s.fault.consume).toNat ≤ occupancy s.fault
      ∧ occupancy s.fault < ((4 : BitVec 16) - s.fault.consume).toNat ∧ ((4 : BitVec 16) - s.fault.consume).toNat < 32768
      ∧ 32768 ≤ ((0 : BitVec 16) - s.fault.consume).toNat := by decide +kernel

/-- The node with `produced` records in the ring, and with the produce index queued where `index` is true. -/
def withRecords (produced : BitVec 16) (index : Bool) : State :=
  { withCall oneCall with
    fault := { node.fault with produce := produced }
    path := { node.path with
      queue := if index then [{ addr := 0x07D800, data := 1, kind := .trailing }] else [] } }

/-- One record in the ring, the queue empty or holding the produce index; a known call; a full ring with an EMPTY log; a report word
that differs, and one that does not. -/
theorem witness_EventRecordsAndReportWordsQueued :
    let s := withRecords 1 false
    let u := withRecords 1 true
    let outcome : OwnWrite :=
      { addr := settingAddr s 0xF04, data := outcomeWord (requestWord 6 1 0xFF) outDone 0, kind := .coalescing }
    s.run = true ∧ s.level.level ≠ .evacuate ∧ occupancy s.fault = 1
      ∧ ((s.path.queue ++ recordWords s 0x03 0xFF 0 ++ [produceWrite s, outcome]).map (·.addr)).Nodup
      ∧ ((u.path.queue ++ recordWords u 0x03 0xFF 0 ++ [outcome]).map (·.addr)).Nodup
      ∧ u.path.queue.length + 6 ≤ 32 ∧ s.path.followUp = none ∧ queued u.path.queue (eventsAddr u 0) = true
      ∧ (9 : CallId) ≠ 0 ∧ callPosition s 9 = some 0 ∧ s.call.table[0] = some oneCall ∧ s.path.queue.length + 10 ≤ 32
      ∧ ((s.path.queue ++ (recordWords s 0x2A 9 0 ++ [produceWrite s])).map (·.addr) ++ (callWords 0).map (reportAddr s)).Nodup
      ∧ occupancy (withRecords 64 false).fault = 64 ∧ (withRecords 64 false).fault.log = none
      ∧ (withRecords 64 false).effective.faults[7].logOff = false
      ∧ mirror node 0x1A0 ≠ mirror s 0x1A0 ∧ mirror node 0x1AC = mirror s 0x1AC
      ∧ queued s.path.queue (reportAddr s 0x1AC) = false := by decide +kernel

/-- A word that the event has not queued, one that it has queued with another value, and one queued with its present value whose entry
has drained. -/
theorem witness_EventRecordsAndReportWordsQueued_shown :
    let shows (v : Word) : State := { withRecords 1 false with path := { node.path with shown := [(0x1A0, v)] } }
    node.path.shown.lookup 0x1A0 = none ∧ (shows 0).path.shown.lookup 0x1A0 = some 0 ∧ 0 ≠ mirror (shows 0) 0x1A0
      ∧ (shows (mirror (shows 0) 0x1A0)).path.shown.lookup 0x1A0 = some (mirror (shows (mirror (shows 0) 0x1A0)) 0x1A0)
      ∧ queued (shows (mirror (shows 0) 0x1A0)).path.queue (reportAddr (shows 0) 0x1A0) = false := by decide +kernel

theorem witness_EventRecordsAndReportWordsQueued_settled : Settled (withRecords 1 false) ∧ Settled (withRecords 1 true) :=
  ⟨settled_of_isNone _ (by decide +kernel), settled_of_isNone _ (by decide +kernel)⟩

/-- A repeat, a first reading and a word with no channel. -/
theorem witness_RepeatedReadingsChangeNothing :
    let s := withHead (fun c => { c with seq := some 5 })
    s.run = true ∧ fullWordAccess 0x07D7CC 0xF = true ∧ regionAt s (wordBase (0x07D7CC : Addr).toNat) = some (.rawAir, 12)
      ∧ channelOf s (.localInput (Fin.ofNat 16 (12 / 4))) = some 6 ∧ s.channels[6].seq = some (bits (rawWord 1000 5) 12 4)
      ∧ node.channels[6].seq = none ∧ channelOf node (.localInput (Fin.ofNat 16 (12 / 4))) = some 6
      ∧ regionAt node (wordBase (0x07D7FC : Addr).toNat) = some (.rawAir, 60)
      ∧ channelOf node (.localInput (Fin.ofNat 16 (60 / 4))) = none := by decide +kernel

/-- Raw codes 390 (the lowest taken), 4,094 (the highest), 389 (UNDER), 4,095 (SATURATED), and the front-end fault; a partner whose
reading is judged, apart and within the limit, one not yet seen, and no partner. -/
theorem witness_ReadingTaken :
    node.run = true ∧ fullWordAccess 0x07D7CC 0xF = true ∧ regionAt node (wordBase (0x07D7CC : Addr).toNat) = some (.rawAir, 12)
      ∧ channelOf node (.localInput (Fin.ofNat 16 (12 / 4))) = some 6
      ∧ node.channels[6].seq ≠ some (bits (rawWord 1000 5) 12 4)
      ∧ readingVerdict methane node.channels[6] 390 5 false = .taken ∧ readingVerdict methane node.channels[6] 4094 5 false = .taken
      ∧ readingVerdict methane node.channels[6] 389 5 false = .under
      ∧ readingVerdict methane node.channels[6] 4095 5 false = .saturated
      ∧ readingVerdict methane node.channels[6] 4095 5 true = .feFault
      ∧ partnerOf node 6 = none ∧ partnerOf partners 6 = some 7 ∧ partners.run = true
      ∧ regionAt partners (wordBase (0x07D7CC : Addr).toNat) = some (.rawAir, 12)
      ∧ channelOf partners (.localInput (Fin.ofNat 16 (12 / 4))) = some 6 ∧ partners.channels[6].seq = none
      ∧ readingVerdict partners.effective.channels[6] partners.channels[6] 1000 5 false = .taken
      ∧ partners.channels[7].seen = true ∧ partners.channels[7].faults.stale = false ∧ node.channels[7].seen = false
      ∧ 5 < max 80 100 - min 80 (100 : Nat) ∧ max 95 100 - min 95 (100 : Nat) ≤ 5 := by decide +kernel

/-- Raw words of each verdict: the front-end fault with code 4,095, 4,095 without it, and the codes on either side of the margin. -/
theorem witness_ReadingTaken_verdicts :
    bitOf (rawWord 4095 5 ||| 0x10000) 16 = true ∧ bitOf (rawWord 4095 5) 16 = false ∧ bits (rawWord 4095 5) 0 12 = 4095
      ∧ bits (rawWord 389 5) 0 12 ≠ 4095 ∧ ((bits (rawWord 389 5) 0 12).toNat : Int) - methane.zero < -(methane.underMargin : Int)
      ∧ bits (rawWord 390 5) 0 12 ≠ 4095
      ∧ -(methane.underMargin : Int) ≤ ((bits (rawWord 390 5) 0 12).toNat : Int) - methane.zero := by decide +kernel

/-- The ends of the ranges, and the lowest code that the under margin lets through. -/
theorem witness_CalibrationRounds :
    methane.zero ≤ 4095 ∧ methane.span ≤ 65535 ∧ (4094 : BitVec 12).toNat ≤ 4094 ∧ (390 : BitVec 12).toNat < methane.zero
      ∧ methane.zero ≤ (390 : BitVec 12).toNat + methane.underMargin ∧ ({ methane with span := 0 } : ChannelSet).span = 0 := by decide +kernel

/-- A seen channel with k = 4, a16 one step above, at, and 9 below 16 times the value. -/
theorem witness_AverageSettles :
    let c : Channel := { seen := true }
    4 ≤ 4 ∧ c.seen = true ∧ 16 * 10 ≤ 161 ∧ 160 ≤ 16 * 10 ∧ 151 ≤ 16 * 10 ∧ 16 * 10 < 151 + 2 ^ 4 := by decide +kernel

/-- A rise, a fall, and no hysteresis; the same of the oxygen channel's FALLING thresholds, and a sum at the cap. -/
theorem witness_ComputedGradeFollowsThresholds :
    Grade.code .clear < Grade.code .notice ∧ threshold methane.limits .notice ≤ 50
      ∧ (∀ g : Grade, g = .clear ∨ threshold methane.limits g ≤ 50 → Grade.code g ≤ Grade.code .notice)
      ∧ (∀ g : Grade, g = .clear ∨ threshold methane.limits g ≤ 49 → Grade.code g ≤ Grade.code .alarm)
      ∧ ({ methane.limits with hyst := 0 } : Thresholds).hyst = 0
      ∧ 1950 ≤ threshold oxygen.limits .notice
      ∧ (∀ g : Grade, (g = .clear ∨ 1950 ≤ threshold oxygen.limits g) → Grade.code g ≤ Grade.code .notice)
      ∧ (∀ g : Grade, (g = .clear ∨ 1951 ≤ threshold oxygen.limits g) → Grade.code g ≤ Grade.code .alarm)
      ∧ 65535 ≤ threshold { oxygen.limits with t1 := 65000, hyst := 535 } .notice + 535 := by
  refine ⟨by decide, by decide, ?_, ?_, rfl, by decide, ?_, ?_, by decide⟩ <;> intro g <;> cases g <;> decide

/-- A forbidden write; a write outside every region, one the guards pass and nothing takes, and one in SETUP. -/
theorem witness_GuardedAndPlainWrites :
    node.run = true ∧ regionAt node (wordBase (0x07E000 : Addr).toNat) = some (.report, 0)
      ∧ permitted node .modem .report 0 = false ∧ node.fault.log = none ∧ node.effective.faults[0].logOff = false
      ∧ regionAt node (wordBase (0x000102 : Addr).toNat) = none
      ∧ regionAt node (wordBase (0x07D400 : Addr).toNat) = some (.rxSlots, 0)
      ∧ permitted node .controller .rxSlots 0 = true ∧ takenWord node .controller .rxSlots 0 = none
      ∧ setupNode.run = false ∧ fullWordAccess 0x03F000 0x1 = false ∧ regionAt setupNode (wordBase (0x07D804 : Addr).toNat) = none := by decide +kernel

/-- A transmit word 0, a header word, and a word that is neither. -/
theorem witness_PartialWritesNotTaken :
    node.run = true ∧ fullWordAccess 0x07D080 0x3 = false ∧ regionAt node (wordBase (0x07D080 : Addr).toNat) = some (.txSlots, 128)
      ∧ permitted node .controller .txSlots 128 = true ∧ takenWord node .controller .txSlots 128 = some (.txWord0 8)
      ∧ takenWord node .modem .txSlots 128 = some (.txModem 8) ∧ takenWord node .controller .txSlots 136 = some (.txWord2 8)
      ∧ ringStart node 1 ≤ (8 : Fin 64).val ∧ fullWordAccess 0x07A001 0x2 = false
      ∧ regionAt node (wordBase (0x07A001 : Addr).toNat) = some (.rxBuffers, 0) ∧ permitted node .modem .rxBuffers 0 = true
      ∧ takenWord node .modem .rxBuffers 0 = some (.header 0 0) ∧ takenWord node .sensor .rawAir 0 = some (.rawAir 0) := by decide +kernel

theorem witness_PartialWritesNotTaken_queue : QueueKept node := node_queueKept

/-- A slot of the PART ring, partly written by the MODEM; slots that stay: outside the PART ring, UNKNOWN, and READY in it. -/
theorem witness_SlotStays :
    takenWord node .modem .txSlots 0 = some (.txModem 0) ∧ permitted node .modem .txSlots 0 = true
      ∧ regionAt node (wordBase (0x07D001 : Addr).toNat) = some (.txSlots, 0)
      ∧ SlotStays node 8 ∧ SlotStays (withShadow 0 { state := .unknown }) 0 ∧ SlotStays (withShadow 7 { state := .ready }) 7 :=
  ⟨by decide +kernel, by decide +kernel, by decide +kernel, Or.inl (by decide +kernel), Or.inr (Or.inl (by decide +kernel)),
    Or.inr (Or.inr ⟨by decide +kernel, fun w hw => by cases hw⟩)⟩

/-- R90: a PART slot becomes UNKNOWN. -/
theorem test_partial_write_part : (after (.partialWrite .modem 0x07D003 0x8 0) node).ring.shadows[0].state = .unknown := by decide +kernel

/-- The words A of channels 0 and 23, the log word, and consuming reads on either side of each range. -/
theorem witness_ArmingReads :
    node.run = true ∧ fullWordAccess 0x07E040 0xF = true
      ∧ regionAt node (wordBase (0x07E040 : Addr).toNat) = some (.report, 0x040 + 8 * (0 : Fin 24).val)
      ∧ regionAt node (wordBase (0x07E0F8 : Addr).toNat) = some (.report, 0x040 + 8 * (23 : Fin 24).val)
      ∧ regionAt node (wordBase (0x07E660 : Addr).toNat) = some (.report, 0x660)
      ∧ regionAt node (wordBase (0x07E044 : Addr).toNat) = some (.report, 0x044) ∧ 0x044 % 8 ≠ 0
      ∧ regionAt node (wordBase (0x07E100 : Addr).toNat) = some (.report, 0x100)
      ∧ regionAt node (wordBase (0x03FF00 : Addr).toNat) = some (.setting, 0xF00)
      ∧ regionAt node (wordBase (0x03FF68 : Addr).toNat) = some (.setting, 0xF68) ∧ node.path.arming = none := by decide +kernel

/-- A channel armed, shown its held grade and another. -/
theorem witness_AcknowledgementJudged :
    let s := withHead (fun c => { c with live := .notice, latched := .alarm })
    let t := { s with path := { s.path with arming := some { target := .channel 6, shown := 2 } } }
    t.run = true ∧ t.path.arming = some { target := .channel 6, shown := 2 } ∧ 2 = Grade.code (held t.channels[6])
      ∧ 2 ≠ Grade.code (held node.channels[6]) := by decide +kernel

/-- The log armed, EMPTY and HELD. -/
theorem witness_ReleaseJudged :
    let e : LogEntry := { kind := .guardWrite, ident := .bus .other 0 0, time := 1, further := 0 }
    let s := { node with fault := { node.fault with log := some e },
                         path := { node.path with arming := some { target := .log, shown := 1 } } }
    s.run = true ∧ s.path.arming = some { target := .log, shown := 1 } ∧ 1 = currentKind s ∧ 1 ≠ currentKind node
      ∧ escalation s .ownWriteStall ≠ .alert ∧ escalation s .frameDropped ≠ .alert
      ∧ AlertMember.latch ∈ ({ alerts := [.latch] } : LevelUnit).alerts := by decide +kernel

/-- Slot 8, the first outside the PART ring, and slot 63, in each state. -/
theorem witness_ControllerGivesSlots :
    node.run = true ∧ fullWordAccess 0x07D080 0xF = true
      ∧ regionAt node (wordBase (0x07D080 : Addr).toNat) = some (.txSlots, 16 * (8 : Fin 64).val)
      ∧ regionAt node (wordBase (0x07D3F0 : Addr).toNat) = some (.txSlots, 16 * (63 : Fin 64).val)
      ∧ regionAt node (wordBase (0x07D088 : Addr).toNat) = some (.txSlots, 16 * (8 : Fin 64).val + 8)
      ∧ ringStart node 1 ≤ (8 : Fin 64).val ∧ node.ring.shadows[8].scanned = true ∧ node.ring.shadows[8].state ≠ .inFlight
      ∧ (withShadow 8 { scanned := true, state := .inFlight }).ring.shadows[8].state = .inFlight
      ∧ (withShadow 8 {}).ring.shadows[8].scanned = false := by decide +kernel

theorem witness_ControllerGivesSlots_queue :
    QueueKept node ∧ QueueKept (withShadow 8 { scanned := true, state := .inFlight }) ∧ QueueKept (withShadow 8 {}) :=
  ⟨node_queueKept, withShadow_queueKept _ _, withShadow_queueKept _ _⟩

/-- A state for each case of R83, in its order. -/
theorem witness_ModemReadDecision :
    let ready : Shadow := { state := .ready, scanned := true, length := 16 }
    let evacuatedData := { evacuated with ring := (withShadow 32 ready).ring }
    modemAnswer { node with path := { node.path with scanCursor := 63 } } 8 = .hold ∧ modemAnswer node 9 = .hold
      ∧ modemAnswer node 8 = .empty ∧ modemAnswer (withShadow 8 { state := .unknown }) 8 = .hold
      ∧ modemAnswer (withShadow 8 { state := .inFlight }) 8 = .again
      ∧ modemAnswer (withShadow 8 { ready with length := 0 }) 8 = .discard true
      ∧ modemAnswer (withShadow 8 { ready with tag := 9 }) 8 = .discard false
      ∧ modemAnswer (withShadow 0 ready) 0 = .discard false ∧ modemAnswer evacuatedData 32 = .hold
      ∧ modemAnswer { withShadow 8 ready with ring := { (withShadow 8 ready).ring with
          shadows := (withShadow 8 ready).ring.shadows.set 16 ready } } 16 = .hold
      ∧ modemAnswer (withShadow 8 ready) 8 = .present := by decide +kernel

theorem witness_ModemReadRewritten :
    node.run = true ∧ fullWordAccess 0x07D080 0xF = true ∧ fullWordAccess 0x07D080 0x8 = false
      ∧ regionAt node (wordBase (0x07D080 : Addr).toNat) = some (.txSlots, 16 * (8 : Fin 64).val)
      ∧ modemAnswer node 8 = .empty ∧ modemAnswer node 9 = .hold := by decide +kernel

theorem witness_ModemReadRewritten_queue : QueueKept node := node_queueKept

/-- A completion, and a stray. -/
theorem witness_ModemWritebackJudged :
    node.run = true ∧ fullWordAccess 0x07D080 0xF = true
      ∧ regionAt node (wordBase (0x07D080 : Addr).toNat) = some (.txSlots, 16 * (8 : Fin 64).val)
      ∧ isCompletion (withShadow 8 { state := .inFlight }) 8 = true ∧ isCompletion node 8 = false
      ∧ isCompletion sending 8 = true ∧ sending.ring.departed[8] = false ∧ callPosition sending 9 = some 0
      ∧ sending.call.table[0] = some oneCall ∧ sending.effective.node.silenceAny = true := by decide +kernel

/-- A completion of a call frame whose call has left: no entry holds its tag. -/
theorem witness_ModemWritebackJudged_unheld :
    let s := { sending with call := {} }
    isCompletion s 8 = true ∧ callPosition s s.ring.shadows[8].tag = none ∧ s.effective.node.silenceAny = true
      ∧ s.ring.departed[8] = false := by decide +kernel

theorem witness_ModemWritebackJudged_queue : QueueKept node ∧ QueueKept (withShadow 8 { state := .inFlight })
    ∧ QueueKept sending :=
  ⟨node_queueKept, withShadow_queueKept _ _, queueKept_of_empty _ rfl rfl (show node.ring.fill.val < ringStart node 1 by decide +kernel)⟩

/-- The node with PART slot 0 IN_FLIGHT at the head of its ring, its frame record, one frame that waits, and a fill index. -/
def partSent (fill : Fin 16) (list : List PartFrame) : State :=
  { node with ring := { (withShadow 0 { state := .inFlight, scanned := true, shown := some .owned }).ring with
      list := list, fill := fill
      records := ((Vector.replicate 16 none).set 0 (some { frame := .halt 40, seq := 3, withdrawn := false })).set 1
        (some { frame := .halt 41, seq := 4, withdrawn := false }) } }

/-- The completion of a PART slot: it is not the fill index, nothing waits, or it is the fill index and a frame waits. -/
theorem witness_ModemWritebackJudged_part :
    let s := partSent 0 [.halt 40]
    let keys := (s.path.queue ++ builtWrites s (.halt 40)).map (·.addr) ++ (fillWords s).map (reportAddr s)
    regionAt s (wordBase (0x07D000 : Addr).toNat) = some (.txSlots, 16 * (0 : Fin 64).val) ∧ isCompletion s 0 = true
      ∧ (0 : Fin 64).val < ringStart s 1 ∧ s.path.queue.length + 13 ≤ 32 ∧ s.ring.fill = Fin.ofNat 16 (0 : Fin 64).val
      ∧ s.ring.list = [.halt 40] ∧ s.path.scanCursor = 64 ∧ keys.Nodup
      ∧ isCompletion (partSent 1 [.halt 40]) 0 = true ∧ (partSent 1 [.halt 40]).ring.fill ≠ Fin.ofNat 16 (0 : Fin 64).val
      ∧ isCompletion (partSent 0 []) 0 = true ∧ (partSent 0 []).ring.list = [] := by decide +kernel

theorem witness_ModemWritebackJudged_part_kept :
    (Settled (partSent 0 [.halt 40]) ∧ Settled (partSent 1 [.halt 40]) ∧ Settled (partSent 0 []))
      ∧ QueueKept (partSent 0 [.halt 40]) ∧ QueueKept (partSent 1 [.halt 40]) ∧ QueueKept (partSent 0 []) :=
  ⟨⟨settled_of_isNone _ (by decide +kernel), settled_of_isNone _ (by decide +kernel), settled_of_isNone _ (by decide +kernel)⟩,
    queueKept_of_empty _ rfl rfl (by decide +kernel), queueKept_of_empty _ rfl rfl (by decide +kernel),
    queueKept_of_empty _ rfl rfl (by decide +kernel)⟩

/-- R86 step 3, R95: the freed slot takes the frame that waits, with the next sequence. -/
theorem test_part_completion :
    let t := after (.modemTxWriteback 0x07D000 0x10000010) (partSent 0 [.halt 41])
    t.ring.records[0] = some { frame := .halt 41, seq := 1, withdrawn := false } ∧ t.ring.list = []
      ∧ (after (.modemTxWriteback 0x07D000 0x10000010) (partSent 1 [.halt 41])).ring.records[0] = none := by decide +kernel

/-- A header with sequence 5 and hop 2. -/
def headerOf (kind origin h1 h2 h3 : Nat) : Header :=
  { h0 := word (kind * 2 ^ 24 + 2 * 2 ^ 20 + origin * 2 ^ 8 + 5), h1 := word h1, h2 := word h2, h3 := word h3 }

/-- Worked case "Four Completions" (chapter 6): CHECK_IN of miner 4,410 to chamber 301, TRUCK_BEACON with an undefined heading, and
CHECK_OUT with chamber 417, which this node's table does not hold. -/
theorem test_four_completions_parsed :
    parseFields node (headerOf 0x06 22 4410 301 0) = .frame (.checkIn 0 4410)
      ∧ parseFields node (headerOf 0x01 23 (7 + 1 * 2 ^ 16) 0 0) = .undefinedField
      ∧ parseFields node (headerOf 0x07 24 5002 417 0) = .unknownObject := by decide +kernel

/-- R105 to R109 at boundaries, kind by kind: kinds that are not parsed, origins 0 and 4,095, a segment that is not in the table,
undefined codes and ids of 0, and the frames of the other kinds. -/
theorem test_headers_parsed :
    let parse (kind h1 h2 h3 : Nat) := parseFields node (headerOf kind 22 h1 h2 h3)
    (parse 0x00 0 0 0 = .notParsed ∧ parse 0x09 0 0 0 = .notParsed ∧ parse 0x12 0 0 0 = .notParsed)
      ∧ (parseFields node (headerOf 0x04 0 9 0 0) = .undefinedField ∧ parseFields node (headerOf 0x04 4095 9 0 0) = .undefinedField)
      ∧ parse 0x01 (7 + 2 * 2 ^ 16 + 1 * 2 ^ 18) (40 + 99 * 2 ^ 16) 0 = .frame (.truckBeacon 7 .electric .inbye 22 40 0)
      ∧ (parse 0x02 (9 + 7 * 2 ^ 8 + 2 * 2 ^ 24) 417 0 = .frame (.callOpen 9 7 (.chamber 417))
        ∧ parse 0x02 (9 + 7 * 2 ^ 8 + 2 * 2 ^ 24) 0 0 = .undefinedField ∧ parse 0x02 (9 + 7 * 2 ^ 8) 0 0 = .undefinedField)
      ∧ (parse 0x03 9 0 0 = .frame (.callClose 9) ∧ parse 0x04 9 0 0 = .frame (.voice 9) ∧ parse 0x04 0x100 0 0 = .undefinedField)
      ∧ (parse 0x05 (7 * 2 ^ 8) 0 0 = .frame (.distress 7 0 22) ∧ parse 0x05 9 0 0 = .undefinedField)
      ∧ (parse 0x07 7 302 0 = .frame (.checkOut 1 7) ∧ parse 0x07 0 417 0 = .undefinedField)
      ∧ (parse 0x08 (302 + 2 * 2 ^ 16) (2090 + 11 * 2 ^ 16) 3 = .frame (.refugeStatus 1 .shut 2090 11 3)
        ∧ parse 0x08 302 0 0 = .undefinedField ∧ parse 0x08 (417 + 1 * 2 ^ 16) 0 0 = .unknownObject)
      ∧ (parse 0x10 (4094 + 3 * 2 ^ 12 + 9 * 2 ^ 20) 0 0 = .frame (.evacuate 2 22 4094 3 9) ∧ parse 0x10 4095 0 0 = .undefinedField)
      ∧ (parse 0x11 (23 + 3 * 2 ^ 8) 0 0 = .frame (.airAlarm 22 23 (Grade.ofCode 3)) ∧ parse 0x11 24 0 0 = .undefinedField) := by
  decide +kernel

/-- The four header words of a buffer, a completion and a write with owner 1; a frame that waits. -/
theorem witness_ReceivePathJudged :
    node.run = true ∧ fullWordAccess 0x07A10C 0xF = true
      ∧ regionAt node (wordBase (0x07A100 : Addr).toNat) = some (.rxBuffers, 256) ∧ 256 % 256 < 16
      ∧ regionAt node (wordBase (0x07A10C : Addr).toNat) = some (.rxBuffers, 268) ∧ 268 % 256 < 16
      ∧ fullWordAccess 0x07D410 0xF = true
      ∧ regionAt node (wordBase (0x07D410 : Addr).toNat) = some (.rxSlots, 16 * (1 : Fin 32).val)
      ∧ bitOf (0x80000010 : Word) 31 = true ∧ bitOf (0x00000010 : Word) 31 = false ∧ node.frame.handover = none
      ∧ ({ node.frame with handover := some (.voice 9) } : FrameUnit).handover = some (.voice 9)
      ∧ Frame.defined (.voice 9) = true := by decide +kernel

/-- SETUP; line 1 changes; each state of cell 0; a due confirm timer. -/
theorem witness_CellConfirmation :
    let s := { node with cells := node.cells.set 0 { state := .tripped, confirm := .running 20 20 } }
    setupNode.run = false ∧ s.run = true ∧ s.effective.lines[1].fn = .confirmIn 0
      ∧ (true ^^ s.effective.lines[1].invert) ≠ s.sampled[1] ∧ s.effective.cells[0].confirmRequired = true
      ∧ s.cells[0].state = .tripped ∧ Timer.due s.cells[0].confirm = true ∧ s.level.cause = none
      ∧ s.effective.faults[10].escalation = .default := by decide +kernel

/-- A plain entry at a settled end, a drain notice, and an empty queue. -/
theorem witness_DrainWritesTheOldest :
    let w : OwnWrite := { addr := 0x07E010, data := 5, kind := .coalescing }
    let s := { node with path := { node.path with queue := [w] } }
    s.path.queue = w :: [] ∧ w.notice = none ∧ s.path.followUp = none ∧ s.path.sweep = none
      ∧ ({ w with notice := some 7 } : OwnWrite).notice = some 7 ∧ node.ring.shadows[Fin.ofNat 64 (7 : Fin 16).val].state ≠ .unknown
      ∧ node.path.queue = [] := by decide +kernel

theorem witness_DrainWritesTheOldest_settled :
    Settled { node with path := { node.path with queue := [{ addr := 0x07E010, data := 5, kind := .coalescing }] } } :=
  settled_of_isNone _ (by decide +kernel)

/-- The node with the sweep at a cursor, the given entries queued, and a follow-up value. -/
def sweeping (cursor : Nat) (queue : List OwnWrite) (followUp : Option Word) : State :=
  { node with path := { node.path with queue := queue, sweep := some cursor, followUp := followUp } }

/-- A mirror entry, and the entry of the produce index. -/
def oneEntry (o : Nat) : OwnWrite := { addr := reportAddr node o, data := 5, kind := .coalescing }
def indexEntry : OwnWrite := { addr := eventsAddr node 0, data := 5, kind := .trailing }

/-- The sweep puts the first word from its cursor on that has no entry, behind a follow-up value that the drain frees; past the last
word it ends. -/
theorem test_sweep :
    ((after .drain (sweeping 0x010 [oneEntry 0x500, oneEntry 0x010] none)).path.queue.map (·.addr)) = [0x07E010, 0x07E014]
      ∧ (after .drain (sweeping 0x010 [oneEntry 0x500, oneEntry 0x010] none)).path.sweep = some 0x018
      ∧ ((after .drain (sweeping 0x66C [indexEntry] (some 7))).path.queue.map (fun w => (w.addr, w.data)))
        = [(0x07D800, 7), (0x07E66C, 0)]
      ∧ (after .drain (sweeping 0x66C [indexEntry] (some 7))).path.sweep = none
      ∧ (after .drain (sweeping 0x66C [oneEntry 0x500, oneEntry 0x66C] none)).path.sweep = none := by decide +kernel

/-- The word the sweep comes to, past one that is queued; the last word; and none left. -/
theorem witness_DrainWritesTheOldest_sweep :
    SweepNext (sweeping 0x010 [oneEntry 0x500, oneEntry 0x010] none) [oneEntry 0x010] 0x010 0x014
      ∧ SweepNext (sweeping 0x66C [indexEntry] (some 7)) [indexEntry] 0x66C 0x66C
      ∧ (∀ o, ¬SweepNext (sweeping 0x66C [oneEntry 0x500, oneEntry 0x66C] none) [oneEntry 0x66C] 0x66C o)
      ∧ queued ([] : List OwnWrite) (eventsAddr node 0) = false ∧ indexEntry.addr = eventsAddr node 0 :=
  ⟨⟨[0x010], sweepWords.drop 2, by decide +kernel, by decide, by decide +kernel, by decide +kernel⟩,
    ⟨sweepWords.dropLast, [], by decide +kernel, by decide, by decide +kernel, by decide +kernel⟩,
    (by
      rintro o ⟨before, rest, h, hc, hq, -⟩
      have hm : o ∈ sweepWords := by rw [h]; simp
      have : ∀ k ∈ sweepWords, 0x66C ≤ k →
          queued [oneEntry 0x66C] (reportAddr (sweeping 0x66C [oneEntry 0x500, oneEntry 0x66C] none) k) = true := by decide +kernel
      rw [this o hm hc] at hq; cases hq),
    by decide +kernel, rfl⟩

theorem witness_DrainWritesTheOldest_sweep_settled :
    Settled (sweeping 0x010 [oneEntry 0x500, oneEntry 0x010] none) ∧ Settled (sweeping 0x66C [indexEntry] (some 7))
      ∧ Settled (sweeping 0x66C [oneEntry 0x500, oneEntry 0x66C] none) :=
  ⟨settled_of_isNone _ (by decide +kernel), settled_of_isNone _ (by decide +kernel), settled_of_isNone _ (by decide +kernel)⟩

/-- The node with a full own-write queue. -/
def stalling : State :=
  { node with path := { node.path with queue := (List.range 32).map fun k => oneEntry (0x400 + 4 * k) } }

/-- R73, R172: the outcome word stalls, then the counter word and the two log words that changed, 0x660 and the time. -/
theorem test_stall :
    let t := after (.unknownRequest 0x0B 5 0) stalling
    t.waitCycles = 4 ∧ t.fault.counters[6] = 4 ∧ t.path.queue.length = 32
      ∧ (t.path.queue.map (fun w => (w.addr, w.data))).drop 28
        = [(0x03FF04, 0x0B050300), (0x07E64C, 4), (0x07E660, 0x00030117), (0x07E66C, 41000)]
      ∧ memWord t.mem 0x07E40C = 5 ∧ memWord t.mem 0x07E410 = 0 := by decide +kernel

/-- Eight distress entries, a full own-write queue, and OWN_WRITE_STALL not logged. -/
def crowded : State :=
  { stalling with
    effective := { settings with faults := settings.faults.set 6 { logOff := true } }
    call := { distress := (List.range 8).map fun k => { miner := BitVec.ofNat 16 (k + 1), node := 30, first := 1, last := 1, call := none } } }

/-- R129, R73: the clearing of the oldest of eight stalls once for each new entry: the record and the produce index (5), the counter
word, the 32 distress words, the counter word again once it has drained, the summary word, the outcome word. A distress word that a
stall has drained is not queued again. -/
theorem test_clear_distress_full_queue :
    let t := after (.clearDistress 1 1) crowded
    t.waitCycles = 41 ∧ t.fault.counters[6] = 41
      ∧ t.path.queue.map (·.addr)
        = ((wordRange 0x21C 29) ++ [0x64C, 0x290]).map (reportAddr t) ++ [settingAddr t 0xF04]
      ∧ memWord t.mem 0x07E210 = 0x00020001 ∧ t.path.shown = [] := by decide +kernel

/-- A full queue, with and without a drain notice at its front, and a request that is not DONE. -/
theorem witness_DrainWritesTheOldest_stall :
    let notified : OwnWrite := { oneEntry 0x400 with notice := some 7 }
    stalling.run = true ∧ stalling.path.queue = oneEntry 0x400 :: stalling.path.queue.tail ∧ 31 ≤ stalling.path.queue.tail.length
      ∧ stalling.fault.log = none ∧ stalling.effective.faults[6].logOff = false ∧ notified.notice = some 7
      ∧ stalling.ring.shadows[Fin.ofNat 64 (7 : Fin 16).val].state ≠ .unknown ∧ node.path.queue.length < 32
      ∧ requestWordOf (.unknownRequest 0x0B 5 0) = some (requestWord 0x0B 5 0)
      ∧ (judgeRequest stalling.strap (requestWord 0x0B 5 0) stalling).outcome ≠ outDone ∧ stalling.path.followUp = none
      ∧ stalling.path.queue.length = 32 ∧ (∀ e ∈ stalling.path.queue, e.notice = none)
      ∧ escalation stalling .ownWriteStall = .none ∧ queued stalling.path.queue (settingAddr stalling 0xF04) = false
      ∧ (∀ o ∈ [0x64C, 0x660, 0x664, 0x668, 0x66C], queued stalling.path.queue (reportAddr stalling o) = false
        ∧ reportAddr stalling o ≠ settingAddr stalling 0xF04) := by decide +kernel

theorem witness_DrainWritesTheOldest_stall_settled : Settled stalling := settled_of_isNone _ (by decide +kernel)

/-- The last read of the scan is next, a frame waits, and the shadow of PART slot 0 is as given. -/
def scanEnding (state : ShadowState) : State :=
  { node with
    path := { node.path with scanCursor := 63 }
    ring := { (withShadow 0 { state := state, scanned := true }).ring with list := [.halt 40] } }

/-- R82, R95: at the end of the scan the frame that waits is built into slot 0, if it is EMPTY. -/
theorem test_scan_end :
    (after .startScanRead (scanEnding .empty)).ring.list = [] ∧ (after .startScanRead (scanEnding .ready)).ring.list = [.halt 40]
      ∧ (after .startScanRead (scanEnding .empty)).ring.rings[3].next = some 32 := by decide +kernel

theorem witness_ScanAndPatrolReads_end :
    (Settled (scanEnding .empty) ∧ Settled (scanEnding .ready) ∧ QueueKept (scanEnding .empty) ∧ QueueKept (scanEnding .ready))
      ∧ (scanEnding .empty).path.scanCursor = (63 : Fin 64).val ∧ (scanEnding .empty).ring.list = .halt 40 :: []
      ∧ (scanEnding .empty).ring.shadows[(0 : Fin 64)].state = .empty ∧ (scanEnding .empty).ring.records[(0 : Fin 16)] = none
      ∧ (scanEnding .ready).ring.shadows[(0 : Fin 64)].state ≠ .empty :=
  ⟨⟨settled_of_isNone _ (by decide +kernel), settled_of_isNone _ (by decide +kernel),
    queueKept_of_empty _ rfl rfl (by decide +kernel), queueKept_of_empty _ rfl rfl (by decide +kernel)⟩, by decide +kernel⟩

/-- The first and the last scan read, and a pending patrol. -/
theorem witness_ScanAndPatrolReads :
    node.run = true ∧ node.path.queue = [] ∧ ({ node.path with scanCursor := 0 } : PathUnit).scanCursor = (0 : Fin 64).val
      ∧ ({ node.path with scanCursor := 63 } : PathUnit).scanCursor = (63 : Fin 64).val ∧ 64 ≤ node.path.scanCursor
      ∧ ({ node.path with patrolPending := true } : PathUnit).patrolPending = true := by decide +kernel

theorem witness_ScanAndPatrolReads_queue :
    QueueKept { node with path := { node.path with scanCursor := 0 } }
      ∧ QueueKept { node with path := { node.path with scanCursor := 63 } } :=
  ⟨queueKept_of_empty _ rfl rfl (by show node.ring.fill.val < _; decide),
    queueKept_of_empty _ rfl rfl (by show node.ring.fill.val < _; decide)⟩

/-- SETUP and RUN; a stopped period timer, a running one, one with a staged 0, and one with a staged period at its expiry. -/
theorem witness_TicksBringTimersDue :
    let running := PeriodTimer.start 2
    let staged := PeriodTimer.apply 3 running
    let expiring := PeriodTimer.tick (PeriodTimer.tick staged)
    setupNode.run = false ∧ node.run = true ∧ (1 : Nat) ≤ 1 ∧ (3 : Nat) ≠ 0
      ∧ (PeriodTimer.start 0).period = none ∧ running.period ≠ none ∧ running.staged = none
      ∧ (PeriodTimer.apply 0 running).staged = some 0 ∧ expiring.staged = some 3 ∧ expiring.count = 0 ∧ expiring.due = true := by
  decide +kernel

/-- R78: a period of 3 given to a timer of 2 waits for the second tick, and the next expiry is three ticks later; a 0 stops it there;
on a stopped timer a 3 starts at once. -/
theorem test_period_applied :
    let staged := PeriodTimer.tick (PeriodTimer.tick (PeriodTimer.apply 3 (PeriodTimer.start 2)))
    let after := PeriodTimer.expire staged
    staged.due = true ∧ staged.period = some 2 ∧ after.period = some 3
      ∧ (PeriodTimer.tick (PeriodTimer.tick after)).due = false
      ∧ (PeriodTimer.tick (PeriodTimer.tick (PeriodTimer.tick after))).due = true
      ∧ (PeriodTimer.expire (PeriodTimer.tick (PeriodTimer.apply 0 (PeriodTimer.start 1)))).period = none
      ∧ PeriodTimer.apply 3 (PeriodTimer.start 0) = PeriodTimer.start 3 := by decide +kernel

/-- A list that waits for a place; a repeat expiry that finds one, its words distinct; a miner's entry; a cause in force. -/
theorem witness_PartFramesBuiltAndWithdrawn :
    let s := { node with ring := { node.ring with list := [.halt 40] } }
    let d : Distress := { miner := 7, node := 30, first := 1, last := 1, call := none }
    let u := { node with call := { node.call with distress := [d] } }
    canBuild s = true ∧ s.ring.list = .halt 40 :: []
      ∧ repeating.run = true ∧ repeating.level.repeatTimer.due = true ∧ repeating.level.level = .evacuate
      ∧ repeating.level.cause = some { kind := .request, node := 21, seq := 1, hop := some 2, reason := 9, time := 40000 }
      ∧ repeating.call.distress = [] ∧ repeating.ring.list = [] ∧ repeating.path.scanCursor = 64
      ∧ repeating.ring.shadows[Fin.ofNat 64 repeating.ring.fill.val].state = .empty
      ∧ repeating.ring.records[repeating.ring.fill] = none ∧ repeating.path.followUp = none
      ∧ ((repeating.path.queue ++ builtWrites repeating (.evacuate 21 1 9 2)).map (·.addr)
          ++ (fillWords repeating).map (reportAddr repeating)).Nodup
      ∧ repeating.path.queue.length + 8 ≤ 32
      ∧ u.run = true ∧ distressOf u 7 = some d ∧ cellsTripped evacuated = false ∧ alertingHeld evacuated = false
      ∧ evacuated.level.cause.isSome = true ∧ evacuated.level.level = .evacuate := by decide +kernel

theorem witness_PartFramesBuiltAndWithdrawn_settled : Settled repeating ∧ NoEndCause evacuated :=
  ⟨settled_of_isNone _ (by decide +kernel), by unfold NoEndCause; decide +kernel⟩

/-- A stale timer that is due and one that is not; a due window that goes on and one that a staged 0 stops, a channel in use and one
that is OFF. -/
theorem witness_AirTimersExpire :
    let s := { node with rate := { node.rate with due := true } }
    let stopped := { node with rate := { node.rate with due := true, staged := some 0 } }
    (withHead (fun c => { c with stale := .running 5 5 })).run = true
      ∧ Timer.due (withHead (fun c => { c with stale := .running 5 5 })).channels[6].stale = true
      ∧ Timer.due node.channels[6].stale = false
      ∧ s.run = true ∧ s.rate.due = true ∧ s.rate.staged ≠ some 0 ∧ stopped.rate.due = true ∧ stopped.rate.staged = some 0
      ∧ s.effective.channels[6].source ≠ .off ∧ s.effective.channels[0].source = .off := by decide +kernel

/-- Segment 0 with a holder and an occupant of opposite headings, which becomes CONFLICT, and one that was CONFLICT and becomes FREE;
the same segment with its channel at ALARM, at TRIP and at CLEAR again; a reading that brings channel 6 to TRIP; an EVACUATE request. -/
theorem witness_SegmentsFollowHeadingsGasAndLevel :
    let outby : Truck := { oneTruck with id := 8, heading := .outbye }
    let both : State := { withTruck with road :=
      { trucks := oneTruckRoad.trucks.set 1 (some outby), segments := segmentsWith { oneTruckRoad.segments[0] with granted := [8] } } }
    let left : State := { node with road := { node.road with segments := segmentsWith { direction := .conflict } } }
    let gas (g : Grade) : State := { withTruck with channels := node.channels.set 6 { node.channels[6] with live := g, latched := g } }
    let gated : State := { withTruck with road := { oneTruckRoad with segments := segmentsWith { gated := .trip } } }
    (rederive 0 both).road.segments[0].direction = .conflict ∧ occupancy both.fault ≠ 64
      ∧ (rederive 0 left).road.segments[0].direction = .free ∧ (rederive 0 withTruck).road.segments[0].direction = .inbye
      ∧ (regateSegment 0 (gas .alarm)).road.segments[0].gated = .alarm ∧ isDiesel (gas .alarm) 7 = true
      ∧ (regateSegment 0 (gas .trip)).road.segments[0].gated = .trip
      ∧ (regateSegment 0 gated).road.segments[0].gated = .clear
      ∧ controlled withTruck 0 = true ∧ bitOf withTruck.effective.segments[0].gate (6 : Fin 24).val = true
      ∧ withTruck.road.segments[0].gated ≠ .trip ∧ held withTruck.channels[6] ≠ .trip
      ∧ withTruck.channels[6].seq ≠ some (bits (rawWord 2000 5) 12 4)
      ∧ held (after (.rawAirWrite 0x07D7CC (rawWord 2000 5)) withTruck).channels[6] = .trip
      ∧ withTruck.level.cause = none ∧ withTruck.level.level ≠ .evacuate
      ∧ (after (.evacuate 1 9) withTruck).road.segments[0].holders = [] := by decide +kernel

theorem witness_RepeatAndPatrolTimersExpire :
    let s := { evacuated with level := { evacuatedLevel with repeatTimer := { period := some 10, due := true } },
                              fault := { node.fault with patrol := { period := some 1, due := true } } }
    s.run = true ∧ s.level.repeatTimer.due = true ∧ s.level.cause.isSome = true ∧ s.fault.patrol.due = true := by decide +kernel

/-- A frame of another node, an own echo, a hold of 0, and a due timer. -/
theorem witness_RemoteAlertHeld :
    node.run = true ∧ nodeDefined 1 = true ∧ nodeDefined 4094 = true ∧ (4094 : NodeId) ≠ node.effective.node.nodeId
      ∧ node.effective.node.remoteHold ≠ 0 ∧ (21 : NodeId) = node.effective.node.nodeId
      ∧ Timer.due ({ node.level with remote := .running 3 3 } : LevelUnit).remote = true := by decide +kernel

theorem witness_CallSilenceExpires :
    (withCall oneCall).run = true ∧ (withCall oneCall).call.table[0] = some oneCall ∧ Timer.due oneCall.silence = true
      ∧ oneCall.priority ≠ .distress ∧ ({ oneCall with priority := .distress } : Call).priority = .distress := by decide +kernel

/-- A due grant, a due stale timer of a TRACKED truck, a due forget timer of an occupant, and of a truck without a place. -/
theorem witness_RoadTimersExpire :
    withTruck.run = true ∧ (∃ h ∈ withTruck.road.segments[0].holders, h.truck = 7 ∧ Timer.due h.grant = true)
      ∧ waits withTruck.road.segments[0] 7 = false ∧ withTruck.road.trucks[0] = some oneTruck
      ∧ Timer.due oneTruck.stale = true ∧ oneTruck.lost = none ∧ Timer.due oneTruck.forget = true
      ∧ (let s := { withTruck with road := { oneTruckRoad with segments := Vector.replicate 16 {} } }
         placeless s 7 = true)
      ∧ (let s := { withTruck with road := { oneTruckRoad with segments := segmentsWith { granted := [7] } } }
         occupies s.road.segments[0] 7 = true) := by decide +kernel

theorem witness_RoadTimersExpire_settled :
    Settled { withTruck with road := { oneTruckRoad with segments := Vector.replicate 16 {} } } :=
  settled_of_isNone _ (by decide +kernel)

theorem witness_ChamberTimersExpire :
    withChamber.run = true ∧ withChamber.effective.chambers[0].id ≠ 0 ∧ Timer.due withChamber.chambers[0].silenceTimer = true
      ∧ Timer.due withChamber.chambers[0].airlockTimer = true := by decide +kernel

/-- A new truck, a holder that enters, and a full table. The request step: a truck placed in the segment, a holder elsewhere, a
waiter, a full queue, and one with room, the truck waiting elsewhere. -/
theorem witness_BeaconTracksAndRequests :
    let ahead : List Waiter := (List.range 8).map (fun k => { truck := BitVec.ofNat 16 (k + 100), dir := .inbye })
    let wait : Waiter := { truck := 7, dir := .inbye }
    node.run = true ∧ (7 : Id) ≠ 0 ∧ nodeDefined 30 = true ∧ truckPosition node 7 = none
      ∧ findIndex node.road.trucks (fun k => k.isNone) = some 0 ∧ controlledIndex node 40 = some 0
      ∧ truckPosition withTruck 7 = some 0 ∧ holds withTruck.road.segments[0] 7 = true
      ∧ findIndex (Vector.replicate 32 (some oneTruck)) (fun k => k.isNone) = none
      ∧ holds withTruck.road.segments[1] 7 = false ∧ occupies withTruck.road.segments[1] 7 = false
      ∧ (∀ k : Fin 16, node.road.segments[k].queue.length ≤ 8) ∧ (∀ k : Fin 16, withTruck.road.segments[k].queue.length ≤ 8)
      ∧ waits { queue := [wait] } 7 = true ∧ (∀ k : Fin 16, holds node.road.segments[k] 7 = false)
      ∧ waits { queue := ahead } 7 = false ∧ ahead.length = 8 ∧ waits { queue := ahead.take 7 } 7 = false
      ∧ (ahead.take 7).length ≠ 8 := by decide +kernel

/-- A beacon of a truck without a place that requests segment 0 with 8 waiters: QUEUE_FULL is counted once. -/
theorem test_beacon_queue_full :
    let ahead : List Waiter := (List.range 8).map (fun k => { truck := BitVec.ofNat 16 (k + 100), dir := .inbye })
    let s := { node with road := { node.road with segments := segmentsWith { queue := ahead } } }
    (after (.truckBeacon 7 .diesel .inbye 30 0 40) s).road.queueFull = 1
      ∧ ((beaconRequest { truck := 7, power := .diesel, heading := .inbye, current := 0, requested := 41 } 1 s).road.segments[1].queue).length
        = 1 := by decide +kernel

/-- R136, R142: a holder that enters with a turned heading lets the head of the queue move. -/
theorem test_holder_enters_and_head_is_served :
    let g := { oneTruckRoad.segments[0] with queue := [{ truck := 9, dir := .outbye }] }
    let t := after (.truckBeacon 7 .diesel .outbye 30 40 0)
      { withTruck with road := { oneTruckRoad with segments := segmentsWith g } }
    t.road.segments[0].granted = [7] ∧ (t.road.segments[0].holders.map (·.truck)) = [9] ∧ t.road.segments[0].queue = []
      ∧ t.road.segments[0].direction = .outbye := by decide +kernel

/-- A head that gas bars, one that is granted, and one that the convoy limit stops. -/
theorem witness_QueueHeadServed :
    let s := { withTruck with road := { oneTruckRoad with
      segments := segmentsWith { queue := [{ truck := 7, dir := .inbye }] } } }
    s.road.segments[0].queue = { truck := 7, dir := .inbye } :: [] ∧ s.road.segments[0].gated ≠ .trip
      ∧ s.level.level ≠ .evacuate ∧ s.road.segments[0].direction = .free
      ∧ s.road.segments[0].holders.length + s.road.segments[0].granted.length < s.effective.segments[0].convoy
      ∧ ({ s.road.segments[0] with gated := .trip } : Segment).gated = .trip
      ∧ ¬(2 + 0 < s.effective.segments[0].convoy) := by decide +kernel

/-- Calls with the lowest and the highest id; a known call, a free table, a full table that is pre-empted and one that is not. -/
theorem witness_CallFramesTaken :
    let full := { node with call := { node.call with
      table := Vector.replicate 8 (some { oneCall with id := 20 }), order := [3, 0, 1, 2, 4, 5, 6, 7] } }
    node.run = true ∧ Frame.defined (.callOpen 1 7 .handset) = true ∧ Frame.defined (.callOpen 255 7 (.chamber 301)) = true
      ∧ callPosition (withCall oneCall) 9 = some 0 ∧ callPosition node 9 = none
      ∧ findIndex node.call.table (fun c => c.isNone) = some 0 ∧ callPosition full 9 = none
      ∧ findIndex full.call.table (fun c => c.isNone) = none ∧ preemptable full .refuge = some 3
      ∧ preemptable full .ordinary = none ∧ (255 : CallId) ≠ 0
      ∧ full.call.order = [] ++ 3 :: [0, 1, 2, 4, 5, 6, 7] := by decide +kernel

/-- A listed miner, an unlisted one with room, and one that finds the list full. -/
theorem witness_DistressTaken :
    let d : Distress := { miner := 7, node := 30, first := 1, last := 1, call := none }
    node.run = true ∧ (7 : Id) ≠ 0 ∧ nodeDefined 30 = true ∧ (∃ e ∈ [d], e.miner = 7) ∧ distressOf node 7 = none
      ∧ (∀ e ∈ node.call.distress, e.miner ≠ 7) ∧ node.call.distress.length < 8
      ∧ (∀ e ∈ List.replicate 8 d, e.miner ≠ 9) ∧ 8 ≤ (List.replicate 8 d).length := by decide +kernel

/-- A listed miner, one with room and one without; a listed miner, one that the overflow counts and one that nothing counts. -/
theorem witness_CheckInAndOut :
    node.run = true ∧ node.effective.chambers[0].id ≠ 0 ∧ (9 : Id) ≠ 0 ∧ 7 ∈ withChamber.chambers[0].occupants
      ∧ 9 ∉ withChamber.chambers[0].occupants ∧ node.chambers[0].occupants.length < node.effective.chambers[0].capacity
      ∧ ¬(withChamber.chambers[0].occupants.length < withChamber.effective.chambers[0].capacity)
      ∧ 0 < ({ fullChamber with overflow := 1 } : Chamber).overflow ∧ withChamber.chambers[0].overflow = 0 := by decide +kernel

theorem occupants_node (c : Fin 4) : node.chambers[c].occupants = [] := by revert c; decide +kernel

theorem occupants_withChamber (c : Fin 4) (h : c ≠ 0) : withChamber.chambers[c].occupants = [] := by
  revert c; decide +kernel

theorem witness_CheckInAndOut_kept : ChambersKept node ∧ ChambersKept withChamber := by
  refine ⟨⟨by decide +kernel, fun c d _ m hm => ?_, fun _ => by decide +kernel⟩,
    ⟨by decide +kernel, fun c d hcd m hm => ?_, fun _ => by decide +kernel⟩⟩
  · rw [occupants_node c] at hm; cases hm
  · intro hd
    rcases eq_or_ne c 0 with rfl | hc
    · rw [occupants_withChamber d (Ne.symm hcd)] at hd; cases hd
    · rw [occupants_withChamber c hc] at hm; cases hm

/-- Chamber 1 and its oxygen channel. -/
theorem witness_RefugeStatusTaken :
    node.run = true ∧ node.effective.chambers[1].id ≠ 0 ∧ channelOf node (.chamber 1 .o2) = some 12 := by decide +kernel

/-- An own echo, an ended cause, the same cause, a later cause and a new cause. -/
theorem witness_EvacuateFrameTaken :
    node.run = true ∧ nodeDefined 22 = true ∧ nodeDefined 30 = true ∧ (21 : NodeId) = node.effective.node.nodeId
      ∧ ({ node.level with ended := some (30, 5) } : LevelUnit).ended = some (30, 5)
      ∧ ¬((30 : NodeId) = node.effective.node.nodeId ∨ node.level.ended = some (30, 5)) ∧ node.level.cause = none
      ∧ (∃ c, evacuated.level.cause = some c ∧ ¬(c.node = 30 ∧ c.seq = 5)) := by
  refine ⟨by decide, by decide, by decide, by decide, by decide, by decide, by decide, _, rfl, by decide⟩

/-- Cell 1 with its demand true, and the event not due. -/
theorem witness_EvacuatingCellsReevaluated :
    let s := { evacuated with reevalDue := true }
    s.run = true ∧ s.reevalDue = true ∧ s.level.level = .evacuate ∧ s.level.cause ≠ none
      ∧ s.effective.cells[1].enabled = true ∧ (∃ k : Fin 4, s.effective.cells[1].inputs[k].code = 5)
      ∧ (∀ k : Fin 4, s.effective.cells[1].inputs[k].code ≠ 4) ∧ s.cells[1].state = .ready ∧ cellDemand s 1 = true
      ∧ node.reevalDue = false := by decide +kernel

/-- The node below EVACUATE with the event due; cell 1 reads EVACUATING inverted, and a trip of it evacuates. -/
def leftEvacuate : State :=
  { node with
    reevalDue := true
    effective := { settings with cells := settings.cells.set 1 { evacuatingCell with
      evacuateOnTrip := true, inputs := #v[{ code := 5, invert := true }, {}, {}, {}] } } }

/-- The event after the level has left EVACUATE: a cell that trips, requires no confirmation and brings EVACUATE back; one whose
demand is false; and one that has tripped before. -/
theorem witness_EvacuatingCellsReevaluated_left :
    let s := leftEvacuate
    let quiet := { node with reevalDue := true }
    let tripped := { s with cells := s.cells.set 1 { demand := false, state := .isolated } }
    s.run = true ∧ s.level.level ≠ .evacuate ∧ s.level.cause = none ∧ s.effective.cells[1].enabled = true
      ∧ s.effective.cells[1].inputs[0].code = 5 ∧ (∀ k : Fin 4, s.effective.cells[1].inputs[k].code ≠ 4)
      ∧ s.cells[1].state = .ready ∧ cellDemand s 1 = true ∧ s.effective.cells[1].evacuateOnTrip = true
      ∧ s.effective.cells[1].confirmRequired = false ∧ cellDemand quiet 1 = false ∧ quiet.cells[1].state = .ready
      ∧ tripped.cells[1].state ≠ .ready := by decide +kernel

/-- R35, R48, R54: at the exit the inverted EVACUATING selector trips cell 1, whose trip evacuates. -/
theorem test_left_evacuate :
    let t := after .evacuatingReevaluation leftEvacuate
    t.cells[1].state = .isolated ∧ t.level.level = .evacuate ∧ t.level.cause.map (·.kind) = some .cell
      ∧ t.reevalDue = true := by decide +kernel

/-- The node with channel 6 held at ALARM and faulted, cell 0's demand true, line 1 at its confirmed level, in EVACUATE, cell 2 with
given inputs and mode. -/
def reading (inputs : Vector Selector 4) (mode : CellMode) (invert : Bool) : State :=
  { node with
    level := evacuatedLevel
    channels := modifyAt node.channels 6 (fun c => { c with latched := .alarm, faults := { stale := true } })
    cells := node.cells.set 0 { demand := true, state := .tripped }
    sampled := node.sampled.set 1 true
    effective := { settings with
      cells := settings.cells.set 2 { enabled := true, mode := mode, outputInvert := invert, inputs := inputs } } }

/-- R33: every selector with both truths, by a source that gives it and by one that does not or by the invert flag. -/
theorem test_selectors :
    cellTruths (reading #v[{ code := 0 }, { code := 1 }, { index := 6, n := 2, code := 2 }, { index := 6, n := 3, code := 2 }] .any false) 2
        = #v[false, true, true, false]
      ∧ cellTruths (reading #v[{ index := 6, code := 3 }, { index := 7, code := 3 }, { index := 0, code := 4 }, { index := 1, code := 4 }]
          .any false) 2 = #v[true, false, true, false]
      ∧ cellTruths (reading #v[{ code := 5 }, { code := 5, invert := true }, { index := 0, code := 6 }, { index := 1, code := 6 }]
          .any false) 2 = #v[true, false, true, false] := by decide +kernel

/-- R34: the six modes over the truths of inputs 0 and 1, and over those of inputs 0 and 2. -/
theorem test_modes :
    let demand := fun (a b c : Fin 16) (mode : CellMode) (invert : Bool) =>
      cellDemand (reading #v[{ code := a }, { code := b }, { code := c }, {}] mode invert) 2
    demand 1 1 0 .any false = true ∧ demand 1 1 0 .all false = false ∧ demand 1 1 0 .twoOfFour false = true
      ∧ demand 1 1 0 .threeOfFour false = false ∧ demand 1 1 1 .threeOfFour false = true
      ∧ demand 1 1 0 .pairsEither false = true ∧ demand 1 1 0 .pairsBoth false = false
      ∧ demand 1 0 1 .pairsEither false = false ∧ demand 1 0 1 .pairsBoth false = true
      ∧ demand 1 1 0 .any true = false ∧ demand 1 1 0 .all true = true := by decide +kernel

/-- The selectors' own hypotheses: the codes, their indices in range, a line of function CONFIRM_IN(0) and of no other, and none of
function CONFIRM_IN(1). -/
theorem witness_EvacuatingCellsReevaluated_selectors :
    let s := reading #v[{ code := 5 }, { index := 6, code := 3 }, { index := 0, code := 6 }, { index := 1, code := 6 }] .any false
    let sel := s.effective.cells[2].inputs
    sel[0].code = 5 ∧ sel[1].code = 3 ∧ sel[1].index.val < 24 ∧ sel[2].code = 6 ∧ sel[2].index.val < 4
      ∧ s.effective.lines[1].fn = .confirmIn (Fin.ofNat 4 sel[2].index.val)
      ∧ (∀ m : Fin 8, s.effective.lines[m].fn = .confirmIn (Fin.ofNat 4 sel[2].index.val) → m = 1)
      ∧ sel[3].code = 6 ∧ (∀ n : Fin 8, s.effective.lines[n].fn ≠ .confirmIn (Fin.ofNat 4 sel[3].index.val)) := by decide +kernel

theorem callsKept_withCall : CallsKept (withCall oneCall) := by
  have free : ∀ p : Fin 8, p ≠ 0 → (withCall oneCall).call.table[p] = none := by decide +kernel
  refine ⟨fun p q c hc d hd _ => ?_, by decide +kernel, by decide +kernel, by decide +kernel, by decide +kernel⟩
  rcases eq_or_ne p 0 with rfl | hp
  · rcases eq_or_ne q 0 with rfl | hq
    · rfl
    · rw [free q hq] at hd; cases hd
  · rw [free p hp] at hc; cases hc

/-- The node keeps every law, and a step of it answers a next state. -/
theorem witness_laws :
    Memory.wf node.mem = true ∧ LatchedCoversLive node ∧ LinesFollow { node with drive := lineDrives node } ∧ GrantsKept withTruck
      ∧ RoadListsKept withTruck
      ∧ ChambersKept withChamber ∧ CallsKept (withCall oneCall) ∧ CapacitiesKept node :=
  ⟨by decide +kernel, by unfold LatchedCoversLive; decide +kernel, rfl, ⟨fun h => (by cases h), fun _ => by decide +kernel⟩,
    by unfold RoadListsKept; decide +kernel,
    witness_CheckInAndOut_kept.2, callsKept_withCall, by decide +kernel, by decide +kernel, by decide +kernel,
    fun m => by show (0 : Nat) ≤ 1; decide, by decide +kernel⟩

/-- Law 5 of roads with a truck that holds a segment. -/
theorem truckPlacesKept_withTruck : TruckPlacesKept withTruck := by
  have empty : ∀ i : Fin 16, i ≠ 0 → withTruck.road.segments[i] = {} := by decide +kernel
  have first : withTruck.road.segments[(0 : Fin 16)].queue = [] ∧ withTruck.road.segments[(0 : Fin 16)].granted = []
      ∧ withTruck.road.segments[(0 : Fin 16)].unauthorised = [] := by decide +kernel
  have waitsNot : ∀ (i : Fin 16) (id : Id), waits withTruck.road.segments[i] id = false := by
    intro i id
    rcases eq_or_ne i 0 with rfl | h
    · simp only [waits, first.1, List.any_nil]
    · rw [empty i h]; rfl
  have occupiesNot : ∀ (i : Fin 16) (id : Id), occupies withTruck.road.segments[i] id = false := by
    intro i id
    rcases eq_or_ne i 0 with rfl | h
    · simp only [occupies, first.2.1, first.2.2]; rfl
    · rw [empty i h]; rfl
  refine ⟨by decide +kernel, fun i j id hij => ⟨fun hh => ?_, fun hh => ?_, fun hh => ?_⟩, fun i id => ⟨fun hh => ?_, fun _ => occupiesNot i id⟩⟩
  · rcases eq_or_ne j 0 with rfl | h
    · rw [empty i hij] at hh; cases hh
    · rw [empty j h]; rfl
  · rw [occupiesNot i id] at hh; cases hh
  · rw [waitsNot i id] at hh; cases hh
  · rw [waitsNot i id] at hh; cases hh

/-- The level law and the muster law at NORMAL and in EVACUATE; an accepted END_EVACUATION there, and a POWER_ON. -/
theorem witness_LinesFollowTheirFunctions :
    LevelFollows node ∧ MusterFollows node ∧ LevelFollows evacuated ∧ MusterFollows evacuated
      ∧ evacuated.level.level = .evacuate ∧ EndsEvacuation (.endEvacuation 1 0) evacuated
      ∧ (after (.endEvacuation 1 0) evacuated).level.level ≠ .evacuate ∧ (after (.powerOn 0) evacuated).level.level ≠ .evacuate
      ∧ (after (.restart 0 1 0) evacuated).level.level = .evacuate := by
  refine ⟨?_, ?_, ?_, ?_, rfl, ⟨rfl, by decide +kernel, by decide +kernel, _, rfl, by decide +kernel⟩, by decide +kernel,
    by decide +kernel, by decide +kernel⟩ <;> (first | unfold LevelFollows; decide +kernel | unfold MusterFollows MusterShows; decide +kernel)

theorem callsKept_node : CallsKept node := by
  have free : ∀ p : Fin 8, node.call.table[p] = none := by decide +kernel
  refine ⟨fun p q c hc d hd _ => ?_, by decide +kernel, by decide +kernel, by decide +kernel, by decide +kernel⟩
  rw [free p] at hc; cases hc

/-- The premises of OwnWriteQueueKept and MemoryChangesOnlyWhereStored, of one state. -/
theorem witness_laws_queue : Memory.wf node.mem = true ∧ CallsKept node ∧ PatrolKept node ∧ QueueKept node :=
  ⟨by decide +kernel, callsKept_node, by unfold PatrolKept; decide +kernel, node_queueKept⟩

/-- No byte of the consume-index word is a byte of the part's own words, and a CONTROLLER write stores each of the four. -/
theorem witness_MemoryChangesOnlyWhereStored_consume (b : Nat) (h : 0x07D804 ≤ b) (hb : b < 0x07D808) :
    ¬OwnByte node b ∧ storedByte (.consumeIndexWrite 0x07D804 2) node b = true := by
  constructor
  · rintro ⟨a, rfl | ⟨-, ⟨o, ho, hm, rfl⟩ | ⟨o, ho, hm, hn, rfl⟩ | ⟨o, ho, hm, rfl⟩ | ⟨n, k, hn, hk, rfl⟩⟩, h1, h2⟩
    · have : (settingAddr node 0xF04).toNat = 0x03FF04 := by decide +kernel
      omega
    · have : (reportAddr node o).toNat = 0x07E000 + o := by
        have hr : node.effective.regions.report.toNat = 0x07E000 := rfl
        simp only [reportAddr, address, hr, BitVec.toNat_ofNat]; omega
      omega
    · have : (eventsAddr node o).toNat = 0x07D800 + o := by
        have hr : node.effective.regions.events.toNat = 0x07D800 := rfl
        simp only [eventsAddr, address, hr, BitVec.toNat_ofNat]; omega
      omega
    · have : (address (node.effective.regions.partFrames.toNat + o)).toNat = 0x07C000 + o := by
        have hr : node.effective.regions.partFrames.toNat = 0x07C000 := rfl
        simp only [address, hr, BitVec.toNat_ofNat]; omega
      omega
    · have : (address (node.effective.regions.txSlots.toNat + 16 * n + 4 * k)).toNat = 0x07D000 + 16 * n + 4 * k := by
        have hr : node.effective.regions.txSlots.toNat = 0x07D000 := rfl
        have hs : ringStart node 1 = 8 := by decide +kernel
        simp only [address, hr, BitVec.toNat_ofNat]; omega
      have hs : ringStart node 1 = 8 := by decide +kernel
      omega
  · obtain rfl | rfl | rfl | rfl : b = 0x07D804 ∨ b = 0x07D805 ∨ b = 0x07D806 ∨ b = 0x07D807 := by omega
    all_goals decide +kernel

theorem witness_laws_step : ∃ t, step { node with pending := [.timeBaseTick] } = .next t := ⟨_, rfl⟩

end Sys2Proof.Tests
end

section
/-! PROOFS. Air readings (chapter 1): a raw air write that acts on no channel (R3, R4), the average under readings of one value
(R10, R11), the computed grade (R12, R13). -/

namespace Sys2Proof.Machine

/-! ## A write of a raw air word -/

/-- RAW_AIR_WRITE in RUN on a word of the raw air table is taken by the air unit (R3, R65). -/
theorem exec_rawAirWrite {addr : Addr} {data : Word} {o : Nat} {s : State} (hrun : s.run = true)
    (hfull : fullWordAccess addr 0xF = true) (hat : regionAt s (wordBase addr.toNat) = some (.rawAir, o)) :
    exec (.rawAirWrite addr data) s =
      .next (takeWrite s.strap (fullAccess .sensor addr data) (.rawAir (Fin.ofNat 16 (o / 4))) s) := by
  have harm : exec (.rawAirWrite addr data) s = .next (serveWrite s.strap (fullAccess .sensor addr data) s) := rfl
  have hat' : regionAt s (fullAccess .sensor addr data).wordAddr = some (.rawAir, o) := hat
  have hfull' : (fullAccess .sensor addr data).isFull = true := hfull
  have hinit : (fullAccess .sensor addr data).init = .sensor := rfl
  rw [harm]
  simp [serveWrite, hrun, runWrite, hat', hinit, permitted, takenWord, hfull']

/-- A raw air word whose verdict is NOT_USED or DUPLICATE changes no channel: its word reaches memory with the verdict (R3, R4). -/
theorem takeWrite_rawAir_of_notUsed_or_duplicate {strap : BitVec 2} {addr : Addr} {data : Word} {n : Fin 16} {v : Verdict} {s : State}
    (hv : rawVerdict s n data = v) (hun : v = .notUsed ∨ v = .duplicate) :
    takeWrite strap (fullAccess .sensor addr data) (.rawAir n) s =
      { s with mem := memWriteWord s.mem (wordBase addr.toNat) (withVerdict v data) } := by
  subst hv
  exact if_pos hun

/-- Exactly a reading with the channel's last sequence is DUPLICATE (R4): each other verdict comes after that test (R6, R7). -/
theorem readingVerdict_eq_duplicate {set : ChannelSet} {c : Channel} {r : BitVec 12} {q : BitVec 4} {f : Bool} :
    readingVerdict set c r q f = .duplicate ↔ c.seq = some q := by
  unfold readingVerdict
  split_ifs with h <;> simp [h]

theorem rawVerdict_of_channel {s : State} {n : Fin 16} {i : Fin 24} {w : Word} (h : channelOf s (.localInput n) = some i) :
    rawVerdict s n w = readingVerdict (channelSet s i) s.channels[i] (bits w 0 12) (bits w 12 4) (bitOf w 16) := by
  simp only [rawVerdict, h]

theorem rawVerdict_of_no_channel {s : State} {n : Fin 16} {w : Word} (h : channelOf s (.localInput n) = none) :
    rawVerdict s n w = .notUsed := by
  simp only [rawVerdict, h]

/-- On a used input exactly a repeated sequence is DUPLICATE (R4). -/
theorem rawVerdict_eq_duplicate {s : State} {n : Fin 16} {i : Fin 24} {w : Word} (h : channelOf s (.localInput n) = some i) :
    rawVerdict s n w = .duplicate ↔ s.channels[i].seq = some (bits w 12 4) := by
  rw [rawVerdict_of_channel h, readingVerdict_eq_duplicate]

/-! ## The average under readings of one value -/

/-- An iteration that decreases a measure until it rests comes to rest, where the invariant it keeps still holds. -/
theorem iterate_comes_to_rest {f : Nat → Nat} (P : Nat → Prop) (μ : Nat → Nat) (hkeep : ∀ a, P a → P (f a))
    (hfall : ∀ a, P a → f a = a ∨ μ (f a) < μ a) (a : Nat) (ha : P a) :
    ∃ n b, P b ∧ f b = b ∧ ∀ m, n ≤ m → f^[m] a = b := by
  induction hk : μ a using Nat.strong_induction_on generalizing a with
  | _ k ih =>
    rcases hfall a ha with hrest | hless
    · exact ⟨0, a, ha, hrest, fun m _ => Function.iterate_fixed hrest m⟩
    · obtain ⟨n, b, hb, hrest, hall⟩ := ih (μ (f a)) (hk ▸ hless) (f a) (hkeep a ha) rfl
      refine ⟨n + 1, b, hb, hrest, fun m hm => ?_⟩
      obtain ⟨m, rfl⟩ : ∃ l, m = l + 1 := ⟨m - 1, by omega⟩
      rw [Function.iterate_succ_apply]
      exact hall m (by omega)

/-- The average of a seen channel moved toward `v` (R10), for every shift: a shift of 0 moves it the whole way. -/
theorem averaged_of_seen {k v : Nat} {c : Channel} (h : c.seen = true) :
    averaged k c v = ((c.a16 : Int) + (16 * (v : Int) - c.a16) / 2 ^ k).toNat := by
  unfold averaged
  split_ifs with hk
  · obtain rfl : k = 0 := by simpa [h] using hk
    simp
    omega
  · rfl

/-- From above, the next a16 lies between 16 v and the one before, and below that one unless it is 16 v (R11). -/
theorem averaged_from_above {k v : Nat} {c : Channel} (h : c.seen = true) (ha : 16 * v ≤ c.a16) :
    16 * v ≤ averaged k c v ∧ (c.a16 = 16 * v ∨ averaged k c v < c.a16) := by
  have hpow : (0 : Int) < 2 ^ k := by positivity
  have hle : 16 * (v : Int) - c.a16 ≤ (16 * (v : Int) - c.a16) / 2 ^ k :=
    Int.le_ediv_of_mul_le hpow (by nlinarith)
  rw [averaged_of_seen h]
  refine ⟨by omega, ?_⟩
  rcases Nat.eq_or_lt_of_le ha with heq | hlt
  · exact .inl heq.symm
  · have hneg : (16 * (v : Int) - c.a16) / 2 ^ k < 0 := Int.ediv_neg_of_neg_of_pos (by omega) hpow
    exact .inr (by omega)

/-- From below, the next a16 is neither below the one before nor above 16 v, and above the one before unless that one is less than
2^k short of 16 v (R11). -/
theorem averaged_from_below {k v : Nat} {c : Channel} (h : c.seen = true) (ha : c.a16 ≤ 16 * v) :
    averaged k c v ≤ 16 * v ∧ (16 * v < c.a16 + 2 ^ k ∨ c.a16 < averaged k c v) := by
  have hpow : (0 : Int) < 2 ^ k := by positivity
  have hdiff : (0 : Int) ≤ 16 * (v : Int) - c.a16 := by omega
  have hle : (16 * (v : Int) - c.a16) / 2 ^ k ≤ 16 * (v : Int) - c.a16 := Int.ediv_le_self _ hdiff
  rw [averaged_of_seen h]
  refine ⟨by omega, ?_⟩
  by_cases hnear : 16 * v < c.a16 + 2 ^ k
  · exact .inl hnear
  · have hfar : (2 : Int) ^ k ≤ 16 * (v : Int) - c.a16 := by
      have : ((c.a16 + 2 ^ k : Nat) : Int) ≤ (16 * v : Nat) := by exact_mod_cast not_lt.mp hnear
      push_cast at this
      omega
    have hmove : 1 ≤ (16 * (v : Int) - c.a16) / 2 ^ k := Int.le_ediv_of_mul_le hpow (by omega)
    exact .inr (by omega)

/-- Less than 2^k below 16 v the step is 0 (R11). -/
theorem averaged_near_below {k v : Nat} {c : Channel} (h : c.seen = true) (ha : c.a16 ≤ 16 * v)
    (hnear : 16 * v < c.a16 + 2 ^ k) : averaged k c v = c.a16 := by
  have hlt : 16 * (v : Int) - c.a16 < 2 ^ k := by
    have : ((16 * v : Nat) : Int) < (c.a16 + 2 ^ k : Nat) := by exact_mod_cast hnear
    push_cast at this
    omega
  rw [averaged_of_seen h, Int.ediv_eq_zero_of_lt (by omega) hlt]
  simp

/-- From above, a16 reaches 16 v and stays (R11). -/
theorem averaged_iterate_from_above {k v a : Nat} {c : Channel} (h : c.seen = true) (ha : 16 * v ≤ a) :
    ∃ n, ∀ m, n ≤ m → (fun a16 => averaged k { c with a16 := a16 } v)^[m] a = 16 * v := by
  have hstep (a : Nat) (ha : 16 * v ≤ a) := averaged_from_above (k := k) (c := { c with a16 := a }) h ha
  have hstay : averaged k { c with a16 := 16 * v } v = 16 * v :=
    averaged_near_below h le_rfl (Nat.lt_add_of_pos_right (Nat.two_pow_pos k))
  obtain ⟨n, b, hb, hrest, hall⟩ := iterate_comes_to_rest (16 * v ≤ ·) id (fun a ha => (hstep a ha).1)
    (fun a ha => (hstep a ha).2.imp_left fun heq => by obtain rfl : a = 16 * v := heq; exact hstay) a ha
  obtain rfl : b = 16 * v := (hstep b hb).2.resolve_right hrest.not_lt
  exact ⟨n, hall⟩

/-- From below, a16 comes to rest at most 16 v and less than 2^k short of it (R11). -/
theorem averaged_iterate_from_below {k v a : Nat} {c : Channel} (h : c.seen = true) (ha : a ≤ 16 * v) :
    ∃ n b, b ≤ 16 * v ∧ 16 * v < b + 2 ^ k ∧
      ∀ m, n ≤ m → (fun a16 => averaged k { c with a16 := a16 } v)^[m] a = b := by
  have hstep (a : Nat) (ha : a ≤ 16 * v) := averaged_from_below (k := k) (c := { c with a16 := a }) h ha
  obtain ⟨n, b, hb, hrest, hall⟩ := iterate_comes_to_rest (· ≤ 16 * v) (16 * v - ·) (fun a ha => (hstep a ha).1)
    (fun a ha => by
      obtain ⟨hle, hnear | hmove⟩ := hstep a ha
      · exact .inl (averaged_near_below (c := { c with a16 := a }) h ha hnear)
      · exact .inr (Nat.sub_lt_sub_left (hmove.trans_le hle) hmove)) a ha
  exact ⟨n, b, hb, (hstep b hb).2.resolve_right hrest.not_gt, hall⟩

/-! ## The computed grade -/

theorem Grade.ofCode_code (g : Grade) : Grade.ofCode (Grade.code g) = g := by
  cases g <;> rfl

theorem Grade.code_injective : Function.Injective Grade.code :=
  Function.LeftInverse.injective Grade.ofCode_code

/-- What `highest` answers is admitted, but for CLEAR, which it answers where nothing is. -/
theorem highest_admitted (p : Grade → Bool) : highest p = .clear ∨ p (highest p) = true := by
  unfold highest
  split_ifs with h3 h2 h1
  · exact .inr h3
  · exact .inr h2
  · exact .inr h1
  · exact .inl rfl

/-- No admitted grade lies above `highest`. -/
theorem code_le_highest {p : Grade → Bool} {g : Grade} (h : g = .clear ∨ p g = true) :
    Grade.code g ≤ Grade.code (highest p) := by
  unfold highest
  cases g with
  | clear => exact Nat.zero_le _
  | notice =>
    have hp : p .notice = true := by simpa using h
    rw [if_pos hp]
    split_ifs <;> decide
  | alarm =>
    have hp : p .alarm = true := by simpa using h
    rw [if_pos hp]
    split_ifs <;> decide
  | trip =>
    have hp : p .trip = true := by simpa using h
    rw [if_pos hp]

/-- The average reaches the grade; CLEAR is always reached (R12 step 1, R13). -/
def GradeReached (falling : Bool) (t : Thresholds) (avg : Nat) (g : Grade) : Prop :=
  g = .clear ∨ if falling then avg ≤ threshold t g else threshold t g ≤ avg

/-- The average has not gone more than the hysteresis past the grade; CLEAR is always kept (R12 step 2, R13). -/
def GradeKept (falling : Bool) (t : Thresholds) (avg : Nat) (g : Grade) : Prop :=
  g = .clear ∨ if falling then avg ≤ min 65535 (threshold t g + t.hyst) else threshold t g - t.hyst ≤ avg

section
variable {falling : Bool} {t : Thresholds} {avg : Nat} {before : Grade}

theorem gradeReached_iff {g : Grade} : GradeReached falling t avg g ↔ g = .clear ∨ reaches falling t avg g = true := by
  cases falling <;> simp [GradeReached, reaches]

theorem gradeKept_iff {g : Grade} : GradeKept falling t avg g ↔ g = .clear ∨ keeps falling t avg g = true := by
  cases falling <;> simp [GradeKept, keeps]

/-- With no hysteresis a grade is kept exactly as long as it is reached. -/
theorem gradeKept_iff_reached {g : Grade} (hhyst : t.hyst = 0) (hcap : falling = true → avg ≤ 65535) :
    GradeKept falling t avg g ↔ GradeReached falling t avg g := by
  cases falling
  · simp [GradeKept, GradeReached, hhyst]
  · simp [GradeKept, GradeReached, hhyst, hcap]

theorem gradeReached_highest : GradeReached falling t avg (highest (reaches falling t avg)) :=
  gradeReached_iff.mpr (highest_admitted _)

theorem GradeReached.code_le {g : Grade} (h : GradeReached falling t avg g) :
    Grade.code g ≤ Grade.code (highest (reaches falling t avg)) :=
  code_le_highest (gradeReached_iff.mp h)

/-- R12 step 1: where the highest grade reached lies above the one before, it is taken. -/
theorem computedGrade_of_rise (h : Grade.code before < Grade.code (highest (reaches falling t avg))) :
    computedGrade falling t avg before = highest (reaches falling t avg) := if_pos h

/-- R12 step 2: otherwise the highest grade, up to the one before, that is kept. -/
theorem computedGrade_of_no_rise (h : ¬Grade.code before < Grade.code (highest (reaches falling t avg))) :
    computedGrade falling t avg before =
      highest (fun g => decide (Grade.code g ≤ Grade.code before) && keeps falling t avg g) := if_neg h

/-- Either the highest grade reached is taken, or no grade above the one before is reached (the two steps of R12). -/
theorem computedGrade_rise_or_not (falling : Bool) (t : Thresholds) (avg : Nat) (before : Grade) :
    (Grade.code before < Grade.code (computedGrade falling t avg before)
        ∧ GradeReached falling t avg (computedGrade falling t avg before)
        ∧ ∀ g, GradeReached falling t avg g → Grade.code g ≤ Grade.code (computedGrade falling t avg before))
      ∨ ∀ g, GradeReached falling t avg g → Grade.code g ≤ Grade.code before := by
  by_cases h : Grade.code before < Grade.code (highest (reaches falling t avg))
  · rw [computedGrade_of_rise h]
    exact .inl ⟨h, gradeReached_highest, fun g hg => hg.code_le⟩
  · exact .inr fun g hg => hg.code_le.trans (not_lt.mp h)

/-- A grade reached above the one before, none above it being reached, is taken at once. -/
theorem computedGrade_eq_of_reached {up : Grade} (hlt : Grade.code before < Grade.code up)
    (hup : GradeReached falling t avg up) (hmax : ∀ g, GradeReached falling t avg g → Grade.code g ≤ Grade.code up) :
    computedGrade falling t avg before = up := by
  rw [computedGrade_of_rise (hlt.trans_le hup.code_le)]
  exact Grade.code_injective (le_antisymm (hmax _ gradeReached_highest) hup.code_le)

/-- With nothing reached above the grade before, the new grade is the highest one kept up to the one before. -/
theorem computedGrade_of_none_above (hmax : ∀ g, GradeReached falling t avg g → Grade.code g ≤ Grade.code before) :
    GradeKept falling t avg (computedGrade falling t avg before)
      ∧ Grade.code (computedGrade falling t avg before) ≤ Grade.code before
      ∧ ∀ g, Grade.code g ≤ Grade.code before → GradeKept falling t avg g →
          Grade.code g ≤ Grade.code (computedGrade falling t avg before) := by
  rw [computedGrade_of_no_rise (not_lt.mpr (hmax _ gradeReached_highest))]
  have hgreatest (g : Grade) (hle : Grade.code g ≤ Grade.code before) (hg : GradeKept falling t avg g) :
      Grade.code g ≤ Grade.code
        (highest (fun g => decide (Grade.code g ≤ Grade.code before) && keeps falling t avg g)) :=
    code_le_highest ((gradeKept_iff.mp hg).imp_right fun hk => by simp [hle, hk])
  rcases highest_admitted (fun g => decide (Grade.code g ≤ Grade.code before) && keeps falling t avg g) with hclear | hadm
  · rw [hclear] at hgreatest ⊢
    exact ⟨.inl rfl, Nat.zero_le _, hgreatest⟩
  · obtain ⟨hle, hkeeps⟩ := by simpa only [Bool.and_eq_true, decide_eq_true_eq] using hadm
    exact ⟨gradeKept_iff.mpr (.inr hkeeps), hle, hgreatest⟩

/-- With no hysteresis the new grade is the highest one reached. -/
theorem computedGrade_without_hysteresis (hhyst : t.hyst = 0) (hcap : falling = true → avg ≤ 65535) :
    GradeReached falling t avg (computedGrade falling t avg before)
      ∧ ∀ g, GradeReached falling t avg g → Grade.code g ≤ Grade.code (computedGrade falling t avg before) := by
  rcases computedGrade_rise_or_not falling t avg before with ⟨-, hreached, hmax⟩ | hnone
  · exact ⟨hreached, hmax⟩
  · obtain ⟨hkept, -, hgreatest⟩ := computedGrade_of_none_above hnone
    exact ⟨(gradeKept_iff_reached hhyst hcap).mp hkept,
      fun g hg => hgreatest g (hnone g hg) ((gradeKept_iff_reached hhyst hcap).mpr hg)⟩

/-- A grade that is kept does not fall. -/
theorem computedGrade_of_kept (hkept : GradeKept falling t avg before) :
    Grade.code before ≤ Grade.code (computedGrade falling t avg before) := by
  rcases computedGrade_rise_or_not falling t avg before with ⟨hlt, -⟩ | hnone
  · exact hlt.le
  · exact (computedGrade_of_none_above hnone).2.2 before le_rfl hkept

/-- A FALLING channel's grade whose threshold plus hysteresis reaches the cap of 65,535 is kept (R13). -/
theorem gradeKept_of_cap (hfalling : falling = true) (havg : avg ≤ 65535) (hcap : 65535 ≤ threshold t before + t.hyst) :
    GradeKept falling t avg before := by
  subst hfalling
  exact .inr (by simp only [if_true]; omega)

end

/-! ## The statements -/

/-- Settles O16: a raw air write whose verdict is DUPLICATE or NOT_USED is no event, and the verdict is DUPLICATE exactly at a
repeated sequence. -/
theorem repeatedReadingsChangeNothing : Obligations.RepeatedReadingsChangeNothing := by
  intro addr data o s hrun hfull hat
  refine ⟨fun i hi hseq => ?repeated, fun i hi hseq => ?first, fun hnone => ?unused⟩
  case repeated =>
    have hv := (rawVerdict_eq_duplicate hi).mpr hseq
    exact ⟨_, exec_rawAirWrite hrun hfull hat, takeWrite_rawAir_of_notUsed_or_duplicate hv (.inr rfl)⟩
  case first =>
    rw [Ne, rawVerdict_eq_duplicate hi, hseq]
    exact nofun
  case unused =>
    exact ⟨_, exec_rawAirWrite hrun hfull hat, takeWrite_rawAir_of_notUsed_or_duplicate (rawVerdict_of_no_channel hnone) (.inl rfl)⟩

/-- Settles O19: the distance to 16 v falls at each reading until a16 rests, and a16 rests only at 16 v or less than 2^k below it. -/
theorem averageSettles : Obligations.AverageSettles := by
  intro k v a c hk hseen
  refine ⟨averaged_iterate_from_above hseen, fun ha => ?below,
    fun ha hnear => .inl (averaged_near_below (c := { c with a16 := a }) hseen ha hnear)⟩
  obtain ⟨n, b, hle, hnear, hall⟩ := averaged_iterate_from_below (k := k) hseen ha
  refine ⟨n, b, hall, by omega, hle, fun hk3 => ?_, fun _ hb => ?_, fun hk4 hb => ?_⟩
  · have hpow : 2 ^ k ≤ 2 ^ 3 := Nat.pow_le_pow_right (by decide) hk3
    omega
  · omega
  · subst hk4
    omega

/-- Settles O20: the two steps of R12, with the comparisons of R13 for a FALLING channel. -/
theorem computedGradeFollowsThresholds : Obligations.ComputedGradeFollowsThresholds := by
  intro falling t avg before
  exact ⟨fun up => computedGrade_eq_of_reached, computedGrade_of_none_above, computedGrade_without_hysteresis,
    fun hfalling havg _ hcap => computedGrade_of_kept (gradeKept_of_cap hfalling havg hcap)⟩

end Sys2Proof.Machine
end

section
/-! PROOFS. Transmit rings and on-air order (chapter 5): the decision on a modem read of transmit word 0 (R83), and the BAD_FRAME
that its first READY case records (R172). -/

namespace Sys2Proof.Machine

open Sys2Proof.Config

/-! ## What the decision judges -/

/-- `findIndex` finds an index exactly where some entry of the table satisfies `p`. -/
theorem findIndex_isSome {α : Type} {n : Nat} (v : Vector α n) (p : α → Bool) :
    (findIndex v p).isSome = v.toList.any p := by
  rw [Bool.eq_iff_iff, ← Option.ne_none_iff_isSome, Ne, findIndex_none, List.any_eq_true]
  simp [Vector.mem_iff_getElem, Fin.exists_iff]

/-- In RUN the scan is pending until its cursor has passed the 64 slots (R74). -/
theorem scanPending_eq_decide {s : State} (hrun : s.run = true) : scanPending s = decide (s.path.scanCursor < 64) := by
  simp [scanPending, hrun]

theorem isHead_iff {s : State} {n : Fin 64} : isHead s n = true ↔ s.ring.rings[ringOf s n.val].next = some n := by
  simp [isHead]

/-- A frame record is live where the slot has one and it is not withdrawn (R83, case 6c). -/
theorem liveRecord_iff {s : State} {n : Fin 64} :
    liveRecord s n = true ↔
      n.val < 16 ∧ ∃ f, s.ring.records[Fin.ofNat 16 n.val] = some f ∧ f.withdrawn = false := by
  unfold liveRecord
  split_ifs with hn
  · cases hrec : s.ring.records[Fin.ofNat 16 n.val] <;> simp [hn]
  · simp [hn]

/-- A higher ring holds the lower ones where it has a head and that head is READY (R83, case 6e). -/
theorem higherReady_iff {s : State} {r : Fin 4} :
    higherReady s r = true ↔
      ∃ k : Fin 4, k.val < r.val ∧ ∃ m, s.ring.rings[k].next = some m ∧ s.ring.shadows[m].state = .ready := by
  unfold higherReady
  rw [List.any_eq_true]
  refine exists_congr fun k => ?_
  cases hnext : s.ring.rings[k].next <;> simp_all [headOf]

/-! ## The answer in each case (R83) -/

section
variable {s : State} {n : Fin 64}

/-- Case 1. -/
theorem modemAnswer_of_scanPending (hscan : scanPending s = true) : modemAnswer s n = .hold := if_pos hscan

/-- Case 2; case 1 gives the same answer. -/
theorem modemAnswer_of_not_head (hhead : ¬isHead s n = true) : modemAnswer s n = .hold := by
  simp [modemAnswer, hhead]

/-- Case 3. -/
theorem modemAnswer_of_empty (hscan : scanPending s = false) (hhead : isHead s n = true)
    (hstate : s.ring.shadows[n].state = .empty) : modemAnswer s n = .empty := by
  simp_all [modemAnswer]

/-- Case 4. -/
theorem modemAnswer_of_unknown (hscan : scanPending s = false) (hhead : isHead s n = true)
    (hstate : s.ring.shadows[n].state = .unknown) : modemAnswer s n = .hold := by
  simp_all [modemAnswer]

/-- Case 5. -/
theorem modemAnswer_of_inFlight (hscan : scanPending s = false) (hhead : isHead s n = true)
    (hstate : s.ring.shadows[n].state = .inFlight) : modemAnswer s n = .again := by
  simp_all [modemAnswer]

/-- Case 6. -/
theorem modemAnswer_of_ready (hscan : scanPending s = false) (hhead : isHead s n = true)
    (hstate : s.ring.shadows[n].state = .ready) : modemAnswer s n = readyAnswer s n := by
  simp_all [modemAnswer]

/-- Case 6a. -/
theorem readyAnswer_of_length_zero (hlen : s.ring.shadows[n].length = 0) : readyAnswer s n = .discard true := if_pos hlen

/-- Case 6b. -/
theorem readyAnswer_of_call_gone (hlen : s.ring.shadows[n].length ≠ 0) (hring : ringOf s n.val ≠ 0)
    (htag : s.ring.shadows[n].tag ≠ 0) (hgone : (callPosition s s.ring.shadows[n].tag).isSome = false) :
    readyAnswer s n = .discard false :=
  (if_neg hlen).trans (if_pos ⟨hring, htag, by rw [← Option.not_isSome, hgone]; rfl⟩)

/-- Case 6c. -/
theorem readyAnswer_of_record_gone (hlen : s.ring.shadows[n].length ≠ 0) (hring : ringOf s n.val = 0)
    (hgone : liveRecord s n = false) : readyAnswer s n = .discard false :=
  (if_neg hlen).trans ((if_neg fun ⟨hother, _⟩ => hother hring).trans (if_pos ⟨hring, by rw [hgone]; rfl⟩))

/-- A READY head passes cases 6b and 6c: outside the PART ring its tag is 0 or names a call, inside it its frame record is live. -/
def Admitted (s : State) (n : Fin 64) : Prop :=
  (ringOf s n.val ≠ 0 → s.ring.shadows[n].tag ≠ 0 → (callPosition s s.ring.shadows[n].tag).isSome = true)
    ∧ (ringOf s n.val = 0 → liveRecord s n = true)

/-- An admitted frame is judged by the level and by the heads of the higher rings alone (R83, cases 6d to 6f). -/
theorem readyAnswer_of_admitted (hlen : s.ring.shadows[n].length ≠ 0) (hadm : Admitted s n) :
    readyAnswer s n =
      if (ringOf s n.val = 3 ∧ s.level.level = .evacuate) ∨ higherReady s (ringOf s n.val) = true then .hold
      else .present := by
  obtain ⟨hcall, hrecord⟩ := hadm
  have hnot6b : ¬(ringOf s n.val ≠ 0 ∧ s.ring.shadows[n].tag ≠ 0
      ∧ (callPosition s s.ring.shadows[n].tag).isNone = true) := by
    rintro ⟨hring, htag, hnone⟩
    have hsome := hcall hring htag
    rw [← Option.not_isNone, hnone] at hsome
    cases hsome
  have hnot6c : ¬(ringOf s n.val = 0 ∧ (!liveRecord s n) = true) := by
    rintro ⟨hring, hdead⟩
    rw [hrecord hring] at hdead
    cases hdead
  unfold readyAnswer
  dsimp only
  rw [if_neg hlen, if_neg hnot6b, if_neg hnot6c, ite_or]

end

/-! ## The fault that a read of length 0 records -/

/-- What the action of an event has made of the areas, the end of the event leaves as it is. -/
theorem event_sameBut_acted (f : State → State) (s : State) : SameBut [] (f (beginEvent s)) (event f s) := by
  unfold event
  dsimp only
  refine (settle_sameBut settleBound (eventBase (beginEvent s) (f (beginEvent s))) _).trans ?_
  refine SameBut.trans (SameBut.trans ?_ (levelEvents_sameBut 2 _)) (driveLines_sameBut _)
  split_ifs
  · exact sweepPut_sameBut _
  · exact SameBut.refl [] _

/-- No counter but those of the three faults that the end of any event may record differs. -/
theorem SameBut.counter_eq {l : List Area} {s t : State} (h : SameBut l s t) (hl : .fault ∉ l) {k : Fin 12}
    (hk : k ≠ 6 ∧ k ≠ 7 ∧ k ≠ 11) : t.fault.counters[k] = s.fault.counters[k] := by
  obtain ⟨-, -, -, -, -, -, -, -, -, -, -, hfault, -⟩ := h
  obtain ⟨-, -, hcounters⟩ := hfault hl
  obtain ⟨h6, h7, h11⟩ := hk
  exact hcounters k h6 h7 h11

/-- In RUN a fault is counted first; its escalation and its report words change no unit's area further (R172). -/
theorem recordFault_counted (k : FaultKind) (d : FaultId) {s : State} (hrun : s.run = true) :
    Within [] (countFault k d s) (recordFault k d s) := by
  rw [recordFault, if_neg (by simp [hrun])]
  refine Within.andThen ?_ (postFault_within _ _)
  split
  · exact joinAlert_quiet _ _ rfl
  · exact localCause_within _ _ _ _
  · exact Within.refl [] _
  · exact Within.refl [] _

/-- A recorded fault raises its own counter once. -/
theorem recordFault_counter (k : FaultKind) (d : FaultId) {s : State} (hrun : s.run = true)
    (hk : FaultKind.index k ≠ 6 ∧ FaultKind.index k ≠ 7 ∧ FaultKind.index k ≠ 11) :
    (recordFault k d s).fault.counters[FaultKind.index k] = saturate countTop s.fault.counters[FaultKind.index k] := by
  rw [(recordFault_counted k d hrun).1.counter_eq (by simp) hk]
  exact modifyAt_self s.fault.counters (FaultKind.index k) (saturate countTop)

/-- MODEM_TX_READ in RUN on word 0 of slot `n` is an event of the ring unit, which decides it (R65, R83). -/
theorem exec_modemTxRead {addr : Addr} {n : Fin 64} {s : State} (hrun : s.run = true)
    (hfull : fullWordAccess addr 0xF = true) (hat : regionAt s (wordBase addr.toNat) = some (.txSlots, 16 * n.val)) :
    exec (.modemTxRead addr) s = .next (event (modemRead n addr (memWord s.mem (wordBase addr.toNat))) s) := by
  have harm : exec (.modemTxRead addr) s = .next (serveRead (fullAccess .modem addr 0) s) := rfl
  have hat' : regionAt s (fullAccess .modem addr 0).wordAddr = some (.txSlots, 16 * n.val) := hat
  have hfull' : (fullAccess .modem addr 0).isFull = true := hfull
  have hslot : Fin.ofNat 64 (16 * n.val / 16) = n := Fin.ext (by simp)
  have hinit : (fullAccess .modem addr 0).init = .modem := rfl
  rw [harm]
  simp only [serveRead, hrun, hat', hfull', hinit, hslot, Nat.mul_mod_right]
  rfl

/-- A read answered by case 6a counts one BAD_FRAME. -/
theorem modemRead_counter_of_badFrame {n : Fin 64} (addr : Addr) (w : Word) {s : State} (hrun : s.run = true)
    (hans : modemAnswer s n = .discard true) :
    (modemRead n addr w s).fault.counters[FaultKind.index .badFrame]
      = saturate countTop s.fault.counters[FaultKind.index .badFrame] := by
  simp only [modemRead, hans]
  exact recordFault_counter .badFrame _ hrun (by decide)

/-! ## The statement -/

/-- Settles O27: the cases of R83 are those of `modemAnswer`, each excluding the ones before it. -/
theorem modemReadDecision : Obligations.ModemReadDecision := by
  refine ⟨fun n s hrun => ?_, fun addr n s hrun hfull hat hans => ?_⟩
  · intro h r callHeld
    have hheld : (callPosition s h.tag).isSome = callHeld := findIndex_isSome _ _
    rw [← hheld]
    refine ⟨fun hcur => modemAnswer_of_scanPending (by simpa [scanPending_eq_decide hrun] using hcur),
      fun _ hnext => modemAnswer_of_not_head (mt isHead_iff.mp hnext), fun hcur hnext => ?_⟩
    have hscan : scanPending s = false := by simpa [scanPending_eq_decide hrun] using hcur
    have hhead : isHead s n = true := isHead_iff.mpr hnext
    refine ⟨modemAnswer_of_empty hscan hhead, modemAnswer_of_unknown hscan hhead, modemAnswer_of_inFlight hscan hhead,
      fun hready hlen => ?_, fun hready hlen => ?_⟩
    all_goals rw [modemAnswer_of_ready hscan hhead hready]
    · exact readyAnswer_of_length_zero hlen
    · refine ⟨readyAnswer_of_call_gone hlen, fun hring _ hrecords => ?_, fun hpass => ?_⟩
      · refine readyAnswer_of_record_gone hlen hring (Bool.eq_false_iff.mpr fun hlive => ?_)
        obtain ⟨-, f, hf, hkept⟩ := liveRecord_iff.mp hlive
        exact Bool.false_ne_true (hkept.symm.trans (hrecords f hf))
      · have hadm : Admitted s n := by
          rcases hpass with ⟨hring, hcall⟩ | ⟨hring, hrecord⟩
          · exact ⟨fun _ htag => hcall.resolve_left htag, fun hpart => absurd hpart hring⟩
          · exact ⟨fun hother => absurd hring hother, fun _ => liveRecord_iff.mpr hrecord⟩
        rw [readyAnswer_of_admitted hlen hadm]
        refine ⟨fun hdata hevac => if_pos (.inl ⟨hdata, hevac⟩), fun _ hhigher => if_pos (.inr (higherReady_iff.mpr hhigher)),
          fun hlevel hnone => if_neg ?_⟩
        rintro (hdata | hhigher)
        · exact hlevel hdata
        · obtain ⟨k, hk, m, hm, hmready⟩ := higherReady_iff.mp hhigher
          exact hnone k hk m hm hmready
  · refine ⟨_, exec_modemTxRead hrun hfull hat, ?_⟩
    have hbegun : modemAnswer (beginEvent s) n = .discard true := hans
    exact ((event_sameBut_acted _ s).counter_eq (by simp) (k := 5) (by decide)).trans
      (modemRead_counter_of_badFrame addr _ hrun hbegun)

end Sys2Proof.Machine
end

section
/-! PROOFS. What the ring, frame, level and fault units' actions leave as they were: the areas that each is within, beside those of
Laws/Units.lean. -/

set_option Elab.async false

namespace Sys2Proof.Machine

open Sys2Proof.Config

/-! ## SameBut of wider areas -/

/-- A change within some areas, seen as one within more. -/
theorem SameBut.wide {l k : List Area} {s t : State} (h : SameBut l s t) (hs : ∀ a ∈ l, a ∈ k := by decide) : SameBut k s t :=
  h.mono hs

/-- A change within `k` followed by one within fewer areas. -/
theorem SameBut.next {l k : List Area} {s u t : State} (h : SameBut k s u) (h' : SameBut l u t)
    (hs : ∀ a ∈ l, a ∈ k := by decide) : SameBut k s t := h.trans (h'.mono hs)

/-! ## The trip and level units -/

theorem resetCell_within (i : Fin 4) (s : State) : Within [.trip, .level] s (resetCell i s) :=
  (((changeCell_within i _ s).wide.next (cellStateRecord_within _ _ _ _)).next (postCell_within _ _)).next
    (leaveAlert_within _ _)

theorem endEvacuation_within (s : State) : Within [.level] s (endEvacuation s) := by
  unfold endEvacuation
  split
  · refine Within.next ?_ (reportChanged_within _ _)
    simp [Within, SameBut, SameBase, SameLevel, SameRoad, SameFault, SamePath]
  · exact Within.refl _ s

theorem takeEvacuate_within (hop : BitVec 4) (node : NodeId) (seq : BitVec 8) (reason : BitVec 4) (s : State) :
    Within [.level] s (takeEvacuate hop node seq reason s) := by
  have raised (c : Option Cause) : Within [.level] s { s with level := { s.level with cause := c } } := by
    simp [Within, SameBut, SameBase, SameLevel, SameRoad, SameFault, SamePath]
  unfold takeEvacuate
  dsimp only
  split
  · exact Within.refl _ s
  · split
    · exact Within.refl _ s
    · split
      · split
        · split <;> split
          · exact (raised _).next (reportChanged_within _ _)
          · exact Within.refl _ s
          · exact (raised _).next (reportChanged_within _ _)
          · exact Within.refl _ s
        · exact (remoteCause_within _ _ _ _ s).wide
      · exact (remoteCause_within _ _ _ _ s).wide

theorem takeAirAlarm_within (origin : NodeId) (s : State) : Within [.level] s (takeAirAlarm origin s) := by
  unfold takeAirAlarm
  split
  · exact Within.refl _ s
  · split
    · exact Within.refl _ s
    · refine Within.next ?_ (joinAlert_within _ _)
      refine Within.next ?_ (reportChanged_within _ _)
      simp [Within, SameBut, SameBase, SameLevel, SameRoad, SameFault, SamePath]

theorem remoteExpiry_within (s : State) : Within [.level] s (remoteExpiry s) := by
  refine Within.next ?_ (leaveAlert_within _ _)
  refine Within.next ?_ (reportChanged_within _ _)
  simp [Within, SameBut, SameBase, SameLevel, SameRoad, SameFault, SamePath]

theorem repeatRelays_within (s : State) : Within [] s (repeatRelays s) :=
  foldl_within (fun _ u => requestFrame_within _ u) _ s

theorem repeatExpiry_within (s : State) : Within [.level] s (repeatExpiry s) := by
  unfold repeatExpiry
  dsimp only
  refine Within.next ?_ (repeatRelays_within _)
  have expired : Within [.level] s
      { s with level := { s.level with repeatTimer := PeriodTimer.expire s.level.repeatTimer } } := by
    simp [Within, SameBut, SameBase, SameLevel, SameRoad, SameFault, SamePath]
  split
  · exact expired.next (requestEvacuate_within _)
  · exact expired

/-! ## The air unit -/

theorem eachChannel_within (f : ChannelSet → Channel → Channel) (s : State) : Within [.air] s (eachChannel f s) :=
  forEach_within (fun _ u => changeChannel_within _ _ u) s

theorem rateExpiry_within (s : State) : Within [.air, .trip, .level, .refuge, .fault] s (rateExpiry s) := by
  have handed (t : State) : Within [.air, .fault] t (forEach 24 (fun i t => handOn i s.channels[i] t) t) :=
    forEach_within (fun i u => (handOn_within i _ u).wide) t
  have expired (t : State) (r : PeriodTimer) : Within [.air, .fault] t { t with rate := r } := by
    simp [Within, SameBut, SameBase, SameLevel, SameRoad, SameFault, SamePath]
  unfold rateExpiry
  dsimp only
  refine Within.next ?_ (airReaders_within _ _ _)
  refine Within.wide (l := [.air, .fault]) ?_
  refine Within.trans (Within.trans ?_ (handed _)) (expired _ _)
  split
  · exact ((eachChannel_within _ s).trans (eachChannel_within _ _)).wide
  · exact (eachChannel_within _ s).wide

/-! ## The refuge unit -/

theorem takeStatus_within (c : Fin 4) (a : AirlockReport) (o2 co n : BitVec 16) (s : State) :
    Within [.air, .trip, .level, .refuge, .fault] s (takeStatus c a o2 co n s) := by
  unfold takeStatus
  dsimp only
  refine Within.next ?_ (forEach_within (l := [.refuge, .level]) (fun k u => deriveAlarm_within k u) _)
  refine Within.next ?_ (deriveMismatch_within _ _)
  refine Within.next ?_ (reportChamber_within _ _ _ _)
  refine Within.next ?_ (airReaders_within _ _ _)
  exact (chamberValue_within _ _ _ s).wide.next (chamberValue_within _ _ _ _)

/-! ## The roadway unit -/

theorem truckForgetExpiry_within (p : Fin 32) (s : State) : Within [.road] s (truckForgetExpiry p s) := by
  unfold truckForgetExpiry
  split
  · exact Within.refl _ s
  · exact setTruck_within _ _ s

/-! ## The frame unit -/

theorem clearHandover_within (f : Frame) (s : State) : Within [.frame] s (clearHandover f s) := by
  unfold clearHandover
  split
  · simp [Within, SameBut, SameBase, SameLevel, SameRoad, SameFault, SamePath]
  · exact Within.refl _ s

theorem ignoreFrame_within (s : State) : Within [.frame] s (ignoreFrame s) :=
  (changeFrame_within _ s).next (reportChanged_within _ _)

theorem dispatchFrame_within (i : Fin 32) (h : Header) (f : Frame) (s : State) :
    Within [.frame] s (dispatchFrame i h f s) :=
  (changeFrame_within _ s).next (reportChanged_within _ _)

theorem parseFrame_within (i : Fin 32) (h : Header) (s : State) : Within [.frame, .fault] s (parseFrame i h s) := by
  unfold parseFrame
  split
  · exact (ignoreFrame_within s).wide
  · split
    · exact (ignoreFrame_within s).wide
    · exact (recordFault_within _ _ s).wide
    · exact (ignoreFrame_within s).wide
    · exact (dispatchFrame_within _ _ _ s).wide

theorem judgeCompletion_within (i : Fin 32) (addr : Addr) (w : Word) (s : State) :
    Within [.frame, .fault] s (judgeCompletion i addr w s) := by
  unfold judgeCompletion
  split
  · exact (changeFrame_within _ s).wide.next (reportChanged_within _ _)
  · split
    · exact (recordFault_within _ _ s).wide
    · split
      · exact (recordFault_within _ _ s).wide
      · split
        · exact (recordFault_within _ _ s).wide
        · exact parseFrame_within _ _ s

theorem completion_within (i : Fin 32) (addr : Addr) (w : Word) (s : State) :
    Within [.frame, .fault] s (completion i addr w s) := by
  unfold completion
  split
  · exact Within.refl _ s
  · exact (judgeCompletion_within _ _ _ s).next (changeFrame_within _ _)

/-! ## The fault and event unit -/

theorem takeConsume_within (c : BitVec 16) (s : State) : Within [.fault] s (takeConsume c s) := by
  refine Within.next ?_ (reportChanged_within _ _)
  simp [Within, SameBut, SameBase, SameLevel, SameRoad, SameFault, SamePath]

theorem release_within (shown : Nat) (s : State) : Within [.level, .fault] s (release shown s) := by
  unfold release
  dsimp only
  split
  · refine Within.next ?_ (postAlways_within _ _)
    refine Within.next ?_ (addRecord_within _ _ _ _)
    refine Within.next ?_ (leaveAlert_within _ _)
    simp [Within, SameBut, SameBase, SameLevel, SameRoad, SameFault, SamePath]
  · exact Within.refl _ s

theorem mirrorMismatch_within (offset : Nat) (w : Word) (s : State) : Within [.fault] s (mirrorMismatch offset w s) :=
  (postAlways_within _ s).wide.next (recordFault_within _ _ _)

theorem adjustmentRecord_within (arg : Nat) (fields : List (Nat × Nat)) (s : State) :
    Within [] s (adjustmentRecord arg fields s) := addRecord_within _ _ _ s

/-! ## The ring unit -/

/-- `t` follows from `s` by an action on the shadows, the ring records or the fill index, and by nothing else that the end of an event
does: memory, the own-write queue and the lines are as they were, and the fill index stays or is at slot 0. -/
def Beside (l : List Area) (s t : State) : Prop :=
  SameBut l s t ∧ t.mem = s.mem ∧ t.path.queue = s.path.queue ∧ t.path.followUp = s.path.followUp
    ∧ t.path.sweep = s.path.sweep ∧ t.waitCycles = s.waitCycles ∧ t.drive = s.drive ∧ t.path.shown = s.path.shown
    ∧ (t.ring.fill = s.ring.fill ∨ t.ring.fill = 0)

theorem Within.beside {l : List Area} {s t : State} (h : Within l s t) : Beside l s t := by
  obtain ⟨h0, h1, h2, h3, h4, h5, h6, -, h8, h9⟩ := h
  exact ⟨h0, h1, h2, h3, h4, h5, h6, h9, .inl h8⟩

theorem Beside.refl (l : List Area) (s : State) : Beside l s s := (Within.refl l s).beside

theorem Beside.trans {l : List Area} {s u t : State} (h : Beside l s u) (k : Beside l u t) : Beside l s t := by
  obtain ⟨h0, h1, h2, h3, h4, h5, h6, h7, h8⟩ := h
  obtain ⟨k0, k1, k2, k3, k4, k5, k6, k7, k8⟩ := k
  refine ⟨h0.trans k0, k1.trans h1, k2.trans h2, k3.trans h3, k4.trans h4, k5.trans h5, k6.trans h6, k7.trans h7, ?_⟩
  exact k8.elim (fun k => h8.imp k.trans k.trans) .inr

theorem Beside.mono {l k : List Area} {s t : State} (hs : ∀ a ∈ l, a ∈ k) (h : Beside l s t) : Beside k s t :=
  ⟨h.1.mono hs, h.2⟩

theorem Beside.wide {l k : List Area} {s t : State} (h : Beside l s t) (hs : ∀ a ∈ l, a ∈ k := by decide) : Beside k s t :=
  h.mono hs

theorem Beside.next {l k : List Area} {s u t : State} (h : Beside k s u) (h' : Beside l u t)
    (hs : ∀ a ∈ l, a ∈ k := by decide) : Beside k s t := h.trans (h'.mono hs)

/-- A change of the ring unit that keeps the ring records and the departed slots. -/
theorem setRing_beside {r : RingUnit} {s : State} (h : r.rings = s.ring.rings) (hd : r.departed = s.ring.departed)
    (hf : r.fill = s.ring.fill ∨ r.fill = 0) : Beside [] s { s with ring := r } :=
  ⟨setRing_sameBut h hd, rfl, rfl, rfl, rfl, rfl, rfl, rfl, hf⟩

theorem changeShadow_beside (n : Fin 64) (f : Shadow → Shadow) (s : State) : Beside [] s (changeShadow n f s) :=
  (setRing_beside (r := { s.ring with shadows := modifyAt s.ring.shadows n f }) rfl rfl (.inl rfl)).trans (reportChanged_within _ _).beside

theorem changeRing_beside (r : Fin 4) (f : RingRecord → RingRecord) (s : State) : Beside [.ring] s (changeRing r f s) := by
  simp [Beside, SameBut, SameBase, SameLevel, SameRoad, SameFault, SamePath]

theorem countRing_beside (n : Fin 64) (f : RingRecord → RingRecord) (s : State) : Beside [.ring] s (countRing n f s) :=
  (changeRing_beside _ f s).next (reportChanged_within _ _).beside

theorem showSlot_beside (n : Fin 64) (v : Shown) (s : State) : Beside [.ring] s (showSlot n v s) := by
  refine Beside.next ?_ (changeShadow_beside _ _ _)
  simp [Beside, SameBut, SameBase, SameLevel, SameRoad, SameFault, SamePath]

theorem applyAnswer_beside (n : Fin 64) (addr : Addr) (w : Word) (a : Answer) (s : State) :
    Beside [.ring, .fault] s (applyAnswer n addr w a s) := by
  unfold applyAnswer
  split
  · exact (countRing_beside _ _ s).wide
  · exact Beside.refl _ s
  · exact Beside.refl _ s
  · exact ((showSlot_beside _ _ s).trans (countRing_beside _ _ _)).wide
  · dsimp only
    split
    · exact ((showSlot_beside _ _ s).trans (countRing_beside _ _ _)).wide.next (recordFault_within _ _ _).beside
    · exact ((showSlot_beside _ _ s).trans (countRing_beside _ _ _)).wide

theorem modemRead_beside (n : Fin 64) (addr : Addr) (w : Word) (s : State) :
    Beside [.readData, .ring, .fault] s (modemRead n addr w s) := by
  refine Beside.next ?_ (applyAnswer_beside _ _ _ _ _)
  simp [Beside, SameBut, SameBase, SameLevel, SameRoad, SameFault, SamePath]

theorem freeRecord_beside (n : Fin 64) (s : State) : Beside [] s (freeRecord n s) := by
  refine Beside.trans ?_ (reportChanged_within _ _).beside
  exact setRing_beside rfl rfl (.inl rfl)

theorem completeSlot_beside (n : Fin 64) (w : Word) (s : State) : Beside [.ring, .call] s (completeSlot n w s) := by
  have advanced : Beside [.ring, .call] s (countRing n (fun g => { g with next := some (slotAfter s n.val) })
      (changeShadow n (fun h => { h with state := .empty, shown := none }) s)) :=
    (changeShadow_beside _ _ s).wide.next (countRing_beside _ _ _)
  have reported (t : State) (h : Beside [.ring, .call] s t) : Beside [.ring, .call] s
      (if ringOf s n.val = 0 then freeRecord n t else t) := by
    split
    · exact h.next (freeRecord_beside _ _)
    · exact h
  unfold completeSlot
  dsimp only
  refine reported _ ?_
  split
  · exact advanced.next (callSent_within _ _ _).beside
  · split
    · exact advanced.next (countRing_beside _ _ _)
    · exact advanced

theorem modemWriteback_beside (n : Fin 64) (addr : Addr) (w : Word) (s : State) :
    Beside [.ring, .call, .fault] s (modemWriteback n addr w s) := by
  unfold modemWriteback
  split
  · exact (completeSlot_beside _ _ s).wide
  · exact (recordFault_within _ _ s).beside.wide

theorem controllerWord0_beside (n : Fin 64) (addr : Addr) (w : Word) (s : State) :
    Beside [.fault] s (controllerWord0 n addr w s) := by
  unfold controllerWord0
  dsimp only
  split
  · exact Beside.refl _ s
  · split
    · exact (recordFault_within _ _ s).beside
    · split
      · exact (changeShadow_beside _ _ s).wide
      · exact (changeShadow_beside _ _ s).wide

theorem controllerWord2_beside (n : Fin 64) (addr : Addr) (w : Word) (s : State) :
    Beside [.fault] s (controllerWord2 n addr w s) := by
  unfold controllerWord2
  split
  · exact (recordFault_within _ _ s).beside
  · exact (changeShadow_beside _ _ s).wide

theorem missWrite_beside (t : Taken) (s : State) : Beside [.frame] s (missWrite t s) := by
  unfold missWrite
  split
  · exact (changeShadow_beside _ _ s).wide
  · exact (changeShadow_beside _ _ s).wide
  · exact (changeShadow_beside _ _ s).wide
  · exact (changeFrame_within _ s).beside
  all_goals exact Beside.refl _ s

theorem firstIndices_beside (s : State) : Beside [.ring] s (firstIndices s) :=
  forEach_keeps (Beside [.ring] s) (fun _ _ h => h.trans (changeRing_beside _ _ _)) s (Beside.refl _ s)

theorem endScan_beside (s : State) : Beside [.ring] s (endScan s) := by
  unfold endScan
  dsimp only
  refine Beside.next ?_ (reportChanged_within _ _).beside
  refine Beside.next ?_ (reportAlways_within _ _).beside
  refine (firstIndices_beside s).next (l := []) ?_
  exact setRing_beside rfl rfl (.inr rfl)

theorem scanRead_beside (s : State) : Beside [.ring, .path] s (scanRead s) := by
  have moved : Beside [.ring, .path] s { s with path := { s.path with scanCursor := s.path.scanCursor + 1 } } := by
    simp [Beside, SameBut, SameBase, SameLevel, SameRoad, SameFault, SamePath]
  unfold scanRead
  dsimp only
  split
  · exact (moved.next (changeShadow_beside _ _ _)).next (endScan_beside _)
  · exact moved.next (changeShadow_beside _ _ _)

/-! ## Dispatched frames -/

/-- The areas that a receiving unit's taking of a frame is within. -/
def frameAreas : Frame → List Area
  | .truckBeacon .. => [.road]
  | .callOpen .. | .callClose .. | .voice .. => [.call]
  | .distress .. => [.call, .level]
  | .checkIn .. | .checkOut .. => [.refuge, .level]
  | .refugeStatus .. => [.air, .trip, .level, .refuge, .fault]
  | .evacuate .. | .airAlarm .. => [.level]

theorem takeFrame_within (f : Frame) (s : State) : Within (frameAreas f) s (takeFrame f s) := by
  have guarded (b : Bool) (t : State) (h : Within (frameAreas f) s t) : Within (frameAreas f) s (if b then t else s) := by
    split
    · exact h
    · exact Within.refl _ s
  cases f with
  | truckBeacon => exact takeBeacon_within _ s
  | callOpen => exact callOpen_within _ _ _ s
  | callClose => exact callClose_within _ s
  | voice => exact callVoice_within _ s
  | distress => exact callDistress_within _ _ _ s
  | checkIn c m => exact guarded _ _ (checkIn_within _ _ s)
  | checkOut c m => exact guarded _ _ (checkOut_within _ _ s)
  | refugeStatus c a o2 co n => exact guarded _ _ (takeStatus_within _ _ _ _ _ s)
  | evacuate => exact takeEvacuate_within _ _ _ _ s
  | airAlarm => exact takeAirAlarm_within _ s

end Sys2Proof.Machine
end

section
/-! PROOFS. What a command can do: every command is a reset, a plain change of memory or of the path unit, a tick, or an event whose
action is one of the units'. A law is kept by every step where each of these keeps it. -/

set_option Elab.async false

namespace Sys2Proof.Machine

open Sys2Proof.Config

/-- What a table holds after one entry is set. -/
theorem set_get {α : Type} {n : Nat} (v : Vector α n) (i j : Fin n) (x : α) :
    (v.set i x)[j] = if j = i then x else v[j] := by
  by_cases h : j = i
  · subst h
    simp
  · have : (i : Nat) ≠ j := fun e => h (Fin.ext e.symm)
    simp [this, h]

/-! ## The units' actions -/

/-- What a unit makes of the state `s` in which an event of RUN begins, with the areas of `s` that the action is within. -/
inductive RunActed (s : State) : List Area → State → Prop
  | resetCell (i : Fin 4) (ht : tripActive s.cells[i] = true) (hd : s.cells[i].demand = false) :
      RunActed s [.trip, .level] (resetCell i s)
  | evacuation (reason : BitVec 4) : RunActed s [] (localCause .request reason 0 s)
  | endEvacuation (hc : cellsTripped s = false) (ha : alertingHeld s = false) : RunActed s [.level] (endEvacuation s)
  | adjustPeriods (arg : Nat) (hl : s.level.level ≠ .evacuate) :
      RunActed s [.air, .level, .fault] (adjustmentRecord arg [] { s with
        rate := PeriodTimer.apply s.staged.rateWindow s.rate
        level := { s.level with repeatTimer := PeriodTimer.apply s.staged.repeatPeriod s.level.repeatTimer }
        fault := { s.fault with patrol := PeriodTimer.apply s.staged.patrol s.fault.patrol } })
  | adjustChannel (arg : Nat) (fields : List (Nat × Nat)) (i : Fin 24) (t : Thresholds) :
      RunActed s [.air] (adjustmentRecord arg fields (changeChannel i (fun c => { c with waiting := some t }) s))
  | clearDistress (d : Distress) (hd : d ∈ s.call.distress) : RunActed s [.call, .level] (clearDistress d s)
  | closeCall (p : Fin 8) (reason : Nat) : RunActed s [.call] (closeCall p reason s)
  | clearTruck (p : Fin 32) (truck : Id) (hp : truckPosition s truck = some p) : RunActed s [.road] (clearTruck p truck s)
  | checkOutByRequest (c : Fin 4) (m : Id) : RunActed s [.refuge, .level] (checkOutByRequest c m s)
  | consume (w : BitVec 16) : RunActed s [.fault] (takeConsume (clampConsume s.fault w) s)
  | rawReading (n : Fin 16) (w : Word) : RunActed s [.air, .trip, .level, .refuge, .fault] (rawReading n w s)
  | controllerWord0 (n : Fin 64) (addr : Addr) (w : Word) : RunActed s [.fault] (controllerWord0 n addr w s)
  | controllerWord2 (n : Fin 64) (addr : Addr) (w : Word) : RunActed s [.fault] (controllerWord2 n addr w s)
  | modemWriteback (n : Fin 64) (addr : Addr) (w : Word) : RunActed s [.ring, .call, .fault] (modemWriteback n addr w s)
  | completion (i : Fin 32) (addr : Addr) (w : Word) : RunActed s [.frame, .fault] (completion i addr w s)
  | guardFault (d : FaultId) : RunActed s [.fault] (recordFault .guardWrite d s)
  | missWrite (t : Taken) (d : FaultId) : RunActed s [.frame, .fault] (missWrite t (recordFault .partialWrite d s))
  | modemRead (n : Fin 64) (addr : Addr) (w : Word) : RunActed s [.readData, .ring, .fault] (modemRead n addr w s)
  | acknowledge (i : Fin 24) (shown : Nat) : RunActed s [.air, .trip, .level, .refuge] (acknowledge i shown s)
  | release (shown : Nat) : RunActed s [.level, .fault] (release shown s)
  | confirmLine (n : Fin 8) (i : Fin 4) : RunActed s [.trip, .level, .fault] (confirmLine n i s)
  | scanRead (hq : s.path.queue = []) (hp : scanPending s = true) : RunActed s [.ring, .path] (scanRead s)
  | staleExpiry (i : Fin 24) : RunActed s [.air, .trip, .level, .refuge, .fault] (staleExpiry i s)
  | rateExpiry : RunActed s [.air, .trip, .level, .refuge, .fault] (rateExpiry s)
  | repeatExpiry : RunActed s [.level] (repeatExpiry s)
  | remoteExpiry : RunActed s [.level] (remoteExpiry s)
  | confirmExpiry (i : Fin 4) (hd : confirmDue s i = true) : RunActed s [.trip, .fault] (confirmExpiry i s)
  | callSilence (p : Fin 8) : RunActed s [.call] (callSilence p s)
  | grantExpiry (i : Fin 16) (truck : Id) (hd : grantDue s i truck = true) : RunActed s [] (grantExpiry i truck s)
  | truckStaleExpiry (p : Fin 32) : RunActed s [.road] (truckStaleExpiry p s)
  | truckForgetExpiry (p : Fin 32) : RunActed s [.road] (truckForgetExpiry p s)
  | chamberSilence (c : Fin 4) : RunActed s [.refuge, .level] (chamberSilence c s)
  | airlockExpiry (c : Fin 4) : RunActed s [.refuge, .level] (airlockExpiry c s)
  | reevaluation : RunActed s [.trip, .level] (evacuatingReevaluation s)
  | frame (f : Frame) (hf : Frame.defined f = true) : RunActed s (.frame :: frameAreas f) (takeFrame f (clearHandover f s))

theorem RunActed.beside {s t : State} {l : List Area} (h : RunActed s l t) : Beside l s t := by
  cases h with
  | resetCell i => exact (resetCell_within i s).beside
  | evacuation => exact (localCause_within _ _ _ s).beside
  | endEvacuation => exact (endEvacuation_within s).beside
  | adjustPeriods =>
    refine Beside.next ?_ (adjustmentRecord_within _ _ _).beside
    simp [Beside, SameBut, SameBase, SameLevel, SameRoad, SameFault, SamePath]
  | adjustChannel => exact ((changeChannel_within _ _ s).andThen (adjustmentRecord_within _ _ _)).beside
  | clearDistress => exact (clearDistress_within _ s).beside
  | closeCall => exact (closeCall_within _ _ s).beside
  | clearTruck => exact (clearTruck_within _ _ s).beside
  | checkOutByRequest => exact (checkOutByRequest_within _ _ s).beside
  | consume => exact (takeConsume_within _ s).beside
  | rawReading => exact (rawReading_within _ _ s).beside
  | controllerWord0 => exact controllerWord0_beside _ _ _ s
  | controllerWord2 => exact controllerWord2_beside _ _ _ s
  | modemWriteback => exact modemWriteback_beside _ _ _ s
  | completion => exact (completion_within _ _ _ s).beside
  | guardFault => exact (recordFault_within _ _ s).beside
  | missWrite => exact (recordFault_within _ _ s).beside.wide.next (missWrite_beside _ _)
  | modemRead => exact modemRead_beside _ _ _ s
  | acknowledge => exact (acknowledge_within _ _ s).beside
  | release => exact (release_within _ s).beside
  | confirmLine => exact (confirmLine_within _ _ s).beside
  | scanRead => exact scanRead_beside s
  | staleExpiry => exact (staleExpiry_within _ s).beside
  | rateExpiry => exact (rateExpiry_within s).beside
  | repeatExpiry => exact (repeatExpiry_within s).beside
  | remoteExpiry => exact (remoteExpiry_within s).beside
  | confirmExpiry => exact (confirmExpiry_within _ s).beside
  | callSilence => exact (callSilence_within _ s).beside
  | grantExpiry => exact (grantExpiry_within _ _ s).beside
  | truckStaleExpiry => exact (truckStaleExpiry_within _ s).beside
  | truckForgetExpiry => exact (truckForgetExpiry_within _ s).beside
  | chamberSilence => exact (chamberSilence_within _ s).beside
  | airlockExpiry => exact (airlockExpiry_within _ s).beside
  | reevaluation => exact (evacuatingReevaluation_within s).beside
  | frame f =>
    exact ((clearHandover_within f s).mono (by simp)).beside.trans ((takeFrame_within f _).mono (fun _ h => List.mem_cons_of_mem _ h)).beside

theorem RunActed.sameBut {s t : State} {l : List Area} (h : RunActed s l t) : SameBut l s t := h.beside.1

/-- What an action makes of the state `s` in which an event begins. -/
inductive Acted (s : State) : State → Prop
  | nothing : Acted s s
  | start (hrun : s.run = false) (hc : failingCheck s = none) : Acted s (runEntry s)
  | restart (strap : BitVec 2) (hrun : s.run = true) (hc : cellsTripped s = false) (hl : s.level.level = .normal) :
      Acted s (warmReset .restart strap s)
  | drain : Acted s (drainOldest s)
  | inRun {l : List Area} {t : State} (hrun : s.run = true) (h : RunActed s l t) : Acted s t

/-! ## Requests -/

/-- The state with an outcome word to be queued. -/
def withOutcome (w : Option Word) (s : State) : State := { s with path := { s.path with outcome := w } }

theorem withOutcome_self (s : State) : withOutcome s.path.outcome s = s := rfl

/-- Of a request in RUN what is answered: the state itself, or a unit's action on it. -/
def RunAnswered (s : State) (r : Reply) : Prop := r.after = s ∨ ∃ l, RunActed s l r.after

theorem RunActed.done {s t : State} {l : List Area} (h : RunActed s l t) : RunAnswered s (Reply.done t) := .inr ⟨l, h⟩

theorem requestResetCell_answered (arg : Nat) (s : State) : RunAnswered s (requestResetCell arg s) := by
  unfold requestResetCell
  dsimp only
  split_ifs with ha ht hd
  · exact .inl rfl
  · exact .inl rfl
  · exact .inl rfl
  · exact (RunActed.resetCell _ (by simpa using ht) (by simpa using hd)).done

theorem requestEvacuation_answered (arg : Nat) (s : State) : RunAnswered s (requestEvacuation arg s) := by
  unfold requestEvacuation
  split_ifs
  · exact (RunActed.evacuation _).done
  · exact .inl rfl

theorem requestEnd_answered (s : State) : RunAnswered s (requestEnd s) := by
  unfold requestEnd
  split_ifs with hc ha
  · exact .inl rfl
  · exact .inl rfl
  · exact (RunActed.endEvacuation (by simpa using hc) (by simpa using ha)).done

theorem requestAdjust_answered (arg : Nat) (s : State) : RunAnswered s (requestAdjust arg s) := by
  unfold requestAdjust
  dsimp only
  split_ifs with h1 hl
  · exact .inl rfl
  · exact (RunActed.adjustPeriods _ hl).done
  · exact .inl rfl
  · exact .inl rfl
  · exact .inl rfl
  · exact .inl rfl
  · exact .inl rfl
  · exact (RunActed.adjustChannel _ _ _ _).done

theorem requestClearDistress_answered (arg : Nat) (s : State) : RunAnswered s (requestClearDistress arg s) := by
  unfold requestClearDistress
  split_ifs
  · exact .inl rfl
  · split
    · rename_i d hd
      exact (RunActed.clearDistress d (List.mem_of_find?_eq_some hd)).done
    · exact .inl rfl

theorem requestCloseCall_answered (arg : Nat) (s : State) : RunAnswered s (requestCloseCall arg s) := by
  unfold requestCloseCall
  split_ifs
  · exact .inl rfl
  · split
    · exact (RunActed.closeCall _ _).done
    · exact .inl rfl

theorem requestClearTruck_answered (arg : Nat) (s : State) : RunAnswered s (requestClearTruck arg s) := by
  unfold requestClearTruck
  split_ifs
  · exact .inl rfl
  · split
    · rename_i p hp
      exact (RunActed.clearTruck p _ hp).done
    · exact .inl rfl

theorem requestCheckOut_answered (arg : Nat) (s : State) : RunAnswered s (requestCheckOut arg s) := by
  unfold requestCheckOut
  split_ifs
  · exact .inl rfl
  · split
    · exact (RunActed.checkOutByRequest _ _).done
    · exact .inl rfl

theorem RunAnswered.acted {s : State} {r : Reply} (hrun : s.run = true) (h : RunAnswered s r) : Acted s r.after := by
  rcases h with h | ⟨l, h⟩
  · rw [h]
    exact .nothing
  · exact .inRun hrun h

theorem Acted.done {s t : State} (h : Acted s t) : Acted s (Reply.done t).after := h

theorem requestStart_acted {s : State} (hrun : s.run = false) : Acted s (requestStart s).after := by
  unfold requestStart
  split
  · exact .nothing
  · rename_i hc
    exact (Acted.start hrun hc).done

theorem requestRestart_acted (strap : BitVec 2) {s : State} (hrun : s.run = true) : Acted s (requestRestart strap s).after := by
  unfold requestRestart
  split_ifs with hc hl
  · exact .nothing
  · exact .nothing
  · exact (Acted.restart strap hrun (by simpa using hc) (by simpa using hl)).done

/-- What a request in RUN answers, by its code (R164). -/
theorem judgeRequest_in_run {strap : BitVec 2} {w : Word} {s : State} (hrun : s.run = true)
    (hknown : requestCodeKnown (bits w 24 8) = true) :
    judgeRequest strap w s = match requestCode w with
      | 1 => Reply.refuse alreadyRunning s
      | 2 => requestRestart strap s
      | 3 => requestResetCell (requestArg w) s
      | 4 => requestEvacuation (requestArg w) s
      | 5 => requestEnd s
      | 6 => requestAdjust (requestArg w) s
      | 7 => requestClearDistress (requestArg w) s
      | 8 => requestCloseCall (requestArg w) s
      | 9 => requestClearTruck (requestArg w) s
      | _ => requestCheckOut (requestArg w) s := by
  unfold judgeRequest
  simp only [hknown, hrun, Bool.not_true, Bool.false_eq_true, if_false] <;> rfl

/-- A code that is none of the ten (R164). -/
theorem judgeRequest_unknown {strap : BitVec 2} {w : Word} {s : State} (hknown : requestCodeKnown (bits w 24 8) = false) :
    judgeRequest strap w s = { outcome := outUnknown, after := s } := by
  simp [judgeRequest, hknown]

/-- In SETUP a request is START or refused (R164). -/
theorem judgeRequest_in_setup {strap : BitVec 2} {w : Word} {s : State} (hrun : s.run = false)
    (hknown : requestCodeKnown (bits w 24 8) = true) :
    judgeRequest strap w s = if requestCode w = 1 then requestStart s else Reply.refuse notRunning s := by
  simp [judgeRequest, hknown, hrun]

/-- A request that is judged leaves the state as it is, or acts on it as its row says (R164). -/
theorem judgeRequest_acted (strap : BitVec 2) (w : Word) (s : State) : Acted s (judgeRequest strap w s).after := by
  by_cases hknown : requestCodeKnown (bits w 24 8) = true
  · by_cases hrun : s.run = true
    · rw [judgeRequest_in_run hrun hknown]
      split
      · exact .nothing
      · exact requestRestart_acted strap hrun
      · exact (requestResetCell_answered _ s).acted hrun
      · exact (requestEvacuation_answered _ s).acted hrun
      · exact (requestEnd_answered s).acted hrun
      · exact (requestAdjust_answered _ s).acted hrun
      · exact (requestClearDistress_answered _ s).acted hrun
      · exact (requestCloseCall_answered _ s).acted hrun
      · exact (requestClearTruck_answered _ s).acted hrun
      · exact (requestCheckOut_answered _ s).acted hrun
    · have hrun : s.run = false := by simpa using hrun
      rw [judgeRequest_in_setup hrun hknown]
      split_ifs
      · exact requestStart_acted hrun
      · exact .nothing
  · rw [judgeRequest_unknown (by simpa using hknown)]
    exact .nothing

/-- The action of an event, from the state in which it begins: a unit's action, and for a request the outcome word beside it. -/
def ActsOn (f : State → State) (s : State) : Prop := ∃ t w, Acted s t ∧ f s = withOutcome w t

theorem actsOn_executeRequest (strap : BitVec 2) (w : Word) (s : State) : ActsOn (executeRequest strap w) s :=
  ⟨_, _, judgeRequest_acted strap w s, rfl⟩

theorem ActsOn.of_acted {f : State → State} {s : State} (h : Acted s (f s)) : ActsOn f s :=
  ⟨f s, (f s).path.outcome, h, rfl⟩

theorem ActsOn.of_run {f : State → State} {s : State} {l : List Area} (hrun : s.run = true) (h : RunActed s l (f s)) :
    ActsOn f s := .of_acted (.inRun hrun h)

/-! ## What a frame says of one field -/

section
variable {l : List Area} {s t : State}

theorem SameBut.pending (h : SameBut l s t) : t.pending = s.pending := h.1.1
theorem SameBut.run (h : SameBut l s t) : t.run = s.run := h.1.2.1
theorem SameBut.strap (h : SameBut l s t) : t.strap = s.strap := h.1.2.2.1
theorem SameBut.copies (h : SameBut l s t) : t.copies = s.copies := h.1.2.2.2.2.2.1
theorem SameBut.effective (h : SameBut l s t) : t.effective = s.effective := h.1.2.2.2.2.2.2.2.1
theorem SameBut.time (h : SameBut l s t) : t.time = s.time := h.1.2.2.2.2.2.2.2.2.2

theorem SameBut.channels (h : SameBut l s t) (hl : .air ∉ l := by decide) : t.channels = s.channels := by
  obtain ⟨-, -, hair, -⟩ := h
  exact (hair hl).1

theorem SameBut.rate (h : SameBut l s t) (hl : .air ∉ l := by decide) : t.rate = s.rate := by
  obtain ⟨-, -, hair, -⟩ := h
  exact (hair hl).2

theorem SameBut.cells (h : SameBut l s t) (hl : .trip ∉ l := by decide) : t.cells = s.cells := by
  obtain ⟨-, -, -, htrip, -⟩ := h
  exact (htrip hl).1

theorem SameBut.sampled (h : SameBut l s t) (hl : .trip ∉ l := by decide) : t.sampled = s.sampled := by
  obtain ⟨-, -, -, htrip, -⟩ := h
  exact (htrip hl).2

theorem SameBut.level (h : SameBut l s t) (hl : .level ∉ l := by decide) : SameLevel s t := by
  obtain ⟨-, -, -, -, hlevel, -⟩ := h
  exact hlevel hl

theorem SameBut.rings (h : SameBut l s t) (hl : .ring ∉ l := by decide) : t.ring.rings = s.ring.rings := by
  obtain ⟨-, -, -, -, -, hring, -⟩ := h
  exact hring hl

theorem SameBut.departed (h : SameBut l s t) (hl : .ring ∉ l := by decide) (hc : .call ∉ l := by decide) :
    t.ring.departed = s.ring.departed := by
  obtain ⟨-, -, -, -, -, -, hdeparted, -⟩ := h
  exact hdeparted hl hc

theorem SameBut.frame (h : SameBut l s t) (hl : .frame ∉ l := by decide) : t.frame = s.frame := by
  obtain ⟨-, -, -, -, -, -, -, hframe, -⟩ := h
  exact hframe hl

theorem SameBut.call (h : SameBut l s t) (hl : .call ∉ l := by decide) : t.call = s.call := by
  obtain ⟨-, -, -, -, -, -, -, -, hcall, -⟩ := h
  exact hcall hl

theorem SameBut.road (h : SameBut l s t) (hl : .road ∉ l := by decide) : SameRoad s t := by
  obtain ⟨-, -, -, -, -, -, -, -, -, hroad, -⟩ := h
  exact hroad hl

theorem SameBut.chambers (h : SameBut l s t) (hl : .refuge ∉ l := by decide) : t.chambers = s.chambers := by
  obtain ⟨-, -, -, -, -, -, -, -, -, -, hrefuge, -⟩ := h
  exact hrefuge hl

theorem SameBut.fault (h : SameBut l s t) (hl : .fault ∉ l := by decide) : SameFault s t := by
  obtain ⟨-, -, -, -, -, -, -, -, -, -, -, hfault, -⟩ := h
  exact hfault hl

theorem SameBut.path (h : SameBut l s t) (hl : .path ∉ l := by decide) : SamePath s t := by
  obtain ⟨-, -, -, -, -, -, -, -, -, -, -, -, hpath⟩ := h
  exact hpath hl

end

/-! ## What keeps a property at every command -/

/-- A property of states that each plain change and each event keeps. -/
structure Kept (P : State → Prop) : Prop where
  reset : ∀ {s} (kind : ResetKind) (count : Nat) (strap : BitVec 2) (copies : Settings) (staged : Staged), P s →
    P (resetPart kind count strap copies staged s)
  memory : ∀ {s} (a : Access) (w : Word), P s → P (reachMemory a w s)
  staged : ∀ {s} (g : Staged), P s → P { s with staged := g }
  copies : ∀ {s} (c : Settings), s.run = false → P s → P { s with copies := c }
  readData : ∀ {s} (w : Word), P s → P { s with readData := w }
  arming : ∀ {s} (a : Option Arming), P s → P (setArming a s)
  pins : ∀ {s} (v : Vector Bool 8), P s → P { s with pins := v }
  capture : ∀ {s} (i : Fin 32) (f : Capture → Capture), P s → P (changeCapture i f s)
  patrol : ∀ {s}, s.run = true → s.path.queue = [] → P s → P (patrolRead s)
  patrolDue : ∀ {s}, P s → P (patrolExpiry s)
  sweep : ∀ {s}, P s → P (sweepPut s)
  tick : ∀ {s}, s.run = true → P s → P (tick s)
  event : ∀ {s} {f : State → State}, ActsOn f (beginEvent s) → P s → P (event f s)

/-- An action that is no request: none, a drain, or one of a unit in RUN. -/
inductive Quiet (s : State) : State → Prop
  | nothing : Quiet s s
  | drain : Quiet s (drainOldest s)
  | inRun {l : List Area} {t : State} (hrun : s.run = true) (h : RunActed s l t) : Quiet s t

theorem Quiet.acted {s t : State} (h : Quiet s t) : Acted s t := by
  cases h with
  | nothing => exact .nothing
  | drain => exact .drain
  | inRun hrun h => exact .inRun hrun h

/-- A property of states that the commands keep which are no bus write and no reset. -/
structure KeptQuiet (P : State → Prop) : Prop where
  readData : ∀ {s} (w : Word), P s → P { s with readData := w }
  arming : ∀ {s} (a : Option Arming), P s → P (setArming a s)
  pins : ∀ {s} (v : Vector Bool 8), P s → P { s with pins := v }
  patrol : ∀ {s}, s.run = true → s.path.queue = [] → P s → P (patrolRead s)
  patrolDue : ∀ {s}, P s → P (patrolExpiry s)
  sweep : ∀ {s}, P s → P (sweepPut s)
  tick : ∀ {s}, s.run = true → P s → P (tick s)
  event : ∀ {s} {f : State → State}, Quiet (beginEvent s) (f (beginEvent s)) → P s → P (event f s)

theorem Kept.quiet {P : State → Prop} (h : Kept P) : KeptQuiet P where
  readData := h.readData
  arming := h.arming
  pins := h.pins
  patrol := h.patrol
  patrolDue := h.patrolDue
  sweep := h.sweep
  tick := h.tick
  event ha hs := h.event (.of_acted ha.acted) hs

section
variable {P : State → Prop} {s : State}

/-- An event of a unit that acts in RUN. -/
theorem KeptQuiet.run (h : KeptQuiet P) {f : State → State} {l : List Area} (hrun : s.run = true)
    (ha : RunActed (beginEvent s) l (f (beginEvent s))) (hs : P s) : P (Machine.event f s) :=
  h.event (.inRun hrun ha) hs

theorem Kept.run (h : Kept P) {f : State → State} {l : List Area} (hrun : s.run = true)
    (ha : RunActed (beginEvent s) l (f (beginEvent s))) (hs : P s) : P (Machine.event f s) := h.quiet.run hrun ha hs

theorem KeptQuiet.frameEvent (h : KeptQuiet P) (f : Frame) (hs : P s) : P (frameEvent f s) := by
  unfold Machine.frameEvent runEvent
  split
  · rename_i hrun
    refine h.event ?_ hs
    by_cases hf : Frame.defined f = true
    · rw [if_pos hf]
      exact .inRun hrun (.frame f hf)
    · rw [if_neg hf]
      exact .nothing
  · exact hs

theorem Kept.takeWrite (h : Kept P) (strap : BitVec 2) (a : Access) (t : Taken) (hrun : s.run = true) (hs : P s) :
    P (takeWrite strap a t s) := by
  unfold Machine.takeWrite
  split
  · exact h.staged _ (h.memory _ _ hs)
  · exact h.event (actsOn_executeRequest _ _ _) (h.memory _ _ hs)
  · exact h.run hrun (.consume _) (h.memory _ _ hs)
  · dsimp only
    split
    · exact h.memory _ _ hs
    · exact h.run hrun (.rawReading _ _) (h.memory _ _ hs)
  · exact h.run hrun (.controllerWord0 _ _ _) (h.memory _ _ hs)
  · exact h.run hrun (.controllerWord2 _ _ _) (h.memory _ _ hs)
  · exact h.run hrun (.modemWriteback _ _ _) (h.memory _ _ hs)
  · split
    · exact h.memory _ _ hs
    · have htaken : P (takeHandover s) ∧ (takeHandover s).run = true := by
        unfold takeHandover
        split
        · refine ⟨h.quiet.frameEvent _ hs, ?_⟩
          unfold Machine.frameEvent runEvent
          rw [if_pos hrun]
          have hsame := event_sameBut_acted (fun s => if Frame.defined ‹_› then takeFrame ‹_› (clearHandover ‹_› s) else s) s
          rw [hsame.1.2.1]
          split
          · rw [(takeFrame_within _ _).1.1.2.1, (clearHandover_within _ _).1.1.2.1]
            exact hrun
          · exact hrun
        · exact ⟨hs, hrun⟩
      exact h.run htaken.2 (.completion _ _ _) (h.memory _ _ htaken.1)
  · exact h.capture _ _ (h.memory _ _ hs)

theorem Kept.serveWrite (h : Kept P) (strap : BitVec 2) (a : Access) (hs : P s) : P (serveWrite strap a s) := by
  unfold Machine.serveWrite
  split
  · rename_i hrun
    unfold runWrite
    split
    · exact h.memory _ _ hs
    · split
      · exact h.run hrun (.guardFault _) hs
      · split
        · exact h.memory _ _ hs
        · split
          · exact h.takeWrite strap a _ hrun hs
          · exact h.run hrun (.missWrite _ _) (h.memory _ _ hs)
  · rename_i hrun
    unfold setupWrite
    dsimp only
    split
    · split
      · split
        · exact h.event (actsOn_executeRequest _ _ _) (h.memory _ _ hs)
        · split
          · exact h.staged _ (h.memory _ _ hs)
          · exact h.copies _ (eq_false_of_ne_true hrun) (h.memory _ _ hs)
      · exact h.memory _ _ hs
      · exact h.memory _ _ hs
    · exact h.memory _ _ hs

theorem KeptQuiet.consumeArming (h : KeptQuiet P) (k : RegionKind) (o : Nat) (a : Arming) (hrun : s.run = true) (hs : P s) :
    P (consumeArming k o a s) := by
  unfold Machine.consumeArming
  split
  · split
    · exact h.run hrun (.acknowledge _ _) hs
    · exact hs
  · split
    · exact h.run hrun (.release _) hs
    · exact hs
  · exact hs

theorem KeptQuiet.serveRead (h : KeptQuiet P) (a : Access) (hs : P s) : P (serveRead a s) := by
  unfold Machine.serveRead
  dsimp only
  split
  · exact h.readData _ hs
  · rename_i hrun
    have hrun : s.run = true := by simpa using hrun
    split
    · exact h.readData _ hs
    · split
      · split
        · exact h.run hrun (.modemRead _ _ _) hs
        · exact h.readData _ hs
      · split
        · unfold armRead
          split
          · dsimp only
            split
            · exact h.arming _ (h.consumeArming _ _ _ hrun (h.arming _ (h.readData _ hs)))
            · exact h.arming _ (h.readData _ hs)
          · exact h.readData _ hs
        · exact h.readData _ hs

theorem KeptQuiet.lineEvent (h : KeptQuiet P) (n : Fin 8) (pin : Bool) (hs : P s) : P (lineEvent n pin s) := by
  unfold Machine.lineEvent
  split
  · split
    · rename_i hc
      simp only [Bool.and_eq_true] at hc
      exact h.run hc.1 (.confirmLine _ _) (h.pins _ hs)
    · exact h.pins _ hs
  all_goals exact h.pins _ hs

theorem KeptQuiet.expiryEvent (h : KeptQuiet P) {due : Bool} {f : State → State} {l : List Area}
    (ha : s.run = true → due = true → RunActed (beginEvent s) l (f (beginEvent s))) (hs : P s) : P (expiryEvent due f s) := by
  unfold Machine.expiryEvent
  split
  · rename_i hc
    simp only [Bool.and_eq_true] at hc
    exact h.run hc.1 (ha hc.1 hc.2) hs
  · exact hs

/-- The command is a reset. -/
def isReset : Instr → Bool
  | .powerOn _ | .resetInput _ => true
  | _ => false

/-- Every command that is no bus write and no reset keeps the property. -/
theorem KeptQuiet.exec (h : KeptQuiet P) (hs : P s) (c : Instr) (hw : busWrite c s = none) (hr : isReset c = false) :
    ∃ t, exec c s = .next t ∧ P t := by
  have read (a : Access) : ∃ t, Host.Outcome.next (φ := Fault) (ρ := Refusal) (Machine.serveRead a s) = .next t ∧ P t :=
    ⟨_, rfl, h.serveRead a hs⟩
  have framed (f : Frame) : ∃ t, Host.Outcome.next (φ := Fault) (ρ := Refusal) (Machine.frameEvent f s) = .next t ∧ P t :=
    ⟨_, rfl, h.frameEvent f hs⟩
  cases c with
  | powerOn | resetInput => cases hr
  | start | restart | resetCell | evacuate | endEvacuation | applyAdjustment | clearDistress | closeCall | clearTruck
  | checkOutMiner | unknownRequest | settingWrite | adjustmentWrite | consumeIndexWrite | rawAirWrite
  | txWord0ControllerWrite | txWord2ControllerWrite | modemTxWriteback | headerCaptureWrite | receiveCompletion
  | partialWrite | guardWrite | plainWrite => cases hw
  | channelArmingRead | logArmingRead | ackWordRead | releaseWordRead | consumingRead | modemTxRead
  | modemTxPartialRead => exact read _
  | confirmInChange n pin => exact ⟨_, rfl, h.lineEvent n pin hs⟩
  | drain =>
    refine ⟨_, rfl, ?_⟩
    unfold drainCycle
    split
    · exact hs
    · exact h.sweep (h.event .drain hs)
  | startScanRead =>
    refine ⟨_, rfl, ?_⟩
    unfold scanCycle
    split
    · rename_i hc
      obtain ⟨hq, hp⟩ := by simpa only [Bool.and_eq_true] using hc
      have hrun : s.run = true := by
        simp only [scanPending, Bool.and_eq_true] at hp
        exact hp.1
      exact h.run hrun (.scanRead (by simpa using hq) hp) hs
    · exact hs
  | patrolRead =>
    refine ⟨_, rfl, ?_⟩
    unfold patrolCycle
    split
    · rename_i hc
      simp only [Bool.and_eq_true] at hc
      obtain ⟨⟨⟨hrun, hq⟩, -⟩, -⟩ := hc
      exact h.patrol hrun (by simpa using hq) hs
    · exact hs
  | timeBaseTick =>
    refine ⟨_, rfl, ?_⟩
    by_cases hrun : s.run = true
    · exact h.tick hrun hs
    · unfold Machine.tick
      rw [if_neg hrun]
      exact hs
  | staleTimerExpiry i => exact ⟨_, rfl, h.expiryEvent (fun _ _ => .staleExpiry i) hs⟩
  | rateWindowExpiry => exact ⟨_, rfl, h.expiryEvent (fun _ _ => .rateExpiry) hs⟩
  | repeatTimerExpiry => exact ⟨_, rfl, h.expiryEvent (fun _ _ => .repeatExpiry) hs⟩
  | patrolTimerExpiry =>
    refine ⟨_, rfl, ?_⟩
    split
    · exact h.patrolDue hs
    · exact hs
  | remoteAlertExpiry => exact ⟨_, rfl, h.expiryEvent (fun _ _ => .remoteExpiry) hs⟩
  | confirmTimerExpiry i => exact ⟨_, rfl, h.expiryEvent (fun _ hd => .confirmExpiry i hd) hs⟩
  | callSilenceExpiry p => exact ⟨_, rfl, h.expiryEvent (fun _ _ => .callSilence p) hs⟩
  | grantTimerExpiry i truck => exact ⟨_, rfl, h.expiryEvent (fun _ hd => .grantExpiry i truck hd) hs⟩
  | truckStaleExpiry p => exact ⟨_, rfl, h.expiryEvent (fun _ _ => .truckStaleExpiry p) hs⟩
  | truckForgetExpiry p => exact ⟨_, rfl, h.expiryEvent (fun _ _ => .truckForgetExpiry p) hs⟩
  | chamberSilenceExpiry k => exact ⟨_, rfl, h.expiryEvent (fun _ _ => .chamberSilence k) hs⟩
  | airlockTimerExpiry k => exact ⟨_, rfl, h.expiryEvent (fun _ _ => .airlockExpiry k) hs⟩
  | evacuatingReevaluation => exact ⟨_, rfl, h.expiryEvent (fun _ _ => .reevaluation) hs⟩
  | truckBeacon | callOpen | callClose | voice | distress | checkIn | checkOut | refugeStatus | evacuateFrame
  | airAlarmFrame => exact framed _

/-- Every command that is a bus write serves it. -/
theorem exec_of_busWrite {c : Instr} {a : Access} (h : busWrite c s = some a) :
    ∃ strap, exec c s = .next (Machine.serveWrite strap a s) := by
  cases c with
  | start | restart | resetCell | evacuate | endEvacuation | applyAdjustment | clearDistress | closeCall | clearTruck
  | checkOutMiner | unknownRequest | settingWrite | adjustmentWrite | consumeIndexWrite | rawAirWrite
  | txWord0ControllerWrite | txWord2ControllerWrite | modemTxWriteback | headerCaptureWrite | receiveCompletion
  | partialWrite | guardWrite | plainWrite =>
    cases h
    exact ⟨_, rfl⟩
  | _ => cases h

/-- Every command keeps the property. -/
theorem Kept.exec (h : Kept P) (hs : P s) (c : Instr) : ∃ t, exec c s = .next t ∧ P t := by
  cases hw : busWrite c s with
  | some a =>
    obtain ⟨strap, ht⟩ := exec_of_busWrite hw
    exact ⟨_, ht, h.serveWrite strap a hs⟩
  | none =>
    cases hr : isReset c with
    | false => exact h.quiet.exec hs c hw hr
    | true =>
      cases c with
      | powerOn strap => exact ⟨_, rfl, h.reset _ _ _ _ _ hs⟩
      | resetInput strap => exact ⟨_, rfl, h.reset _ _ _ _ _ hs⟩
      | _ => cases hr

/-- Every step keeps the property, where it does not depend on the waiting commands. -/
theorem Kept.step (h : Kept P) (hpending : ∀ {s : State} (l : List Instr), P s → P { s with pending := l }) {t : State}
    (hs : P s) (ht : step s = .next t) : P t := by
  unfold Machine.step at ht
  split at ht
  · cases ht
    exact hs
  · obtain ⟨u, hu, hPu⟩ := h.exec (hpending _ hs) ‹_›
    rw [hu] at ht
    cases ht
    exact hPu

end

/-- A tick counts, and at its multiples of 100 and of 1,000 the timers tick (R76 to R78). -/
theorem tick_keeps {P : State → Prop} (htime : ∀ s : State, P s → P { s with time := s.time + 1 })
    (htenths : ∀ s, P s → P (tickTenths s)) (hseconds : ∀ s, P s → P (tickSeconds s)) {s : State} (h : P s) : P (tick s) := by
  unfold Machine.tick
  split
  · extract_lets t u
    have ht : P t := htime s h
    have hu : P u := by
      unfold u
      split
      · exact htenths t ht
      · exact ht
    split
    · exact hseconds u hu
    · exact hu
  · exact h

/-- A patrol read moves the cursor; a word that differs is rewritten in an event (R178). -/
theorem patrolRead_cases {P : State → Prop} {s : State} (hrun : s.run = true) (hq : s.path.queue = [])
    (hmoved : P { s with path := { s.path with patrolCursor := patrolNext s.path.patrolCursor, patrolPending := false } })
    (hevent : ∀ (t : State) (w : Word), t.run = true → t.path.queue = [] → P t →
      P (event (mirrorMismatch s.path.patrolCursor w) t)) :
    P (patrolRead s) := by
  unfold Machine.patrolRead
  dsimp only
  split
  · exact hmoved
  · exact hevent _ _ hrun hq hmoved

/-- What the action of an event leaves of a property that only the areas decide, its end leaves. -/
theorem event_keeps_of_sameBut {P : State → Prop} (hsame : ∀ s t, SameBut [] s t → P s → P t) {f : State → State} {s : State}
    (h : P (f (beginEvent s))) : P (event f s) :=
  hsame _ _ (event_sameBut_acted f s) h

/-- What each step of the end of an event keeps, with the sweep's start and the lines' drive, the event keeps after its action. -/
theorem event_keeps {P : State → Prop} (hstep : ∀ s0 s t, P s → settleStep s0 s = some t → P t)
    (hsweep : ∀ s, P s → P (sweepPut s)) (hdrive : ∀ s, P s → P (driveLines s)) {f : State → State} {s : State}
    (h : P (f (beginEvent s))) : P (event f s) := by
  have hend (n : Nat) (s0 t : State) (ht : P t) : P (settle n s0 t) := settle_keeps (hstep s0) n ht
  unfold event
  dsimp only
  refine hdrive _ (levelEvents_keeps (fun _ hu => hend _ _ _ hu) 2 ?_)
  split
  · exact hsweep _ (hend _ _ _ h)
  · exact hend _ _ _ h

end Sys2Proof.Machine
end

section
/-! PROOFS. The call unit's law (R115, R118, R124): distinct call ids, the admission order, the distress list. -/

set_option Elab.async false

namespace Sys2Proof.Machine

open Sys2Proof.Config

/-! ## RUN entry -/

theorem announceStart_within (s : State) : Within [] s (announceStart s) :=
  (((postAlways_within _ s).andThen (post_within _ _)).andThen (addRecord_within _ _ _ _))

/-- RUN entry beyond the state that it gives each unit: the first evaluation of the cells and what it hands on. -/
theorem runEntry_within (s : State) : Within [.trip, .level] (enterRun s) (runEntry s) :=
  (announceStart_within _).wide.next (reevaluate_within _ _)

theorem enterRun_eq (s : State) : ∃ v : Vector RingRecord 4, enterRun s =
    { s with
      run := true, effective := s.copies, time := 0, sampled := sampleLines s s.copies.lines
      channels := mapTable startChannel s.copies.channels, cells := mapTable startCell s.copies.cells
      chambers := mapTable startChamber s.copies.chambers, rate := PeriodTimer.start s.copies.node.rateWindow
      level := { s.level with repeatTimer := PeriodTimer.start s.copies.node.repeatPeriod }
      fault := { s.fault with patrol := PeriodTimer.start s.copies.node.patrol }
      path := { s.path with sweep := some 0x010, scanCursor := 0, patrolCursor := 0x000, patrolPending := false }
      ring := { s.ring with rings := v } } := by
  have looped (t : State) : ∃ v : Vector RingRecord 4, firstIndices t = { t with ring := { t.ring with rings := v } } := by
    refine forEach_keeps (fun u => ∃ v : Vector RingRecord 4, u = { t with ring := { t.ring with rings := v } }) ?_ t ⟨_, rfl⟩
    rintro r u ⟨v, rfl⟩
    exact ⟨_, rfl⟩
  exact looped _

/-! ## Tables that name the same calls -/

/-- The call tables of two states hold the same ids at the same positions, in one admission order, and their distress lists the same
miners. -/
def SameCallers (s t : State) : Prop :=
  (∀ p : Fin 8, t.call.table[p].map (·.id) = s.call.table[p].map (·.id)) ∧ t.call.order = s.call.order
    ∧ t.call.distress.map (·.miner) = s.call.distress.map (·.miner)

theorem SameCallers.refl (s : State) : SameCallers s s := ⟨fun _ => rfl, rfl, rfl⟩

theorem SameCallers.of_call {s t : State} (h : t.call = s.call) : SameCallers s t := by
  rw [SameCallers, h]
  exact SameCallers.refl s

theorem SameCallers.trans {s t u : State} (h : SameCallers s t) (k : SameCallers t u) : SameCallers s u :=
  ⟨fun p => (k.1 p).trans (h.1 p), k.2.1.trans h.2.1, k.2.2.trans h.2.2⟩

theorem CallsKept.of_sameCallers {s t : State} (h : CallsKept s) (k : SameCallers s t) : CallsKept t := by
  obtain ⟨hid, hnodup, horder, hlen, hminers⟩ := h
  obtain ⟨kid, korder, kminers⟩ := k
  refine ⟨fun p q c hc d hd hcd => ?_, korder ▸ hnodup, fun p => ?_, ?_, kminers ▸ hminers⟩
  · have hp := kid p
    have hq := kid q
    rw [Option.mem_def.mp hc] at hp
    rw [Option.mem_def.mp hd] at hq
    obtain ⟨c', hc', hcid⟩ := Option.map_eq_some_iff.mp hp.symm
    obtain ⟨d', hd', hdid⟩ := Option.map_eq_some_iff.mp hq.symm
    exact hid p q c' hc' d' hd' (hcid.trans (hcd.trans hdid.symm))
  · rw [korder, horder p, ← Option.isSome_map (f := (·.id)), ← kid p, Option.isSome_map]
  · have := congrArg List.length kminers
    simp only [List.length_map] at this
    omega

/-- A call that keeps its id at its position. -/
theorem setCall_sameCallers {p : Fin 8} {c c' : Call} {s : State} (hp : s.call.table[p] = some c) (hid : c'.id = c.id) :
    SameCallers s (setCall p (some c') s) := by
  refine ⟨fun q => ?_, rfl, rfl⟩
  rw [setCall_call, set_get]
  split
  · rename_i hq
    rw [hq, hp]
    simp [hid]
  · rfl

theorem rederivePriority_sameCallers (p : Fin 8) (s : State) : SameCallers s (rederivePriority p s) := by
  unfold rederivePriority
  split
  · exact .refl s
  · rename_i c hc
    dsimp only
    split
    · exact .refl s
    · have hrec (k n : Nat) (w : Word) := (addRecord_within k n w s).1.call
      exact (SameCallers.of_call (hrec _ _ _)).trans (setCall_sameCallers (c := c) (by rw [hrec]; exact hc) rfl)

theorem rederivePriorities_sameCallers (s : State) : SameCallers s (rederivePriorities s) :=
  forEach_keeps (SameCallers s) (fun p _ h => h.trans (rederivePriority_sameCallers p _)) s (.refl s)

theorem callActivity_sameCallers (p : Fin 8) (s : State) : SameCallers s (callActivity p s) := by
  unfold callActivity
  split
  · exact .refl s
  · rename_i c hc
    exact setCall_sameCallers (c := c) hc rfl

/-! ## Calls that come and go -/

section
variable {s : State}

theorem CallsKept.of_within {l : List Area} {t : State} (h : CallsKept s) (k : Within l s t) (hl : .call ∉ l := by decide) :
    CallsKept t := h.of_sameCallers (.of_call (k.1.call hl))

theorem CallsKept.freeCall (h : CallsKept s) (p : Fin 8) (id : CallId) : CallsKept (freeCall p id s) := by
  obtain ⟨hid, hnodup, horder, hlen, hminers⟩ := h
  have table (q : Fin 8) : (Machine.freeCall p id s).call.table[q] = if q = p then none else s.call.table[q] := set_get _ p q none
  refine ⟨fun q r c hc d hd hcd => ?_, hnodup.filter _, fun q => ?_, hlen, hminers⟩
  · rw [table] at hc hd
    split at hc
    · cases hc
    · split at hd
      · cases hd
      · exact hid q r c hc d hd hcd
  · have order : (Machine.freeCall p id s).call.order = s.call.order.filter (· ≠ p) := rfl
    rw [table, order, List.mem_filter, horder q]
    split <;> simp [*]

theorem CallsKept.admitCall (h : CallsKept s) {p : Fin 8} {id : CallId} (m : Id) (o : CallOrigin) (q : Priority)
    (hp : s.call.table[p] = none) (hnew : ∀ r : Fin 8, ∀ c ∈ s.call.table[r], c.id ≠ id) :
    CallsKept (admitCall p id m o q s) := by
  obtain ⟨hid, hnodup, horder, hlen, hminers⟩ := h
  let e : Call :=
    { id := id, miner := m, origin := o, priority := q, opened := s.time, last := s.time, silence := silenceStart s }
  have table (r : Fin 8) : (Machine.admitCall p id m o q s).call.table[r] = if r = p then some e else s.call.table[r] :=
    set_get _ p r (some e)
  have order : (Machine.admitCall p id m o q s).call.order = s.call.order ++ [p] := rfl
  have hfree : p ∉ s.call.order := by simp [horder p, hp]
  refine ⟨fun r t c hc d hd hcd => ?_, ?_, fun r => ?_, hlen, hminers⟩
  · rw [table] at hc hd
    split at hc <;> split at hd
    · exact ‹r = p›.trans ‹t = p›.symm
    · cases hc
      exact absurd hcd.symm (hnew t d hd)
    · cases hd
      exact absurd hcd (hnew r c hc)
    · exact hid r t c hc d hd hcd
  · rw [order]
    exact List.nodup_append.mpr ⟨hnodup, by simp, fun a ha b hb => by rintro rfl; simp_all⟩
  · rw [table, order, List.mem_append, horder r, List.mem_singleton]
    split <;> simp [*]

/-- No entry has an id that `callPosition` does not find. -/
theorem callPosition_none {id : CallId} (h : callPosition s id = none) (r : Fin 8) : ∀ c ∈ s.call.table[r], c.id ≠ id := by
  intro c hc
  have := findIndex_none.mp h r
  rw [Option.mem_def.mp hc] at this
  simpa using this

theorem CallsKept.closeCall (h : CallsKept s) (p : Fin 8) (reason : Nat) : CallsKept (closeCall p reason s) := by
  unfold Machine.closeCall
  split
  · exact h
  · exact (h.freeCall p _).of_within (addRecord_within _ _ _ _)

theorem countCall_sameCallers {f : CallUnit → CallUnit} (htable : ∀ u, (f u).table = u.table)
    (horder : ∀ u, (f u).order = u.order) (hdistress : ∀ u, (f u).distress = u.distress) (s : State) :
    SameCallers s (countCall f s) :=
  ⟨fun p => by rw [countCall_call, htable], by rw [countCall_call, horder], by rw [countCall_call, hdistress]⟩

theorem CallsKept.callOpen (h : CallsKept s) (id : CallId) (m : Id) (o : CallOrigin) : CallsKept (callOpen id m o s) := by
  unfold Machine.callOpen
  split
  · split
    · exact h
    · rename_i p _ _ c hc
      have hset : SameCallers s (setCall p (some { c with miner := m, origin := o }) s) :=
        setCall_sameCallers (c := c) hc rfl
      exact h.of_sameCallers ((hset.trans (rederivePriorities_sameCallers _)).trans (callActivity_sameCallers _ _))
  · rename_i hnone
    dsimp only
    split
    · rename_i p hp
      exact h.admitCall m o _ (by simpa using (findIndex_some hp).1) (callPosition_none hnone)
    · split
      · rename_i p _
        unfold preemptCall
        split
        · rename_i hp
          exact h.admitCall m o _ hp (callPosition_none hnone)
        · rename_i c _
          have hcall (k n : Nat) (w : Word) (t : State) := (addRecord_within k n w t).1.call
          have hfree (r : Fin 8) : (Machine.freeCall p c.id s).call.table[r] = if r = p then none else s.call.table[r] :=
            set_get _ p r none
          refine CallsKept.admitCall ?_ m o _ ?_ fun r d hd => ?_
          · exact ((h.freeCall p _).of_within (addRecord_within _ _ _ _)).of_sameCallers
              (countCall_sameCallers (fun _ => rfl) (fun _ => rfl) (fun _ => rfl) _)
          · rw [countCall_call, hcall, hfree, if_pos rfl]
          · rw [countCall_call, hcall, hfree] at hd
            split at hd
            · cases hd
            · exact callPosition_none hnone r d hd
      · exact (h.of_within (addRecord_within _ _ _ _)).of_sameCallers
          (countCall_sameCallers (fun _ => rfl) (fun _ => rfl) (fun _ => rfl) _)

theorem callVoice_sameCallers (id : CallId) (s : State) : SameCallers s (callVoice id s) := by
  unfold callVoice
  split
  · exact callActivity_sameCallers _ s
  · exact .refl s

theorem CallsKept.callSilence (h : CallsKept s) (p : Fin 8) : CallsKept (callSilence p s) := by
  unfold Machine.callSilence
  split
  · exact h
  · split
    · rename_i c hc _
      exact h.of_sameCallers (setCall_sameCallers (c := c) hc rfl)
    · exact (h.closeCall p 2).of_sameCallers (countCall_sameCallers (fun _ => rfl) (fun _ => rfl) (fun _ => rfl) _)

/-! ## The distress list -/

/-- A distress list that is no longer than allowed and names no miner twice is one that the law admits. -/
theorem CallsKept.setDistress (h : CallsKept s) {t : State} {l : List Distress} (ht : t.call = { s.call with distress := l })
    (hlen : l.length ≤ distressSize) (hminers : (l.map (·.miner)).Nodup) : CallsKept t := by
  obtain ⟨hid, hnodup, horder, -, -⟩ := h
  simp only [CallsKept, ht]
  exact ⟨hid, hnodup, horder, hlen, hminers⟩

theorem refreshDistress_sameCallers (m : Id) (id : CallId) (d : Distress) (s : State) :
    SameCallers s (refreshDistress m id d s) := by
  have hrefresh (c : Option CallId) : SameCallers s (setDistress (s.call.distress.map fun e =>
      if e.miner = m then { e with last := s.time, call := c } else e) s) := by
    refine ⟨fun _ => rfl, rfl, ?_⟩
    simp only [setDistress_call, List.map_map]
    refine List.map_congr_left fun e _ => ?_
    simp only [Function.comp]
    split <;> rfl
  unfold refreshDistress
  dsimp only
  generalize (if id = 0 then d.call else some id) = c
  split
  · exact hrefresh _
  · exact (hrefresh _).trans (rederivePriorities_sameCallers _)

theorem distressOf_none {m : Id} (h : distressOf s m = none) : m ∉ s.call.distress.map (·.miner) := by
  intro hm
  obtain ⟨d, hd, hdm⟩ := List.mem_map.mp hm
  simpa [hdm] using List.find?_eq_none.mp h d hd

theorem CallsKept.callDistress (h : CallsKept s) (m : Id) (id : CallId) (n : NodeId) : CallsKept (callDistress m id n s) := by
  unfold Machine.callDistress
  split
  · exact h.of_sameCallers (refreshDistress_sameCallers _ _ _ s)
  · rename_i hnone
    split
    · rename_i hroom
      have hadded : CallsKept (Machine.setDistress (s.call.distress ++
          [{ miner := m, node := n, first := s.time, last := s.time, call := callField id }]) s) := by
        refine h.setDistress (setDistress_call _ _) (by simpa using hroom) ?_
        obtain ⟨-, -, -, -, hminers⟩ := h
        rw [List.map_append]
        exact List.nodup_append.mpr ⟨hminers, by simp, fun a ha b hb => by
          rintro rfl
          obtain rfl := List.mem_singleton.mp hb
          exact distressOf_none hnone ha⟩
      have hderived := (hadded.of_within (addRecord_within recDistressAdded m.toNat (distressDetail n id) _)).of_sameCallers
        (rederivePriorities_sameCallers _)
      unfold addDistress
      dsimp only
      refine CallsKept.of_within ?_ (requestFrame_within _ _)
      split
      · exact hderived.of_within (joinAlert_within _ _)
      · exact hderived
    · unfold overflowDistress
      dsimp only
      refine CallsKept.of_within (CallsKept.of_within ?_ (reportChanged_within _ _)) (requestFrame_within _ _)
      have hrecorded := h.of_within (addRecord_within recDistressOverflow m.toNat (distressDetail n id) s)
      exact hrecorded.of_sameCallers ⟨fun _ => rfl, rfl, rfl⟩

theorem CallsKept.clearDistress (h : CallsKept s) (d : Distress) : CallsKept (clearDistress d s) := by
  have hremoved : CallsKept (removeDistress d.miner s) := by
    obtain ⟨-, -, -, hlen, hminers⟩ := id h
    refine h.setDistress (removeDistress_call _ _) ((List.length_filter_le _ _).trans hlen) ?_
    exact hminers.sublist (List.filter_sublist.map _)
  have hderived := ((hremoved.of_within (addRecord_within recDistressCleared d.miner.toNat (detail [detailTime d.first]) _)).of_within
    (withdrawFrames_within (PartFrame.relays d.miner) _)).of_sameCallers (rederivePriorities_sameCallers _)
  unfold Machine.clearDistress
  dsimp only
  split
  · exact hderived.of_within (leaveAlert_within _ _)
  · exact hderived

/-! ## The law -/

theorem CallsKept.modemWriteback (h : CallsKept s) (n : Fin 64) (addr : Addr) (w : Word) :
    CallsKept (modemWriteback n addr w s) := by
  have hring {t u : State} {l : List Area} (ht : SameCallers s t) (k : SameBut l t u) (hl : .call ∉ l := by decide) :
      SameCallers s u := ht.trans (.of_call (k.call hl))
  unfold Machine.modemWriteback
  split
  · have hadvanced : SameCallers s (countRing n (fun g => { g with next := some (slotAfter s n.val) })
        (changeShadow n (fun h => { h with state := .empty, shown := none }) s)) :=
      hring (hring (.refl s) (changeShadow_sameBut _ _ _)) (countRing_beside _ _ _).1
    have hfreed (t : State) (ht : SameCallers s t) : SameCallers s (if ringOf s n.val = 0 then freeRecord n t else t) := by
      split
      · exact hring ht (freeRecord_beside _ _).1
      · exact ht
    unfold completeSlot
    dsimp only
    refine h.of_sameCallers (hfreed _ ?_)
    split
    · unfold callSent
      split
      · exact hadvanced.trans (callVoice_sameCallers _ _)
      · exact hadvanced
    · split
      · exact hring hadvanced (countRing_beside _ _ _).1
      · exact hadvanced
  · exact h.of_within (recordFault_within _ _ s)

theorem CallsKept.takeFrame (h : CallsKept s) (f : Frame) : CallsKept (takeFrame f s) := by
  cases f with
  | callOpen id m o => exact h.callOpen id m o
  | callClose id =>
    simp only [Machine.takeFrame, callClose]
    split
    · exact h.closeCall _ _
    · exact h
  | voice id => exact h.of_sameCallers (callVoice_sameCallers _ s)
  | distress m id n => exact h.callDistress m id n
  | truckBeacon | checkIn | checkOut | refugeStatus | evacuate | airAlarm =>
    exact h.of_within (takeFrame_within _ s) (by simp [frameAreas])

theorem CallsKept.runActed (h : CallsKept s) {l : List Area} {t : State} (ha : RunActed s l t) : CallsKept t := by
  by_cases hl : Area.call ∈ l
  · cases ha with
    | clearDistress d => exact h.clearDistress d
    | closeCall p reason => exact h.closeCall p reason
    | callSilence p => exact h.callSilence p
    | modemWriteback n addr w => exact h.modemWriteback n addr w
    | frame f => exact (h.of_within (clearHandover_within f s)).takeFrame f
    | _ => simp at hl
  · exact h.of_sameCallers (.of_call (ha.sameBut.call hl))

theorem CallsKept.acted (h : CallsKept s) {t : State} (ha : Acted s t) : CallsKept t := by
  cases ha with
  | nothing => exact h
  | start =>
    obtain ⟨v, hv⟩ := enterRun_eq s
    exact CallsKept.of_within (s := enterRun s) (by rw [hv]; exact h) (runEntry_within s)
  | restart => simp [CallsKept, warmReset, resetPart]
  | drain => exact h.of_sameCallers (.of_call (drainOldest_sameBut s).call)
  | inRun _ ha => exact h.runActed ha

theorem tickTenths_sameCallers (s : State) : SameCallers s (tickTenths s) := by
  refine ⟨fun p => ?_, rfl, rfl⟩
  simp only [tickTenths, Fin.getElem_fin, mapTable_get]
  cases s.call.table[p.val] <;> rfl

theorem callsKept_kept : Kept CallsKept where
  reset _ _ _ _ _ _ := by simp [CallsKept, resetPart]
  memory _ _ h := h
  staged _ h := h
  copies _ _ h := h
  readData _ h := h
  arming _ h := h
  pins _ h := h
  capture _ _ h := h
  patrol hrun hq h := patrolRead_cases hrun hq h fun _ _ _ _ ht =>
    event_keeps_of_sameBut (fun _ _ hsame hs => hs.of_sameCallers (.of_call hsame.call))
      (CallsKept.of_within (s := beginEvent _) ht (mirrorMismatch_within _ _ _))
  patrolDue h := h
  sweep h := h.of_sameCallers (.of_call (sweepPut_sameBut _).call)
  tick _ := tick_keeps (fun _ h => h) (fun s h => h.of_sameCallers (tickTenths_sameCallers s)) (fun _ h => h)
  event ha h := by
    obtain ⟨t, w, ht, hf⟩ := ha
    refine event_keeps_of_sameBut (fun _ _ hsame hs => hs.of_sameCallers (.of_call hsame.call)) ?_
    rw [hf]
    exact (CallsKept.acted (s := beginEvent _) h ht : CallsKept t)

end

/-- Settles O56: positions are freed together with their place in the order, a new call has an id that no entry has, and a miner is
listed only where no entry names it. -/
theorem callTableKept : Obligations.CallTableKept :=
  fun _ _ h ht => callsKept_kept.step (fun _ hs => hs) h ht

end Sys2Proof.Machine
end

section
/-! PROOFS. The laws of memory, of the grades and of the occupant lists; the machine's step and the state after reset. -/

set_option Elab.async false

namespace Sys2Proof.Machine

open Sys2Proof.Config

/-! ## The machine's step -/

/-- Settles O1: both clauses are the two cases of `step`. -/
theorem stepRunsTheFrontCommand : Obligations.StepRunsTheFrontCommand := by
  refine ⟨fun c rest s => rfl, fun s h => ?_⟩
  unfold step
  rw [h]

/-- No action touches the waiting commands. -/
theorem Acted.pending {s t : State} (h : Acted s t) : t.pending = s.pending := by
  cases h with
  | nothing => rfl
  | start =>
    obtain ⟨v, hv⟩ := enterRun_eq s
    rw [(runEntry_within s).1.pending, hv]
  | restart => rfl
  | drain => exact (drainOldest_sameBut s).pending
  | inRun _ h => exact h.sameBut.pending

/-- Each plain change and each event keeps the queue of waiting commands. -/
theorem pending_kept (l : List Instr) : Kept (fun s => s.pending = l) where
  reset _ _ _ _ _ h := h
  memory _ _ h := h
  staged _ h := h
  copies _ _ h := h
  readData _ h := h
  arming _ h := h
  pins _ h := h
  capture _ _ h := h
  patrol hrun hq h := patrolRead_cases hrun hq h fun t w _ _ ht =>
    event_keeps_of_sameBut (P := fun s => s.pending = l) (fun _ _ hsame hs => hsame.pending.trans hs)
      ((mirrorMismatch_within _ w (beginEvent t)).1.pending.trans ht)
  patrolDue h := h
  sweep {s} h := (sweepPut_sameBut s).pending.trans h
  tick _ := tick_keeps (P := fun s => s.pending = l) (fun _ h => h) (fun _ h => h) (fun _ h => h)
  event ha h := by
    obtain ⟨t, w, ht, hf⟩ := ha
    refine event_keeps_of_sameBut (P := fun s => s.pending = l) (fun _ _ hsame hs => hsame.pending.trans hs) ?_
    rw [hf]
    exact ht.pending.trans h

/-- Settles O2: no arm of `exec` stops, and no plain change and no event touches the waiting commands. -/
theorem commandsCompleteAndKeepTheQueue : Obligations.CommandsCompleteAndKeepTheQueue :=
  fun c s => (pending_kept s.pending).exec rfl c

/-- Settles O3: both are the fields that `resetPart` gives. -/
theorem resetsLeaveSetup : Obligations.ResetsLeaveSetup := fun _ _ => ⟨rfl, rfl⟩

/-! ## Memory's canonical form -/

theorem enterNew_wf {w : OwnWrite} {s : State} (h : Memory.wf s.mem = true) : Memory.wf (enterNew w s).mem = true := by
  unfold enterNew
  split
  · exact h
  · rw [(recordFault_within _ _ _).2.1]
    exact drainOldest_wf h

theorem enterQueue_wf {w : OwnWrite} {s : State} (h : Memory.wf s.mem = true) : Memory.wf (enterQueue w s).mem = true := by
  unfold enterQueue
  split
  · split <;> exact h
  · exact enterNew_wf h

theorem enterPost_wf {s0 : State} {p : Post} {s : State} (h : Memory.wf s.mem = true) :
    Memory.wf (enterPost s0 p s).mem = true := by
  obtain ⟨w, -, hw⟩ | ⟨o, -, ho | ho⟩ := enterPost_cases s0 p s
  · exact hw ▸ enterQueue_wf h
  · exact ho ▸ enterQueue_wf (s := { s with path := { s.path with shown := (o, mirror s o) :: s.path.shown } }) h
  · exact ho.symm ▸ h

/-- What the units still do at the end of an event leaves memory and the own-write queue as they were. -/
theorem settleUnits_beside {s0 s t : State} (h : settleUnits s0 s = some t) : Beside [] s t := by
  unfold settleUnits at h
  split at h
  · cases h
  split at h
  · cases h
    exact (deriveLevel_within s).beside
  split at h
  · cases h
    exact (serveSegment_within _ s).beside
  split at h
  · rename_i hp
    cases h
    exact (forgetTruck_within hp).beside
  split at h
  · cases h
    exact (setMuster_within _ s).beside
  split at h
  · cases h
    exact (setRing_beside rfl rfl (.inl rfl)).trans (takeRequest_within _ _).beside
  split at h
  · cases h
    unfold buildFrame
    split
    · exact .refl [] s
    · dsimp only
      have posts (u : State) (l : List Post) : Beside [] u { u with path := { u.path with posts := u.path.posts ++ l } } := by
        simp [Beside, SameBut, SameBase, SameLevel, SameRoad, SameFault, SamePath]
      refine Beside.trans ?_ (reportChanged_within _ _).beside
      refine Beside.trans ?_ (posts _ _)
      refine Beside.trans ?_ (changeShadow_beside _ _ _)
      exact setRing_beside rfl rfl (.inl rfl)
  · cases h

/-- One thing that the end of an event does: a follow-up value enters, a unit works, or a word or the outcome enters. -/
theorem settleStep_cases {s0 s t : State} (h : settleStep s0 s = some t) :
    (followUpFree s = true ∧ t = enterFollowUp s)
      ∨ (followUpFree s = false ∧ settleUnits s0 s = some t)
      ∨ (followUpFree s = false ∧ settleUnits s0 s = none ∧ settlePath s0 s = some t) := by
  unfold settleStep at h
  split at h
  · cases h
    exact .inl ⟨‹_›, rfl⟩
  · rename_i hfree
    have hfree : followUpFree s = false := by simpa using hfree
    split at h
    · cases h
      exact .inr (.inl ⟨hfree, ‹_›⟩)
    · exact .inr (.inr ⟨hfree, ‹_›, h⟩)

/-- What enters at the end of an event: a post, a report word, the outcome word; or the words kept in mind are let go. -/
theorem settlePath_cases {s0 s t : State} (h : settlePath s0 s = some t) :
    (∃ p rest, s.path.posts = p :: rest ∧ t = enterPost s0 p { s with path := { s.path with posts := rest } })
      ∨ (∃ p rest, s.path.posts = [] ∧ s.path.reports = p :: rest
          ∧ t = enterPost s0 p { s with path := { s.path with reports := rest } })
      ∨ (∃ w, s.path.posts = [] ∧ s.path.reports = [] ∧ s.path.outcome = some w
          ∧ t = enterQueue { addr := settingAddr s 0xF04, data := w, kind := .coalescing }
            { s with path := { s.path with outcome := none } })
      ∨ (s.path.posts = [] ∧ s.path.reports = [] ∧ s.path.outcome = none ∧ s.path.shown ≠ []
          ∧ t = { s with path := { s.path with shown := [] } }) := by
  unfold settlePath at h
  split at h
  · cases h
    exact .inl ⟨_, _, ‹_›, rfl⟩
  · split at h
    · cases h
      exact .inr (.inl ⟨_, _, ‹_›, ‹_›, rfl⟩)
    · split at h
      · cases h
        exact .inr (.inr (.inl ⟨_, ‹_›, ‹_›, ‹_›, rfl⟩))
      · split at h
        · cases h
        · rename_i hshown
          cases h
          exact .inr (.inr (.inr ⟨‹_›, ‹_›, ‹_›, by simpa using hshown, rfl⟩))

theorem settleStep_wf {s0 s t : State} (h : Memory.wf s.mem = true) (ht : settleStep s0 s = some t) :
    Memory.wf t.mem = true := by
  rcases settleStep_cases ht with ⟨-, rfl⟩ | ⟨-, hu⟩ | ⟨-, -, hp⟩
  · unfold enterFollowUp
    split
    · exact enterNew_wf (s := { s with path := { s.path with followUp := none } }) h
    · exact h
  · obtain ⟨-, hm, -⟩ := settleUnits_beside hu
    exact hm.symm ▸ h
  · rcases settlePath_cases hp with ⟨p, rest, -, rfl⟩ | ⟨p, rest, -, -, rfl⟩ | ⟨w, -, -, -, rfl⟩ | ⟨-, -, -, -, rfl⟩
    · exact enterPost_wf (s := { s with path := { s.path with posts := rest } }) h
    · exact enterPost_wf (s := { s with path := { s.path with reports := rest } }) h
    · exact enterQueue_wf (s := { s with path := { s.path with outcome := none } }) h
    · exact h

theorem sweepPut_mem (s : State) : (sweepPut s).mem = s.mem := by
  unfold sweepPut
  split
  · rfl
  · split
    · split <;> rfl
    · rfl

/-- An event whose action leaves memory canonical leaves it canonical. -/
theorem event_wf {f : State → State} {s : State} (h : Memory.wf (f (beginEvent s)).mem = true) :
    Memory.wf (event f s).mem = true :=
  event_keeps (P := fun s => Memory.wf s.mem = true) (fun _ _ _ hs ht => settleStep_wf hs ht)
    (fun s hs => (sweepPut_mem s).symm ▸ hs) (fun _ hs => hs) h

theorem Acted.wf {s t : State} (h : Acted s t) (hs : Memory.wf s.mem = true) : Memory.wf t.mem = true := by
  cases h with
  | nothing => exact hs
  | start =>
    obtain ⟨v, hv⟩ := enterRun_eq s
    rw [(runEntry_within s).2.1, hv]
    exact hs
  | restart => exact hs
  | drain => exact drainOldest_wf hs
  | inRun _ h =>
    obtain ⟨-, hm, -⟩ := h.beside
    exact hm.symm ▸ hs

theorem memory_kept : Kept (fun s => Memory.wf s.mem = true) where
  reset _ _ _ _ _ h := h
  memory _ _ h := memWriteLanes_wf _ _ _ h
  staged _ h := h
  copies _ _ h := h
  readData _ h := h
  arming _ h := h
  pins _ h := h
  capture _ _ h := h
  patrol hrun hq h := patrolRead_cases (P := fun s => Memory.wf s.mem = true) hrun hq h fun t w _ _ ht =>
    event_wf ((mirrorMismatch_within _ w (beginEvent t)).2.1.symm ▸ ht)
  patrolDue h := h
  sweep {s} h := (sweepPut_mem s).symm ▸ h
  tick _ := tick_keeps (P := fun s => Memory.wf s.mem = true) (fun _ h => h) (fun _ h => h) (fun _ h => h)
  event ha h := by
    obtain ⟨t, w, ht, hf⟩ := ha
    refine event_wf ?_
    rw [hf]
    exact ht.wf h

/-- Settles O51: memory changes by writes of lanes and of words alone, and each keeps the form. -/
theorem memoryStaysCanonical : Obligations.MemoryStaysCanonical :=
  fun _ _ h ht => memory_kept.step (fun _ hs => hs) h ht

/-! ## Latched and live grades (Law 1) -/

/-- The channel's latched grade is at least its live grade. -/
def Covers (c : Channel) : Prop := Grade.code c.live ≤ Grade.code c.latched

theorem LatchedCoversLive.of_channels {s t : State} (h : LatchedCoversLive s) (k : t.channels = s.channels) :
    LatchedCoversLive t := by
  unfold LatchedCoversLive
  rw [k]
  exact h

theorem LatchedCoversLive.of_within {s t : State} {l : List Area} (h : LatchedCoversLive s) (k : Within l s t)
    (hl : .air ∉ l := by decide) : LatchedCoversLive t := h.of_channels (k.1.channels hl)

theorem LatchedCoversLive.changeChannel {s : State} (h : LatchedCoversLive s) (i : Fin 24) {f : Channel → Channel}
    (hf : ∀ c, Covers c → Covers (f c)) : LatchedCoversLive (changeChannel i f s) := by
  intro j
  rw [changeChannel_channels, modifyAt_get]
  split
  · exact hf _ (h i)
  · exact h j

theorem code_le_sup_right (a b : Grade) : Grade.code b ≤ Grade.code (Grade.sup a b) := by
  unfold Grade.sup
  split <;> omega

/-- The latched grade follows the live grade where that rises (R16). -/
theorem recomputeLive_covers (set : ChannelSet) (c : Channel) : Covers (recomputeLive set c) := code_le_sup_right _ _

/-- What a reading does before the live grade is recomputed leaves both grades. -/
theorem takeReading_covers (set : ChannelSet) (v : Verdict) (r : BitVec 12) (q : BitVec 4) {c : Channel} (h : Covers c) :
    Covers (takeReading set v r q c) := by
  unfold takeReading applyWaiting
  dsimp only
  cases c.waiting <;> cases v <;> exact h

theorem takeChamberValue_covers (set : ChannelSet) (w : BitVec 16) {c : Channel} (h : Covers c) :
    Covers (takeChamberValue set w c) := by
  unfold takeChamberValue applyWaiting
  dsimp only
  cases c.waiting <;> split <;> exact h

theorem rateChannel_covers (set : ChannelSet) {c : Channel} (h : Covers c) : Covers (rateChannel set c) := by
  unfold rateChannel
  dsimp only
  split
  · exact h
  · split
    · exact recomputeLive_covers _ _
    · split
      · exact recomputeLive_covers _ _
      · exact recomputeLive_covers _ _

theorem stopRateChannel_covers (set : ChannelSet) {c : Channel} (h : Covers c) : Covers (stopRateChannel set c) := by
  unfold stopRateChannel
  dsimp only
  split
  · exact h
  · exact recomputeLive_covers _ _

section
variable {s : State}

theorem LatchedCoversLive.evaluateAgreement (h : LatchedCoversLive s) (i j : Fin 24) :
    LatchedCoversLive (evaluateAgreement i j s) := by
  unfold Machine.evaluateAgreement
  dsimp only
  split
  · exact h
  · split
    · exact (h.changeChannel i (by intro _ hc; exact hc)).changeChannel j (by intro _ hc; exact hc)
    · exact (h.changeChannel i (by intro _ hc; exact hc)).changeChannel j (by intro _ hc; exact hc)

theorem LatchedCoversLive.recomputeChannel (h : LatchedCoversLive s) (i : Fin 24) : LatchedCoversLive (recomputeChannel i s) :=
  h.changeChannel i (by intro _ _; exact recomputeLive_covers _ _)

theorem LatchedCoversLive.arrival (h : LatchedCoversLive s) (i : Fin 24) (graded : Bool) {f : Channel → Channel}
    (hf : ∀ c, Covers c → Covers (f c)) : LatchedCoversLive (arrival i graded f s) := by
  unfold Machine.arrival
  dsimp only
  split
  · exact ((h.changeChannel i hf).recomputeChannel i).of_within (handOn_within _ _ _)
  · have hagreed (j : Fin 24) := ((h.changeChannel i hf).evaluateAgreement i j).recomputeChannel i
    split
    · exact (hagreed _).of_within (handOn_within _ _ _)
    · exact (((hagreed _).recomputeChannel _).of_within (handOn_within _ _ _)).of_within (handOn_within _ _ _)

theorem LatchedCoversLive.eachChannel (h : LatchedCoversLive s) {f : ChannelSet → Channel → Channel}
    (hf : ∀ set c, Covers c → Covers (f set c)) : LatchedCoversLive (eachChannel f s) :=
  forEach_keeps LatchedCoversLive (fun i t ht => ht.changeChannel i (hf (channelSet t i))) s h

theorem LatchedCoversLive.rateExpiry (h : LatchedCoversLive s) : LatchedCoversLive (rateExpiry s) := by
  have hrated : LatchedCoversLive (Machine.eachChannel rateChannel s) := h.eachChannel fun set _ => rateChannel_covers set
  have handed {t : State} (ht : LatchedCoversLive t) : LatchedCoversLive (forEach 24 (fun i t => handOn i s.channels[i] t) t) :=
    forEach_keeps LatchedCoversLive (fun i t ht => ht.of_within (handOn_within i _ t)) t ht
  have expired {t : State} (r : PeriodTimer) (ht : LatchedCoversLive t) : LatchedCoversLive { t with rate := r } := ht
  unfold Machine.rateExpiry
  dsimp only
  refine LatchedCoversLive.of_within (expired _ (handed ?_)) (airReaders_within _ _ _)
  split
  · exact hrated.eachChannel fun set _ => stopRateChannel_covers set
  · exact hrated

theorem LatchedCoversLive.acknowledge (h : LatchedCoversLive s) (i : Fin 24) (shown : Nat) :
    LatchedCoversLive (acknowledge i shown s) := by
  have hdropped : LatchedCoversLive (Machine.changeChannel i (fun c => { c with latched := c.live }) s) :=
    h.changeChannel i (by intro _ _; exact le_refl _)
  unfold Machine.acknowledge
  dsimp only
  split
  · refine LatchedCoversLive.of_within ?_ (airReaders_within _ _ _)
    refine LatchedCoversLive.of_within ?_ (postChanged_within _ _)
    refine LatchedCoversLive.of_within ?_ (addRecord_within _ _ _ _)
    split
    · exact hdropped
    · exact hdropped.of_within (addRecord_within _ _ _ _)
  · exact h

theorem LatchedCoversLive.chamberValue (h : LatchedCoversLive s) (c : Fin 4) (g : Gas) (w : BitVec 16) :
    LatchedCoversLive (chamberValue c g w s) := by
  unfold Machine.chamberValue
  split
  · exact h
  · exact h.arrival _ _ (by intro _ hc; exact takeChamberValue_covers _ _ hc)

theorem LatchedCoversLive.takeStatus (h : LatchedCoversLive s) (c : Fin 4) (a : AirlockReport) (o2 co n : BitVec 16) :
    LatchedCoversLive (takeStatus c a o2 co n s) := by
  unfold Machine.takeStatus
  dsimp only
  refine LatchedCoversLive.of_within ?_ (forEach_within (l := [.refuge, .level]) (fun k u => deriveAlarm_within k u) _)
  refine LatchedCoversLive.of_within ?_ (deriveMismatch_within _ _)
  refine LatchedCoversLive.of_within ?_ (reportChamber_within _ _ _ _)
  refine LatchedCoversLive.of_within ?_ (airReaders_within _ _ _)
  exact (h.chamberValue _ _ _).chamberValue _ _ _

theorem LatchedCoversLive.rawReading (h : LatchedCoversLive s) (n : Fin 16) (w : Word) :
    LatchedCoversLive (rawReading n w s) := by
  unfold Machine.rawReading
  split
  · exact h
  · split
    · exact h
    · refine LatchedCoversLive.of_within ?_ (airReaders_within _ _ _)
      exact h.arrival _ _ fun _ hc => takeReading_covers _ _ _ _ hc

theorem LatchedCoversLive.staleExpiry (h : LatchedCoversLive s) (i : Fin 24) : LatchedCoversLive (staleExpiry i s) := by
  unfold Machine.staleExpiry
  refine LatchedCoversLive.of_within ?_ (airReaders_within _ _ _)
  exact h.arrival _ _ fun _ hc => hc

theorem LatchedCoversLive.takeFrame (h : LatchedCoversLive s) (f : Frame) : LatchedCoversLive (takeFrame f s) := by
  have guarded (b : Bool) {t : State} (ht : LatchedCoversLive t) : LatchedCoversLive (if b then t else s) := by
    split
    · exact ht
    · exact h
  cases f with
  | refugeStatus c a o2 co n => exact guarded _ (h.takeStatus c a o2 co n)
  | checkIn | checkOut | truckBeacon | callOpen | callClose | voice | distress | evacuate | airAlarm =>
    exact h.of_channels ((takeFrame_within _ s).1.channels (by simp [frameAreas]))

theorem LatchedCoversLive.adjustChannel (h : LatchedCoversLive s) (i : Fin 24) (w : Option Thresholds) :
    LatchedCoversLive (Machine.changeChannel i (fun c => { c with waiting := w }) s) :=
  h.changeChannel i (by intro _ hc; exact hc)

theorem LatchedCoversLive.runActed (h : LatchedCoversLive s) {l : List Area} {t : State} (ha : RunActed s l t) :
    LatchedCoversLive t := by
  by_cases hl : Area.air ∈ l
  · cases ha with
    | adjustPeriods =>
      refine LatchedCoversLive.of_within ?_ (adjustmentRecord_within _ _ _)
      exact h
    | adjustChannel =>
      refine LatchedCoversLive.of_within ?_ (adjustmentRecord_within _ _ _)
      exact h.adjustChannel _ _
    | rawReading n w => exact h.rawReading n w
    | acknowledge i shown => exact h.acknowledge i shown
    | staleExpiry i => exact h.staleExpiry i
    | rateExpiry => exact h.rateExpiry
    | frame f => exact (h.of_within (clearHandover_within f s)).takeFrame f
    | _ => simp at hl
  · exact h.of_channels (ha.sameBut.channels hl)

theorem LatchedCoversLive.acted (h : LatchedCoversLive s) {t : State} (ha : Acted s t) : LatchedCoversLive t := by
  cases ha with
  | nothing => exact h
  | start =>
    obtain ⟨v, hv⟩ := enterRun_eq s
    refine LatchedCoversLive.of_within (s := enterRun s) (fun i => ?_) (runEntry_within s)
    rw [hv]
    simp [startChannel]
  | restart => simp [LatchedCoversLive, warmReset, resetPart]
  | drain => exact h.of_channels (drainOldest_sameBut s).channels
  | inRun _ ha => exact h.runActed ha

end

theorem latchedCoversLive_kept : Kept LatchedCoversLive where
  reset _ _ _ _ _ _ := by simp [LatchedCoversLive, resetPart]
  memory _ _ h := h
  staged _ h := h
  copies _ _ h := h
  readData _ h := h
  arming _ h := h
  pins _ h := h
  capture _ _ h := h
  patrol hrun hq h := patrolRead_cases hrun hq h fun t w _ _ ht =>
    event_keeps_of_sameBut (fun _ _ hsame hs => hs.of_channels hsame.channels)
      (LatchedCoversLive.of_within (s := beginEvent t) ht (mirrorMismatch_within _ w _))
  patrolDue h := h
  sweep {s} h := h.of_channels (sweepPut_sameBut s).channels
  tick _ := tick_keeps (fun _ h => h) (fun _ h => h) (fun s h i => by
    have := h i
    simpa [tickSeconds] using this)
  event {s f} ha h := by
    obtain ⟨t, w, ht, hf⟩ := ha
    refine event_keeps_of_sameBut (fun _ _ hsame hs => hs.of_channels hsame.channels) ?_
    rw [hf]
    exact (LatchedCoversLive.acted (s := beginEvent s) h ht : LatchedCoversLive t)

/-- Settles O52: a live grade changes where it is recomputed, with the latched grade following a rise, and an acknowledgement gives the
latched grade the live one. -/
theorem heldGradeCoversLive : Obligations.HeldGradeCoversLive :=
  fun _ _ h ht => latchedCoversLive_kept.step (fun _ hs => hs) h ht

/-! ## Occupant lists (Law 6) -/

/-- Two states have the same occupant lists, under the same capacities. -/
def SameOccupants (s t : State) : Prop :=
  t.run = s.run ∧ t.effective = s.effective ∧ ∀ c : Fin 4, t.chambers[c].occupants = s.chambers[c].occupants

theorem SameOccupants.refl (s : State) : SameOccupants s s := ⟨rfl, rfl, fun _ => rfl⟩

theorem SameOccupants.trans {s t u : State} (h : SameOccupants s t) (k : SameOccupants t u) : SameOccupants s u :=
  ⟨k.1.trans h.1, k.2.1.trans h.2.1, fun c => (k.2.2 c).trans (h.2.2 c)⟩

theorem SameBut.occupants {s t : State} {l : List Area} (h : SameBut l s t) (hl : .refuge ∉ l := by decide) :
    SameOccupants s t := ⟨h.run, h.effective, fun c => by rw [h.chambers hl]⟩

theorem ChambersKept.of_occupants {s t : State} (h : ChambersKept s) (k : SameOccupants s t) : ChambersKept t := by
  obtain ⟨hrun, heff, hocc⟩ := k
  simp only [ChambersKept, hrun, heff, hocc]
  exact h

theorem changeChamber_occupants (c : Fin 4) {f : Chamber → Chamber} (hf : ∀ h, (f h).occupants = h.occupants) (s : State) :
    SameOccupants s (changeChamber c f s) := by
  refine ⟨rfl, rfl, fun d => ?_⟩
  rw [changeChamber_chambers, modifyAt_get]
  split
  · rename_i hd
    rw [hd, hf]
  · rfl

section
variable {s : State}

/-- What follows within no area of the refuge unit leaves the lists as they were. -/
theorem SameOccupants.andThen {t u : State} {l : List Area} (h : SameOccupants s t) (k : Within l t u)
    (hl : .refuge ∉ l := by decide) : SameOccupants s u := h.trans (k.1.occupants hl)

theorem deriveAlarm_occupants (c : Fin 4) (s : State) : SameOccupants s (deriveAlarm c s) := by
  unfold deriveAlarm
  dsimp only
  split
  · exact .refl s
  · have hchanged (a : Bool) (r : Reasons) : SameOccupants s (changeChamber c (fun h => { h with alarm := a, reasons := r }) s) :=
      changeChamber_occupants c (by intro _; rfl) s
    split
    · exact (((hchanged _ _).andThen (addRecord_within _ _ _ _)).andThen (joinAlert_within _ _)).andThen
        (requestFrame_within _ _)
    · split
      · exact ((hchanged _ _).andThen (addRecord_within _ _ _ _)).andThen (leaveAlert_within _ _)
      · exact hchanged _ _

theorem deriveMismatch_occupants (c : Fin 4) (s : State) : SameOccupants s (deriveMismatch c s) := by
  unfold deriveMismatch
  dsimp only
  split <;> split
  · exact .refl s
  · exact (changeChamber_occupants c (by intro _; rfl) s).andThen (addRecord_within _ _ _ _)
  · exact .refl s
  · exact (changeChamber_occupants c (by intro _; rfl) s).andThen (addRecord_within _ _ _ _)

theorem deriveChambers_occupants (cs : List (Fin 4)) (s : State) : SameOccupants s (deriveChambers cs s) := by
  have hfirst := foldl_keeps (f := fun s c => deriveMismatch c s) (SameOccupants s)
    (fun t c ht => ht.trans (deriveMismatch_occupants c t)) cs s (.refl s)
  exact foldl_keeps (f := fun s c => deriveAlarm c s) (SameOccupants s) (fun t c ht => ht.trans (deriveAlarm_occupants c t))
    cs _ hfirst

theorem airReaders_occupants (alarms : Bool) (s0 s : State) : SameOccupants s (airReaders alarms s0 s) := by
  unfold airReaders
  dsimp only
  have htold := (((SameOccupants.refl s).andThen (reevaluate_within (channelTouched s0 s) s)).andThen
    (foldl_within (l := [.level]) (fun i u => alertChannel_within u i) (gradesChanged s0 s) _)).andThen
      (regate_within (gradesChanged s0 s) _)
  split
  · refine forEach_keeps (SameOccupants s) (fun c t ht => ?_) _ htold
    split
    · exact ht.trans (deriveAlarm_occupants c t)
    · exact ht
  · exact htold

theorem reportChamber_occupants (c : Fin 4) (a : AirlockReport) (n : BitVec 16) (s : State) :
    SameOccupants s (reportChamber c a n s) := by
  have hreported (t : Timer) : SameOccupants s (changeChamber c (fun h => { h with
      lastReport := some s.time, headcount := some n, silent := false, silenceTimer := t }) s) :=
    changeChamber_occupants c (by intro _; rfl) s
  have hflagged {t : State} (b : Bool) (k : Nat) (v : Bool) (ht : SameOccupants s t) :
      SameOccupants s (if b then flagRecord c k v t else t) := by
    split
    · exact ht.andThen (flagRecord_within _ _ _ _)
    · exact ht
  unfold reportChamber
  dsimp only
  split
  · exact (hflagged _ _ _ (hreported _)).trans (changeChamber_occupants c (by intro _; rfl) _)
  · exact hflagged _ _ _ ((hflagged _ _ _ (hreported _)).trans (changeChamber_occupants c (by intro _; rfl) _))

theorem takeStatus_occupants (c : Fin 4) (a : AirlockReport) (o2 co n : BitVec 16) (s : State) :
    SameOccupants s (takeStatus c a o2 co n s) := by
  unfold takeStatus
  dsimp only
  refine forEach_keeps (SameOccupants s) (fun k t ht => ht.trans (deriveAlarm_occupants k t)) _ ?_
  refine SameOccupants.trans ?_ (deriveMismatch_occupants c _)
  refine SameOccupants.trans ?_ (reportChamber_occupants c _ _ _)
  refine SameOccupants.trans ?_ (airReaders_occupants _ _ _)
  exact ((SameOccupants.refl s).andThen (chamberValue_within _ _ _ _)).andThen (chamberValue_within _ _ _ _)

/-- A miner that leaves a list stands in it no longer, and every list keeps the law. -/
theorem ChambersKept.removeMiner (h : ChambersKept s) (c : Fin 4) (m : Id) :
    ChambersKept (removeMiner c m s) ∧ ∀ d : Fin 4, m ∈ (removeMiner c m s).chambers[d].occupants → d ≠ c := by
  obtain ⟨hnodup, hother, hcap⟩ := h
  have hget (d : Fin 4) : (Machine.removeMiner c m s).chambers[d].occupants =
      if d = c then s.chambers[c].occupants.filter (· ≠ m) else s.chambers[d].occupants := by
    unfold Machine.removeMiner
    rw [changeChamber_chambers, modifyAt_get]
    split <;> rfl
  have hsub (d : Fin 4) : (Machine.removeMiner c m s).chambers[d].occupants.Sublist s.chambers[d].occupants := by
    rw [hget]
    split
    · rename_i hd
      rw [hd]
      exact List.filter_sublist
    · exact List.Sublist.refl _
  refine ⟨⟨fun d => (hnodup d).sublist (hsub d), fun d e hde x hx hx' => ?_, fun hrun d => ?_⟩, fun d hd hdc => ?_⟩
  · exact hother d e hde x ((hsub d).subset hx) ((hsub e).subset hx')
  · exact (hsub d).length_le.trans (hcap hrun d)
  · rw [hget, if_pos hdc] at hd
    simp at hd

/-- A miner that no list names joins a list with room, or the overflow. -/
theorem ChambersKept.joinChamber (h : ChambersKept s) (c : Fin 4) (m : Id) (r : Bool)
    (hnew : ∀ d : Fin 4, m ∉ s.chambers[d].occupants) : ChambersKept (joinChamber c m r s) := by
  unfold Machine.joinChamber
  dsimp only
  split
  · rename_i hroom
    have hjoined : ChambersKept (changeChamber c (fun h => { h with occupants := h.occupants ++ [m] }) s) := by
      obtain ⟨hnodup, hother, hcap⟩ := h
      have hget (d : Fin 4) : (changeChamber c (fun h => { h with occupants := h.occupants ++ [m] }) s).chambers[d].occupants =
          if d = c then s.chambers[c].occupants ++ [m] else s.chambers[d].occupants := by
        rw [changeChamber_chambers, modifyAt_get]
        split <;> rfl
      refine ⟨fun d => ?_, fun d e hde x hx hx' => ?_, fun hrun d => ?_⟩
      · rw [hget]
        split
        · exact List.nodup_append.mpr ⟨hnodup c, by simp, fun a ha b hb => by
            rintro rfl
            exact hnew c (List.mem_singleton.mp hb ▸ ha)⟩
        · exact hnodup d
      · rw [hget] at hx hx'
        split at hx <;> split at hx'
        · exact hde (‹d = c›.trans ‹e = c›.symm)
        · rcases List.mem_append.mp hx with hx | hx
          · exact hother c e (fun hce => ‹¬e = c› hce.symm) x hx hx'
          · exact hnew e (List.mem_singleton.mp hx ▸ hx')
        · rcases List.mem_append.mp hx' with hx' | hx'
          · exact hother d c ‹¬d = c› x hx hx'
          · exact hnew d (List.mem_singleton.mp hx' ▸ hx)
        · exact hother d e hde x hx hx'
      · rw [hget, changeChamber_effective]
        split
        · rename_i hd
          rw [hd, List.length_append, List.length_singleton]
          exact hroom
        · exact hcap hrun d
    split
    · exact hjoined
    · exact hjoined.of_occupants (addRecord_within _ _ _ _).1.occupants
  · exact h.of_occupants ((changeChamber_occupants c (by intro _; rfl) s).andThen (addRecord_within _ _ _ _))

theorem ChambersKept.checkIn (h : ChambersKept s) (c : Fin 4) (m : Id) : ChambersKept (checkIn c m s) := by
  unfold Machine.checkIn
  split
  · rename_i d hd
    split
    · exact h
    · dsimp only
      have hin : m ∈ s.chambers[d].occupants := by simpa using (findIndex_some hd).1
      obtain ⟨hremoved, hgone⟩ := h.removeMiner d m
      have hrecorded (k n : Nat) (w : Word) := (addRecord_within k n w (Machine.removeMiner d m s)).1.occupants
      refine ChambersKept.of_occupants ?_ (deriveChambers_occupants _ _)
      refine (hremoved.of_occupants (hrecorded _ _ _)).joinChamber c m true fun e he => ?_
      rw [(hrecorded _ _ _).2.2] at he
      have hed := hgone e he
      have hsame : (Machine.removeMiner d m s).chambers[e].occupants = s.chambers[e].occupants := by
        unfold Machine.removeMiner
        rw [changeChamber_chambers, modifyAt_get, if_neg hed]
      obtain ⟨-, hother, -⟩ := h
      exact hother d e hed.symm m hin (hsame ▸ he)
  · rename_i hnone
    refine (h.joinChamber c m false fun d hd => ?_).of_occupants (deriveChambers_occupants _ _)
    exact absurd hd (by simpa using findIndex_none.mp hnone d)

theorem ChambersKept.checkOut (h : ChambersKept s) (c : Fin 4) (m : Id) : ChambersKept (checkOut c m s) := by
  unfold Machine.checkOut
  dsimp only
  split
  · exact ((h.removeMiner c m).1.of_occupants (addRecord_within _ _ _ _).1.occupants).of_occupants
      (deriveChambers_occupants _ _)
  · split
    · exact h
    · exact h.of_occupants (((changeChamber_occupants c (by intro _; rfl) s).andThen (addRecord_within _ _ _ _)).trans
        (deriveChambers_occupants _ _))

theorem ChambersKept.takeFrame (h : ChambersKept s) (f : Frame) : ChambersKept (takeFrame f s) := by
  have guarded (b : Bool) {t : State} (ht : ChambersKept t) : ChambersKept (if b then t else s) := by
    split
    · exact ht
    · exact h
  cases f with
  | checkIn c m => exact guarded _ (h.checkIn c m)
  | checkOut c m => exact guarded _ (h.checkOut c m)
  | refugeStatus c a o2 co n => exact guarded _ (h.of_occupants (takeStatus_occupants _ _ _ _ _ s))
  | truckBeacon | callOpen | callClose | voice | distress | evacuate | airAlarm =>
    exact h.of_occupants ((takeFrame_within _ s).1.occupants (by simp [frameAreas]))

theorem rawReading_occupants (n : Fin 16) (w : Word) (s : State) : SameOccupants s (rawReading n w s) := by
  unfold rawReading
  split
  · exact .refl s
  · split
    · exact .refl s
    · exact ((SameOccupants.refl s).andThen (arrival_within _ _ _ _)).trans (airReaders_occupants _ _ _)

theorem acknowledge_occupants (i : Fin 24) (shown : Nat) (s : State) : SameOccupants s (acknowledge i shown s) := by
  have hdropped (f : Channel → Channel) := (SameOccupants.refl s).andThen (changeChannel_within i f s)
  unfold acknowledge
  dsimp only
  split
  · refine SameOccupants.trans ?_ (airReaders_occupants _ _ _)
    refine SameOccupants.andThen ?_ (postChanged_within _ _)
    refine SameOccupants.andThen ?_ (addRecord_within _ _ _ _)
    split
    · exact hdropped _
    · exact (hdropped _).andThen (addRecord_within _ _ _ _)
  · exact .refl s

theorem staleExpiry_occupants (i : Fin 24) (s : State) : SameOccupants s (staleExpiry i s) := by
  unfold staleExpiry
  exact ((SameOccupants.refl s).andThen (arrival_within _ _ _ _)).trans (airReaders_occupants _ _ _)

theorem rateExpiry_occupants (s : State) : SameOccupants s (rateExpiry s) := by
  have handed {t : State} (ht : SameOccupants s t) : SameOccupants s (forEach 24 (fun i t => handOn i s.channels[i] t) t) :=
    forEach_keeps (SameOccupants s) (fun i t ht => ht.andThen (handOn_within i _ t)) t ht
  have expired {t : State} (r : PeriodTimer) (ht : SameOccupants s t) : SameOccupants s { t with rate := r } := ht
  have hrated := (SameOccupants.refl s).andThen (eachChannel_within rateChannel s)
  unfold rateExpiry
  dsimp only
  refine (expired _ (handed ?_)).trans (airReaders_occupants _ _ _)
  split
  · exact hrated.andThen (eachChannel_within _ _)
  · exact hrated

theorem chamberSilence_occupants (c : Fin 4) (s : State) : SameOccupants s (chamberSilence c s) := by
  unfold chamberSilence
  exact ((changeChamber_occupants c (by intro _; rfl) s).andThen (flagRecord_within _ _ _ _)).trans
    (deriveAlarm_occupants _ _)

theorem airlockExpiry_occupants (c : Fin 4) (s : State) : SameOccupants s (airlockExpiry c s) := by
  unfold airlockExpiry
  exact ((changeChamber_occupants c (by intro _; rfl) s).andThen (flagRecord_within _ _ _ _)).trans
    (deriveAlarm_occupants _ _)

theorem ChambersKept.runActed (h : ChambersKept s) {l : List Area} {t : State} (ha : RunActed s l t) : ChambersKept t := by
  by_cases hl : Area.refuge ∈ l
  · cases ha with
    | checkOutByRequest c m =>
      exact ((h.removeMiner c m).1.of_occupants (addRecord_within _ _ _ _).1.occupants).of_occupants
        (deriveChambers_occupants _ _)
    | rawReading n w => exact h.of_occupants (rawReading_occupants n w s)
    | acknowledge i shown => exact h.of_occupants (acknowledge_occupants i shown s)
    | staleExpiry i => exact h.of_occupants (staleExpiry_occupants i s)
    | rateExpiry => exact h.of_occupants (rateExpiry_occupants s)
    | chamberSilence c => exact h.of_occupants (chamberSilence_occupants c s)
    | airlockExpiry c => exact h.of_occupants (airlockExpiry_occupants c s)
    | frame f => exact (h.of_occupants (clearHandover_within f s).1.occupants).takeFrame f
    | _ => simp at hl
  · exact h.of_occupants (ha.sameBut.occupants hl)

theorem ChambersKept.acted (h : ChambersKept s) {t : State} (ha : Acted s t) : ChambersKept t := by
  cases ha with
  | nothing => exact h
  | start =>
    obtain ⟨v, hv⟩ := enterRun_eq s
    refine ChambersKept.of_occupants (s := enterRun s) ?_ (runEntry_within s).1.occupants
    rw [hv]
    simp [ChambersKept, startChamber]
  | restart => simp [ChambersKept, warmReset, resetPart]
  | drain => exact h.of_occupants (drainOldest_sameBut s).occupants
  | inRun _ ha => exact h.runActed ha

end

theorem chambersKept_kept : Kept ChambersKept where
  reset _ _ _ _ _ _ := by simp [ChambersKept, resetPart]
  memory _ _ h := h
  staged _ h := h
  copies _ _ h := h
  readData _ h := h
  arming _ h := h
  pins _ h := h
  capture _ _ h := h
  patrol hrun hq h := patrolRead_cases hrun hq h fun t w _ _ ht =>
    event_keeps_of_sameBut (fun _ _ hsame hs => hs.of_occupants hsame.occupants)
      (ChambersKept.of_occupants (s := beginEvent t) ht (mirrorMismatch_within _ w _).1.occupants)
  patrolDue h := h
  sweep {s} h := h.of_occupants (sweepPut_sameBut s).occupants
  tick _ := tick_keeps (fun _ h => h) (fun _ h => h) (fun s h => h.of_occupants ⟨rfl, rfl, fun c => by
    simp [tickSeconds, tickChamber]⟩)
  event {s f} ha h := by
    obtain ⟨t, w, ht, hf⟩ := ha
    refine event_keeps_of_sameBut (fun _ _ hsame hs => hs.of_occupants hsame.occupants) ?_
    rw [hf]
    exact (ChambersKept.acted (s := beginEvent s) h ht : ChambersKept t)

/-- Settles O55: a miner joins a list with room that no list names, or that has just left the one that named it. -/
theorem minersListedOnce : Obligations.MinersListedOnce :=
  fun _ _ h ht => chambersKept_kept.step (fun _ hs => hs) h ht

end Sys2Proof.Machine
end

section
/-! PROOFS. What a unit's work inside an event hands on: the roads shrink, the send list does not grow, the event ring keeps its bound,
and only words of the part's records and of REPORT are named. `Works` says so for every operation, with what each opens besides. -/

set_option Elab.async false

namespace Sys2Proof.Machine

open Sys2Proof.Config

/-- What an operation may do besides its unit's own change: change a road; let a truck into a segment; change the level or its muster
summary; take or end a cause; latch an alert; ask for relays or for EVACUATE frames; make the trip unit's event due; name words of any kind;
take up the outcome word; let a frame into the send list or out of it; let a fault of any kind into the first-fault log. -/
inductive Opening
  | road | grants | level | cause | latch | relays | evacuates | reeval | words | outcome | list | log
  deriving DecidableEq

/-- A segment of which trucks have left, and none has come into a list. -/
def Segment.Shrinks (g h : Segment) : Prop :=
  (h.holders.map (·.truck)).Sublist (g.holders.map (·.truck)) ∧ h.granted.Sublist g.granted
    ∧ h.unauthorised.Sublist g.unauthorised ∧ (h.queue.map (·.truck)).Sublist (g.queue.map (·.truck))

theorem Segment.Shrinks.refl (g : Segment) : g.Shrinks g :=
  ⟨List.Sublist.refl _, List.Sublist.refl _, List.Sublist.refl _, List.Sublist.refl _⟩

theorem Segment.Shrinks.trans {g h k : Segment} (a : g.Shrinks h) (b : h.Shrinks k) : g.Shrinks k := by
  obtain ⟨a1, a2, a3, a4⟩ := a
  obtain ⟨b1, b2, b3, b4⟩ := b
  exact ⟨b1.trans a1, b2.trans a2, b3.trans a3, b4.trans a4⟩

/-- A frame that can still go on air: it waits, is requested, or is built into a slot and not withdrawn. -/
def Live (r : RingUnit) (f : PartFrame) : Prop :=
  f ∈ r.list ∨ f ∈ r.requests ∨ ∃ (i : Fin 16) (k : FrameRecord), r.records[i] = some k ∧ k.withdrawn = false ∧ k.frame = f

/-- The kinds of frame that an operation with these openings may ask for. -/
def Asks (o : List Opening) : PartFrame → Prop
  | .evacuate .. => .evacuates ∈ o
  | .distressRelay .. => .relays ∈ o
  | .airAlarm .. | .refugeAlarm .. | .halt .. | .revoke .. | .grant .. => True

/-- The offset of a word of the REPORT region. -/
abbrev ReportOffset (o : Nat) : Prop := o < 4096 ∧ o % 4 = 0

/-- What a unit may hand on: a word of REPORT, or an own-write to a word of EVENTS but the consume index. -/
def RecordOrReport (s : State) : Post → Prop
  | .write w => w.notice = none ∧ ∃ o, o < 2048 ∧ o % 4 = 0 ∧ o ≠ 4 ∧ w.addr = eventsAddr s o
  | .changed o | .always o => ReportOffset o

/-- The first-fault log holds the fault it held, or one of the three kinds that the end of an event records (R172, R173). -/
def LogKept (s t : State) : Prop :=
  t.time = s.time ∧ (∀ e, s.fault.log = some e → ∃ further, t.fault.log = some { e with further := further })
    ∧ (s.fault.log = none → t.fault.log = none ∨ ∃ e, t.fault.log = some e ∧ e.time = s.time
        ∧ (e.kind = .ownWriteStall ∨ e.kind = .eventLost ∨ e.kind = .frameDropped))

theorem LogKept.of_same {s t : State} (htime : t.time = s.time) (hlog : t.fault.log = s.fault.log) : LogKept s t :=
  ⟨htime, fun e he => ⟨e.further, hlog.trans he⟩, fun he => .inl (hlog.trans he)⟩

theorem LogKept.trans {s u t : State} (h : LogKept s u) (k : LogKept u t) : LogKept s t := by
  obtain ⟨htime, hheld, hempty⟩ := h
  obtain ⟨ktime, kheld, kempty⟩ := k
  refine ⟨ktime.trans htime, fun e he => ?_, fun he => ?_⟩
  · obtain ⟨m, hm⟩ := hheld e he
    obtain ⟨n, hn⟩ := kheld { e with further := m } hm
    exact ⟨n, hn⟩
  · rcases hempty he with hu | ⟨e, heu, hat, hkind⟩
    · exact htime ▸ kempty hu
    · obtain ⟨m, hm⟩ := kheld e heu
      exact .inr ⟨_, hm, hat, hkind⟩

/-- What follows by a unit's work with the given openings. -/
structure Works (o : List Opening) (s t : State) : Prop where
  run : t.run = s.run
  effective : t.effective = s.effective
  roads : .road ∉ o → t.road = s.road
  segments : .grants ∉ o → ∀ i : Fin 16, s.road.segments[i].Shrinks t.road.segments[i]
  level : .level ∉ o → t.level.level = s.level.level ∧ t.level.muster = s.level.muster
  cause : .cause ∉ o → t.level.cause = s.level.cause ∧ t.level.ownSeq = s.level.ownSeq
  latch : .latch ∉ o → (AlertMember.latch ∈ t.level.alerts ↔ AlertMember.latch ∈ s.level.alerts)
  reeval : .reeval ∉ o → t.reevalDue = s.reevalDue
  frames : ∀ f, Live t.ring f → Live s.ring f ∨ Asks o f
  list : .list ∉ o → t.ring.list.Sublist s.ring.list
  seq : .list ∉ o → t.ring.seq = s.ring.seq
  occupancy : occupancy s.fault ≤ ringRecords → occupancy t.fault ≤ ringRecords
  posts : .words ∉ o → ∀ p ∈ t.path.posts, p ∈ s.path.posts ∨ RecordOrReport s p
  reports : .words ∉ o → ∀ p ∈ t.path.reports, p ∈ s.path.reports ∨ RecordOrReport s p
  outcome : .outcome ∉ o → t.path.outcome = s.path.outcome
  log : .log ∉ o → LogKept s t

/-- A state from which nothing changed that `Works` speaks of. -/
theorem Works.of_same {o : List Opening} {s t : State} (hrun : t.run = s.run := by rfl)
    (heff : t.effective = s.effective := by rfl) (hroad : t.road = s.road := by rfl) (hlevel : t.level = s.level := by rfl)
    (hreeval : t.reevalDue = s.reevalDue := by rfl) (hlist : t.ring.list = s.ring.list := by rfl)
    (hreq : t.ring.requests = s.ring.requests := by rfl) (hrec : t.ring.records = s.ring.records := by rfl)
    (hseq : t.ring.seq = s.ring.seq := by rfl) (hfault : t.fault = s.fault := by rfl)
    (hposts : t.path.posts = s.path.posts := by rfl) (hreports : t.path.reports = s.path.reports := by rfl)
    (hout : t.path.outcome = s.path.outcome := by rfl) (htime : t.time = s.time := by rfl) : Works o s t where
  run := hrun
  effective := heff
  roads _ := hroad
  segments _ i := hroad ▸ Segment.Shrinks.refl _
  level _ := by simp [hlevel]
  cause _ := by simp [hlevel]
  latch _ := by simp [hlevel]
  reeval _ := hreeval
  frames f hf := .inl (by simpa [Live, hlist, hreq, hrec] using hf)
  list _ := hlist ▸ List.Sublist.refl _
  seq _ := hseq
  occupancy h := hfault ▸ h
  posts _ p hp := .inl (hposts ▸ hp)
  reports _ p hp := .inl (hreports ▸ hp)
  outcome _ := hout
  log _ := .of_same htime (by rw [hfault])

theorem Works.refl (o : List Opening) (s : State) : Works o s s := .of_same

theorem RecordOrReport.of_effective {s u : State} (h : u.effective = s.effective) {p : Post} (hp : RecordOrReport u p) :
    RecordOrReport s p := by
  cases p with
  | write w => simpa only [RecordOrReport, eventsAddr, h] using hp
  | changed | always => exact hp

theorem Works.trans {o : List Opening} {s u t : State} (h : Works o s u) (k : Works o u t) : Works o s t where
  run := k.run.trans h.run
  effective := k.effective.trans h.effective
  roads hn := (k.roads hn).trans (h.roads hn)
  segments hn i := (h.segments hn i).trans (k.segments hn i)
  level hn := ⟨(k.level hn).1.trans (h.level hn).1, (k.level hn).2.trans (h.level hn).2⟩
  cause hn := ⟨(k.cause hn).1.trans (h.cause hn).1, (k.cause hn).2.trans (h.cause hn).2⟩
  latch hn := (k.latch hn).trans (h.latch hn)
  reeval hn := (k.reeval hn).trans (h.reeval hn)
  frames f hf := (k.frames f hf).elim (h.frames f) .inr
  list hn := (k.list hn).trans (h.list hn)
  seq hn := (k.seq hn).trans (h.seq hn)
  occupancy hs := k.occupancy (h.occupancy hs)
  posts hn p hp := (k.posts hn p hp).elim (h.posts hn p) fun hr => .inr (hr.of_effective h.effective)
  reports hn p hp := (k.reports hn p hp).elim (h.reports hn p) fun hr => .inr (hr.of_effective h.effective)
  outcome hn := (k.outcome hn).trans (h.outcome hn)
  log hn := (h.log hn).trans (k.log hn)

theorem Asks.mono {o p : List Opening} (hs : ∀ a ∈ o, a ∈ p) {f : PartFrame} (h : Asks o f) : Asks p f := by
  cases f with
  | evacuate => exact hs _ h
  | distressRelay => exact hs _ h
  | airAlarm | refugeAlarm | halt | revoke | grant => trivial

theorem Works.wide {o p : List Opening} {s t : State} (h : Works o s t) (hs : ∀ a ∈ o, a ∈ p := by decide) : Works p s t where
  run := h.run
  effective := h.effective
  roads hn := h.roads fun hm => hn (hs _ hm)
  segments hn := h.segments fun hm => hn (hs _ hm)
  level hn := h.level fun hm => hn (hs _ hm)
  cause hn := h.cause fun hm => hn (hs _ hm)
  latch hn := h.latch fun hm => hn (hs _ hm)
  reeval hn := h.reeval fun hm => hn (hs _ hm)
  frames f hf := (h.frames f hf).imp id (Asks.mono hs)
  list hn := h.list fun hm => hn (hs _ hm)
  seq hn := h.seq fun hm => hn (hs _ hm)
  occupancy := h.occupancy
  posts hn := h.posts fun hm => hn (hs _ hm)
  reports hn := h.reports fun hm => hn (hs _ hm)
  outcome hn := h.outcome fun hm => hn (hs _ hm)
  log hn := h.log fun hm => hn (hs _ hm)

/-- Work with the openings `p` followed by work with fewer. -/
theorem Works.next {o p : List Opening} {s u t : State} (h : Works p s u) (h' : Works o u t)
    (hs : ∀ a ∈ o, a ∈ p := by decide) : Works p s t := h.trans (h'.wide hs)

theorem forEach_works {o : List Opening} {n : Nat} {f : Fin n → State → State} (hf : ∀ i u, Works o u (f i u)) (s : State) :
    Works o s (forEach n f s) :=
  forEach_keeps (Works o s) (fun i u h => h.trans (hf i u)) s (Works.refl o s)

theorem foldl_works {α : Type} {o : List Opening} {f : State → α → State} (hf : ∀ a u, Works o u (f u a)) (as : List α)
    (s : State) : Works o s (as.foldl f s) :=
  foldl_keeps (Works o s) (fun u a h => h.trans (hf a u)) as s (Works.refl o s)

/-! ## The plain updates -/

/-- Words of REPORT handed on. -/
theorem named_works {s t : State} {posts reports : List Post} (hp : ∀ p ∈ posts, RecordOrReport s p)
    (hr : ∀ p ∈ reports, RecordOrReport s p)
    (ht : t = { s with path := { s.path with posts := s.path.posts ++ posts, reports := s.path.reports ++ reports } }) :
    Works [] s t := by
  subst ht
  have base := Works.refl [] s
  exact { base with
    posts := fun _ p h => (List.mem_append.mp h).imp id (hp p)
    reports := fun _ p h => (List.mem_append.mp h).imp id (hr p) }

theorem changed_named {s : State} {l : List Nat} (h : ∀ o ∈ l, ReportOffset o) : ∀ p ∈ l.map Post.changed, RecordOrReport s p := by
  intro p hp
  obtain ⟨o, ho, rfl⟩ := List.mem_map.mp hp
  exact h o ho

theorem always_named {s : State} {l : List Nat} (h : ∀ o ∈ l, ReportOffset o) : ∀ p ∈ l.map Post.always, RecordOrReport s p := by
  intro p hp
  obtain ⟨o, ho, rfl⟩ := List.mem_map.mp hp
  exact h o ho

theorem postChanged_works {l : List Nat} (s : State) (h : ∀ o ∈ l, ReportOffset o) : Works [] s (postChanged l s) :=
  named_works (reports := []) (changed_named h) (by simp) (by simp [postChanged])

theorem postAlways_works {l : List Nat} (s : State) (h : ∀ o ∈ l, ReportOffset o) : Works [] s (postAlways l s) :=
  named_works (reports := []) (always_named h) (by simp) (by simp [postAlways])

theorem reportChanged_works {l : List Nat} (s : State) (h : ∀ o ∈ l, ReportOffset o) : Works [] s (reportChanged l s) :=
  named_works (posts := []) (by simp) (changed_named h) (by simp [reportChanged])

theorem reportAlways_works {l : List Nat} (s : State) (h : ∀ o ∈ l, ReportOffset o) : Works [] s (reportAlways l s) :=
  named_works (posts := []) (by simp) (always_named h) (by simp [reportAlways])

theorem reportOffset_wordRange {first count : Nat} (hf : first % 4 = 0) (hc : first + 4 * count ≤ 4096) :
    ∀ o ∈ wordRange first count, ReportOffset o := by
  intro o ho
  simp only [wordRange, List.mem_map, List.mem_range] at ho
  obtain ⟨k, hk, rfl⟩ := ho
  unfold ReportOffset
  omega

theorem requestFrame_works {o : List Opening} {f : PartFrame} (s : State) (hf : Asks o f) : Works o s (requestFrame f s) := by
  have base := Works.refl o s
  refine { base with frames := fun g hg => ?_ }
  rcases hg with hg | hg | hg
  · exact .inl (.inl hg)
  · rcases List.mem_append.mp hg with hg | hg
    · exact .inl (.inr (.inl hg))
    · exact .inr (List.mem_singleton.mp hg ▸ hf)
  · exact .inl (.inr (.inr hg))

/-- A withdrawal leaves live only frames that it does not name. -/
theorem live_withdrawFrames {p : PartFrame → Bool} {s : State} {f : PartFrame} (h : Live (withdrawFrames p s).ring f) :
    Live s.ring f ∧ p f = false := by
  rcases h with h | h | ⟨i, k, hk, hw, hf⟩
  · have := List.mem_filter.mp h
    exact ⟨.inl this.1, by simpa using this.2⟩
  · have := List.mem_filter.mp h
    exact ⟨.inr (.inl this.1), by simpa using this.2⟩
  · simp only [withdrawFrames, reportChanged_ring, mapTable_get, Fin.getElem_fin] at hk
    split at hk
    · rename_i r hr
      simp only [Option.some.injEq] at hk
      split at hk
      · subst hk
        simp at hw
      · rename_i hp
        subst hk
        exact ⟨.inr (.inr ⟨i, r, hr, hw, hf⟩), by simpa [← hf] using hp⟩
    · cases hk

theorem withdrawFrames_works (p : PartFrame → Bool) (s : State) : Works [] s (withdrawFrames p s) := by
  have base := reportChanged_works (l := [0x170]) s (by decide)
  exact { base with
    frames := fun f hf => .inl (live_withdrawFrames hf).1
    list := fun _ => List.filter_sublist }

/-- A change of a segment after which no list has a new truck. -/
theorem changeSegment_works (i : Fin 16) {f : Segment → Segment} (s : State) (hf : ∀ g : Segment, g.Shrinks (f g)) :
    Works [.road] s (changeSegment i f s) := by
  have base := (reportChanged_works (l := segmentWords i) s (reportOffset_wordRange (by omega) (by omega))).wide (p := [.road])
  refine { base with
    roads := fun hn => absurd (by simp) hn
    segments := fun _ j => ?_ }
  show Segment.Shrinks _ (modifyAt s.road.segments i f)[j]
  rw [modifyAt_get]
  split
  · rename_i h
    exact h ▸ hf _
  · exact Segment.Shrinks.refl _

/-- A change of a segment that lets trucks in. -/
theorem changeSegment_works_grants (i : Fin 16) (f : Segment → Segment) (s : State) :
    Works [.road, .grants] s (changeSegment i f s) := by
  have base := (reportChanged_works (l := segmentWords i) s (reportOffset_wordRange (by omega) (by omega))).wide (p := [.road, .grants])
  exact { base with
    roads := fun hn => absurd (by simp) hn
    segments := fun hn => absurd (by simp) hn }

theorem setTruck_works (p : Fin 32) (t : Option Truck) (s : State) : Works [.road] s (setTruck p t s) := by
  have hw : ∀ o ∈ truckWords p, ReportOffset o := by
    intro o ho
    rcases List.mem_append.mp ho with ho | ho
    · exact reportOffset_wordRange (by omega) (by omega) o ho
    · rw [List.mem_singleton.mp ho]
      decide
  have base := (reportChanged_works (l := truckWords p) s hw).wide (p := [.road])
  exact { base with
    roads := fun hn => absurd (by simp) hn
    segments := fun _ _ => Segment.Shrinks.refl _ }

theorem countRoad_works {f : RoadUnit → RoadUnit} (s : State) (hf : ∀ r, (f r).segments = r.segments) :
    Works [.road] s (countRoad f s) := by
  have base := (reportChanged_works (l := [0x504]) s (by decide)).wide (p := [.road])
  refine { base with
    roads := fun hn => absurd (by simp) hn
    segments := fun _ i => ?_ }
  show Segment.Shrinks _ (f s.road).segments[i]
  rw [hf]
  exact Segment.Shrinks.refl _

/-- The muster summary replaced. -/
theorem setMuster_works (m : Muster) (s : State) : Works [.level] s (setMuster m s) := by
  have base := (postAlways_works (l := musterWords) s (by decide)).wide (p := [.level])
  exact { base with level := fun hn => absurd (by simp) hn }

/-! ## Records, faults and the ALERT cause set -/

theorem countFault_works (k : FaultKind) (d : FaultId) (s : State) : Works [.log] s (countFault k d s) := by
  have base := Works.refl [.log] s
  exact { base with
    occupancy := fun h => h
    log := fun hn => absurd (by simp) hn }

/-- What the log holds after a fault was counted (R173). -/
theorem countFault_log (k : FaultKind) (d : FaultId) (s : State) : (countFault k d s).fault.log =
    if s.effective.faults[FaultKind.index k].logOff then s.fault.log
    else match s.fault.log with
      | none => some { kind := k, ident := d, time := s.time, further := 0 }
      | some e => some { e with further := saturate 255 e.further } := rfl

/-- The three kinds of fault that the end of an event records. -/
def FaultKind.ofEnd (k : FaultKind) : Prop := k = .ownWriteStall ∨ k = .eventLost ∨ k = .frameDropped

theorem countFault_works_end {k : FaultKind} (hk : k.ofEnd) (d : FaultId) (s : State) : Works [] s (countFault k d s) := by
  have base := Works.refl [] s
  refine { base with
    occupancy := fun h => h
    log := fun _ => ⟨rfl, fun e he => ?_, fun he => ?_⟩ }
  · rw [countFault_log, he]
    split
    · exact ⟨e.further, rfl⟩
    · exact ⟨saturate 255 e.further, rfl⟩
  · rw [countFault_log, he]
    split
    · exact .inl rfl
    · exact .inr ⟨_, rfl, rfl, hk⟩

theorem postFault_works (k : FaultKind) (s : State) : Works [] s (postFault k s) :=
  postChanged_works s (by cases k <;> decide)

theorem occupancy_produced {f : FaultUnit} (h : occupancy f ≤ ringRecords) (hne : occupancy f ≠ ringRecords) :
    occupancy { f with produce := f.produce + 1 } ≤ ringRecords := by
  simp only [occupancy, ringRecords] at *
  bv_omega

/-- The own-writes of a record are words of EVENTS. -/
theorem eventWrite_named {s : State} {o : Nat} {d : Word} {k : OwnWriteKind} (ho : o < 2048) (h4 : o % 4 = 0) (hne : o ≠ 4) :
    RecordOrReport s (.write { addr := eventsAddr s o, data := d, kind := k }) := ⟨rfl, o, ho, h4, hne, rfl⟩

theorem addRecord_works (kind subject : Nat) (info : Word) (s : State) : Works [] s (addRecord kind subject info s) := by
  unfold addRecord
  split
  · exact Works.refl _ s
  · split
    · exact (countFault_works_end (.inr (.inl rfl)) _ s).trans (postFault_works _ _)
    · rename_i hfull
      have hplace := Nat.mod_lt s.fault.produce.toNat (show 0 < 64 by omega)
      have base := Works.refl [] s
      refine { base with
        occupancy := fun h => occupancy_produced h hfull
        posts := fun _ p hp => (List.mem_append.mp hp).imp id fun hp => ?_
        reports := fun _ p hp => (List.mem_append.mp hp).imp id fun hp => ?_ }
      · simp only [List.mem_cons, List.not_mem_nil, or_false] at hp
        rcases hp with rfl | rfl | rfl | rfl | rfl
        · exact eventWrite_named (by omega) (by omega) (by omega)
        · exact eventWrite_named (by omega) (by omega) (by omega)
        · exact eventWrite_named (by omega) (by omega) (by omega)
        · exact eventWrite_named (by omega) (by omega) (by omega)
        · exact eventWrite_named (by omega) (by omega) (by omega)
      · split at hp
        · rw [List.mem_singleton.mp hp]
          exact (by decide : ReportOffset 0x110)
        · cases hp

/-- A change of the ALERT cause set. -/
theorem setAlerts_works {o : List Opening} {l : List AlertMember} (s : State)
    (hl : .latch ∉ o → (AlertMember.latch ∈ l ↔ AlertMember.latch ∈ s.level.alerts)) :
    Works o s (reportChanged [0x010] { s with level := { s.level with alerts := l } }) := by
  have base := (reportChanged_works (l := [0x010]) s (by decide)).wide (p := o) (by simp)
  exact { base with latch := hl }

/-- A member that is not the fault alert latch joins. -/
theorem joinAlert_works {m : AlertMember} (s : State) (hm : m ≠ .latch) : Works [] s (joinAlert m s) := by
  unfold joinAlert
  split
  · exact Works.refl _ s
  · exact setAlerts_works s fun _ => by simp [hm.symm]

theorem joinAlert_works_latch (s : State) : Works [.latch] s (joinAlert .latch s) := by
  unfold joinAlert
  split
  · exact Works.refl _ s
  · exact setAlerts_works s fun hn => absurd (by simp) hn

theorem leaveAlert_works {m : AlertMember} (s : State) (hm : m ≠ .latch) : Works [] s (leaveAlert m s) := by
  unfold leaveAlert
  split
  · exact setAlerts_works s fun _ => by simp [hm.symm]
  · exact Works.refl _ s

theorem leaveAlert_works_latch (s : State) : Works [.latch] s (leaveAlert .latch s) := by
  unfold leaveAlert
  split
  · exact setAlerts_works s fun hn => absurd (by simp) hn
  · exact Works.refl _ s

end Sys2Proof.Machine
end

section
/-! PROOFS. Every operation of the units is `Works`: what it hands on, asks for and leaves of the roads, the level and the causes. -/

set_option Elab.async false

namespace Sys2Proof.Machine

open Sys2Proof.Config

/-! ## The plain updates of the units -/

/-- A plain update and its report words. -/
theorem updated_works {s t : State} {l : List Nat} (h : Works [] s t) (hl : ∀ o ∈ l, ReportOffset o) :
    Works [] s (reportChanged l t) := h.trans (reportChanged_works t hl)

theorem changeCell_works (i : Fin 4) (f : Cell → Cell) (s : State) : Works [] s (changeCell i f s) := .of_same

theorem postCell_works (i : Fin 4) (s : State) : Works [] s (postCell i s) := reportChanged_works s (by revert i; decide)

theorem changeChannel_works (i : Fin 24) (f : Channel → Channel) (s : State) : Works [] s (changeChannel i f s) := .of_same

theorem setCall_works (p : Fin 8) (c : Option Call) (s : State) : Works [] s (setCall p c s) :=
  updated_works .of_same (by revert p; decide)

theorem countCall_works (f : CallUnit → CallUnit) (s : State) : Works [] s (countCall f s) :=
  updated_works .of_same (by decide)

theorem setDistress_works (l : List Distress) (s : State) : Works [] s (setDistress l s) :=
  updated_works .of_same (by decide)

theorem distressPlace_le (s : State) (m : Id) : distressPlace s m ≤ s.call.distress.length := List.findIdx_le_length

/-- The words of a removal lie in REPORT where the distress list keeps its bound. -/
theorem removeDistress_works (m : Id) {s : State} (h : s.call.distress.length ≤ distressSize) :
    Works [] s (removeDistress m s) := by
  have hp := distressPlace_le s m
  have hb : distressSize = 8 := rfl
  refine updated_works ?_ (by decide)
  refine Works.trans .of_same (reportAlways_works _ (reportOffset_wordRange ?_ ?_))
  · omega
  · omega

/-- A removal whatever the length of the distress list. -/
theorem removeDistress_works_words (m : Id) (s : State) : Works [.words] s (removeDistress m s) := by
  have base := Works.refl [.words] s
  exact { base with
    posts := fun hn => absurd (by simp) hn
    reports := fun hn => absurd (by simp) hn }

theorem changeChamber_works (c : Fin 4) (f : Chamber → Chamber) (s : State) : Works [] s (changeChamber c f s) :=
  updated_works .of_same (by revert c; decide)

theorem changeFrame_works (f : FrameUnit → FrameUnit) (s : State) : Works [] s (changeFrame f s) := .of_same

/-- A change of a segment's direction, gated grade or mark. -/
theorem changeSegment_works_keep (i : Fin 16) {f : Segment → Segment} (s : State) (hh : ∀ g, (f g).holders = g.holders)
    (hg : ∀ g, (f g).granted = g.granted) (hu : ∀ g, (f g).unauthorised = g.unauthorised) (hq : ∀ g, (f g).queue = g.queue) :
    Works [.road] s (changeSegment i f s) :=
  changeSegment_works i s fun g => by
    simp only [Segment.Shrinks, hh, hg, hu, hq]
    exact Segment.Shrinks.refl g

theorem markSegment_works (i : Fin 16) (s : State) : Works [.road] s (markSegment i s) :=
  changeSegment_works_keep i s (fun _ => rfl) (fun _ => rfl) (fun _ => rfl) (fun _ => rfl)

theorem postRing_works (n : Fin 64) (s : State) : Works [] s (postRing n.val s) := by
  have hn := n.isLt
  have hr := (ringOf s n.val).isLt
  refine reportChanged_works s fun o ho => ?_
  simp only [List.mem_cons, List.not_mem_nil, or_false] at ho
  unfold ReportOffset
  omega

theorem changeShadow_works (n : Fin 64) (f : Shadow → Shadow) (s : State) : Works [] s (changeShadow n f s) :=
  Works.trans .of_same (postRing_works n _)

theorem gradeRecord_works (i : Fin 24) (a b : Grade) (s : State) : Works [] s (gradeRecord i a b s) := addRecord_works _ _ _ s

/-! ## The roadway unit's operations -/

theorem dropHolder_works (i : Fin 16) (truck : Id) (s : State) : Works [.road] s (dropHolder i truck s) :=
  changeSegment_works i s fun _ => ⟨List.filter_sublist.map _, .refl _, .refl _, .refl _⟩

theorem dropWaiter_works (i : Fin 16) (truck : Id) (s : State) : Works [.road] s (dropWaiter i truck s) :=
  changeSegment_works i s fun _ => ⟨.refl _, .refl _, .refl _, List.filter_sublist.map _⟩

theorem rederive_works (i : Fin 16) (s : State) : Works [.road] s (rederive i s) := by
  have change := changeSegment_works_keep i (s := s)
    (f := fun g => { g with direction := directionOf (segmentHeadings s s.road.segments[i]) })
    (fun _ => rfl) (fun _ => rfl) (fun _ => rfl) (fun _ => rfl)
  unfold rederive
  dsimp only
  split
  · exact Works.refl _ s
  · split
    · exact ((change.next (addRecord_works _ _ _ _)).next (requestFrame_works (o := []) _ (by trivial))).next (joinAlert_works _ (by simp))
    · split
      · exact ((change.next (addRecord_works _ _ _ _)).next (leaveAlert_works _ (by simp))).next
          (markSegment_works _ _)
      · exact change

theorem announceRevoke_works (i : Fin 16) (truck : Id) (reason : RevokeReason) (form : Nat) (s : State) :
    Works [] s (announceRevoke i truck reason form s) :=
  (requestFrame_works (o := []) s (by trivial)).next (addRecord_works _ _ _ _)

theorem withdrawGrant_works (truck seg : Id) (s : State) : Works [] s (withdrawGrant truck seg s) :=
  withdrawFrames_works _ s

theorem revokeHolder_works (i : Fin 16) (reason : RevokeReason) (truck : Id) (s : State) :
    Works [.road] s (revokeHolder i reason truck s) :=
  ((((dropHolder_works i truck s).next (withdrawGrant_works _ _ _)).next (announceRevoke_works _ _ _ _ _)).next
    (rederive_works _ _)).next (markSegment_works _ _)

theorem revokeWaiter_works (i : Fin 16) (reason : RevokeReason) (truck : Id) (s : State) :
    Works [.road] s (revokeWaiter i reason truck s) :=
  ((dropWaiter_works i truck s).next (announceRevoke_works _ _ _ _ _)).next (markSegment_works _ _)

theorem leaveOrder_works (i : Fin 16) (reason : RevokeReason) (truck : Id) (s : State) :
    Works [] s (leaveOrder i reason truck s) := announceRevoke_works _ _ _ _ _

theorem eachTruck_works {f : Id → State → State} (hf : ∀ id u, Works [.road] u (f id u)) (trucks : List Id) (s : State) :
    Works [.road] s (eachTruck f trucks s) := foldl_works (f := fun t id => f id t) (fun a u => hf a u) trucks s

theorem revokeForGas_works (i : Fin 16) (p : Id → Bool) (s : State) : Works [.road] s (revokeForGas i p s) :=
  ((eachTruck_works (revokeHolder_works i .gas) _ s).next (eachTruck_works (revokeWaiter_works i .gas) _ _)).next
    (eachTruck_works (fun id u => (leaveOrder_works i .gas id u).wide) _ _)

theorem regateSegment_works (i : Fin 16) (s : State) : Works [.road] s (regateSegment i s) := by
  have change := changeSegment_works_keep i (s := s) (f := fun g => { g with gated := gatedGrade s s.effective.segments[i].gate })
    (fun _ => rfl) (fun _ => rfl) (fun _ => rfl) (fun _ => rfl)
  unfold regateSegment
  dsimp only
  split
  · split
    · exact change.next (revokeForGas_works _ _ _)
    · split
      · exact (change.next (revokeForGas_works _ _ _)).next (markSegment_works _ _)
      · exact change
  · split
    · exact change.next (markSegment_works _ _)
    · exact change

/-- Gating again leaves everything but the roads' holders, queues, directions and gated grades. -/
theorem regate_works (channels : List (Fin 24)) (s : State) : Works [.road] s (regate channels s) := by
  refine forEach_works (fun i u => ?_) s
  split
  · exact regateSegment_works i u
  · exact Works.refl _ u

theorem evacuateSegment_works (i : Fin 16) (s : State) : Works [.road] s (evacuateSegment i s) :=
  ((eachTruck_works (revokeHolder_works i .evacuation) _ s).next
    (eachTruck_works (revokeWaiter_works i .evacuation) _ _)).next (markSegment_works _ _)

theorem evacuateRoads_works (s : State) : Works [.road] s (evacuateRoads s) := by
  refine forEach_works (fun i u => ?_) s
  split
  · exact evacuateSegment_works i u
  · exact Works.refl _ u

theorem markRoads_works (s : State) : Works [.road] s (markRoads s) := by
  refine forEach_works (fun i u => ?_) s
  split
  · exact markSegment_works i u
  · exact Works.refl _ u

theorem grantHead_works (i : Fin 16) (w : Waiter) (rest : List Waiter) (s : State) : Works [.road, .grants] s (grantHead i w rest s) := by
  unfold grantHead
  dsimp only
  refine Works.next ?_ (requestFrame_works (o := []) _ (by trivial))
  refine Works.next ?_ (addRecord_works _ _ _ _)
  exact changeSegment_works_grants i _ s

/-- One examination of a head, if it does anything. -/
theorem serveHead_works {i : Fin 16} {s t : State} (h : serveHead i s = some t) : Works [.road, .grants] s t := by
  unfold serveHead at h
  dsimp only at h
  split at h
  · cases h
  · split at h
    · cases h; exact (revokeWaiter_works _ _ _ _).wide
    · split at h
      · cases h; exact grantHead_works _ _ _ _
      · cases h

theorem serveHeads_works (n : Nat) (i : Fin 16) (s : State) : Works [.road, .grants] s (serveHeads n i s) := by
  induction n generalizing s with
  | zero => exact Works.refl _ s
  | succ n ih =>
    unfold serveHeads
    split
    · rename_i t h; exact (serveHead_works h).next (ih t)
    · exact Works.refl _ s

theorem serveSegment_works (i : Fin 16) (s : State) : Works [.road, .grants] s (serveSegment i s) :=
  (serveHeads_works _ i s).next
    (changeSegment_works_keep i _ (fun _ => rfl) (fun _ => rfl) (fun _ => rfl) (fun _ => rfl))

theorem forgetTruck_works (p : Fin 32) (s : State) : Works [.road] s (forgetTruck p s) := by
  unfold forgetTruck
  split
  · exact (addRecord_works _ _ _ s).wide.next (setTruck_works _ _ _)
  · exact Works.refl _ s

/-! ## The level unit's operations -/

theorem requestEvacuate_works (s : State) : Works [.evacuates] s (requestEvacuate s) := by
  unfold requestEvacuate
  split
  · split
    · exact requestFrame_works s (by simp [Asks])
    · exact Works.refl _ s
  · exact Works.refl _ s

theorem withdrawEvacuate_works (s : State) : Works [] s (withdrawEvacuate s) := withdrawFrames_works _ s

theorem levelRecord_works (a b : Level) (k : Nat) (c : List (Nat × Nat)) (s : State) :
    Works [] s (levelRecord a b k c s) := addRecord_works _ _ _ s

theorem laterRecord_works (c : TakenCause) (s : State) : Works [] s (laterRecord c s) := levelRecord_works _ _ _ _ s

theorem changeRecord_works (a b : Level) (s : State) : Works [] s (changeRecord a b s) := by
  unfold changeRecord
  split
  · exact levelRecord_works _ _ _ _ s
  · exact levelRecord_works _ _ _ _ s

theorem tellReaders_works (a b : Level) (s : State) : Works [.road, .reeval] s (tellReaders a b s) := by
  have mark (u : State) : Works [.road, .reeval] u { u with reevalDue := true } := by
    have base := Works.refl [.road, .reeval] u
    exact { base with reeval := fun hn => absurd (by simp) hn }
  unfold tellReaders
  split
  · exact (evacuateRoads_works s).wide.trans (mark _)
  · split
    · exact (markRoads_works s).wide.trans (mark _)
    · exact Works.refl _ s

/-- What a derivation of the level opens (R47, R54). -/
abbrev levelOpenings : List Opening := [.road, .level, .evacuates, .reeval]

/-- Deriving the level changes the level itself and what a change hands on. -/
theorem deriveLevel_works (s : State) : Works levelOpenings s (deriveLevel s) := by
  have setLevel (u : State) (v : Level) : Works levelOpenings u { u with level := { u.level with level := v, taken := [] } } := by
    have base := Works.refl levelOpenings u
    exact { base with level := fun hn => absurd (by simp) hn }
  have told (u : State) : Works levelOpenings u (reportChanged [0x110] (tellReaders s.level.level (levelOf s.level) u)) :=
    (tellReaders_works _ _ u).wide.next (reportChanged_works _ (by decide))
  have frames (u : State) : Works levelOpenings u
      (if levelOf s.level = .evacuate then requestEvacuate u
        else if s.level.level = .evacuate then withdrawEvacuate u else u) := by
    split
    · exact (requestEvacuate_works u).wide
    · split
      · exact (withdrawEvacuate_works u).wide
      · exact Works.refl _ u
  have musters (u : State) : Works levelOpenings u
      (if levelOf s.level = .evacuate then musterEntry u else if s.level.level = .evacuate then musterExit u else u) := by
    split
    · exact (setMuster_works _ u).wide
    · split
      · exact (setMuster_works _ u).wide
      · exact Works.refl _ u
  unfold deriveLevel
  dsimp only
  split
  · exact Works.refl _ s
  · refine Works.next ?_ (foldl_works (fun c u => laterRecord_works c u) _ _)
    refine Works.trans ?_ (musters _)
    refine Works.next ?_ (postChanged_works _ (by decide))
    refine Works.trans ?_ (frames _)
    refine Works.trans ?_ (told _)
    refine Works.trans ?_ (setLevel _ _)
    exact (changeRecord_works _ _ s).wide

/-- A change of the cause record, the own sequence or the causes taken. -/
theorem setCause_works {l : LevelUnit} {s : State} (hlevel : l.level = s.level.level) (hmuster : l.muster = s.level.muster)
    (halerts : l.alerts = s.level.alerts) : Works [.cause] s { s with level := l } := by
  have base := Works.refl [.cause] s
  exact { base with
    level := fun _ => ⟨hlevel, hmuster⟩
    cause := fun hn => absurd (by simp) hn
    latch := fun _ => by rw [halerts] }

theorem takeCause_works (c : Cause) (fault : Nat) (s : State) : Works [.cause] s (takeCause c fault s) := by
  unfold takeCause
  dsimp only
  split
  · split
    · exact (laterRecord_works _ s).wide
    · exact setCause_works rfl rfl rfl
  · exact setCause_works rfl rfl rfl

/-- A local cause fills an absent cause record and leaves one that stands. -/
theorem localCause_works (kind : CauseKind) (reason : BitVec 4) (fault : Nat) (s : State) :
    Works [.cause] s (localCause kind reason fault s) := by
  refine Works.trans ?_ (takeCause_works _ _ _)
  exact setCause_works rfl rfl rfl

theorem remoteCause_works (hop : BitVec 4) (node : NodeId) (seq : BitVec 8) (reason : BitVec 4) (s : State) :
    Works [.cause] s (remoteCause hop node seq reason s) := takeCause_works _ _ s

/-- Recording a fault changes its counter and the log, and may latch an alert or give an evacuation cause. -/
theorem recordFault_works (k : FaultKind) (d : FaultId) (s : State) : Works [.cause, .latch, .log] s (recordFault k d s) := by
  unfold recordFault
  split
  · exact Works.refl _ s
  · dsimp only
    refine Works.next ?_ (postFault_works _ _)
    have counted : Works [.cause, .latch, .log] s (countFault k d s) := (countFault_works k d s).wide
    split
    · exact counted.next (joinAlert_works_latch _)
    · exact counted.next (localCause_works _ _ _ _)
    · exact counted
    · exact counted

/-- A fault of the end of an event. -/
theorem recordFault_works_end {k : FaultKind} (hk : k.ofEnd) (d : FaultId) (s : State) :
    Works [.cause, .latch] s (recordFault k d s) := by
  unfold recordFault
  split
  · exact Works.refl _ s
  · dsimp only
    refine Works.next ?_ (postFault_works _ _)
    have counted : Works [.cause, .latch] s (countFault k d s) := (countFault_works_end hk d s).wide
    split
    · exact counted.next (joinAlert_works_latch _)
    · exact counted.next (localCause_works _ _ _ _)
    · exact counted
    · exact counted

/-- A fault that is not set to EVACUATE gives no cause. -/
theorem recordFault_works_latch {k : FaultKind} (hk : k.ofEnd) (d : FaultId) (s : State) (h : escalation s k ≠ .evacuate) :
    Works [.latch] s (recordFault k d s) := by
  unfold recordFault
  split
  · exact Works.refl _ s
  · dsimp only
    refine Works.next ?_ (postFault_works _ _)
    have counted : Works [.latch] s (countFault k d s) := (countFault_works_end hk d s).wide
    split
    · exact counted.trans (joinAlert_works_latch _)
    · exact absurd ‹_› h
    · exact counted
    · exact counted

/-- A fault that is not set to ALERT latches none. -/
theorem recordFault_works_cause {k : FaultKind} (hk : k.ofEnd) (d : FaultId) (s : State) (h : escalation s k ≠ .alert) :
    Works [.cause] s (recordFault k d s) := by
  unfold recordFault
  split
  · exact Works.refl _ s
  · dsimp only
    refine Works.next ?_ (postFault_works _ _)
    have counted : Works [.cause] s (countFault k d s) := (countFault_works_end hk d s).wide
    split
    · exact absurd ‹_› h
    · exact counted.trans (localCause_works _ _ _ _)
    · exact counted
    · exact counted

/-! ## The trip unit -/

theorem cellStateRecord_works (i : Fin 4) (a b : CellState) (s : State) : Works [] s (cellStateRecord i a b s) :=
  addRecord_works _ _ _ s

theorem noConfirm_works (i : Fin 4) (s : State) : Works [.cause, .latch, .log] s (noConfirm i s) := recordFault_works _ _ s

theorem tripCell_works (i : Fin 4) (s : State) : Works [.cause, .latch, .log] s (tripCell i s) := by
  unfold tripCell
  dsimp only
  refine Works.next ?_ (joinAlert_works _ (by simp))
  refine Works.next ?_ (postCell_works _ _)
  split
  · refine Works.next ?_ (localCause_works _ _ _ _)
    refine Works.next ?_ (addRecord_works _ _ _ _)
    exact (changeCell_works i _ s).wide
  · refine Works.next ?_ (addRecord_works _ _ _ _)
    exact (changeCell_works i _ s).wide

/-- Evaluating a cell changes the cell, and a trip joins the ALERT cause set. -/
theorem evaluateCell_works (i : Fin 4) (s : State) : Works [.cause, .latch, .log] s (evaluateCell i s) := by
  unfold evaluateCell
  split
  · dsimp only
    split
    · refine Works.next ?_ (tripCell_works _ _)
      exact (changeCell_works i _ s).wide.next (postCell_works _ _)
    · exact (changeCell_works i _ s).wide.next (postCell_works _ _)
  · exact Works.refl _ s

theorem reevaluate_works (touched : Selector → Bool) (s : State) : Works [.cause, .latch, .log] s (reevaluate touched s) := by
  refine forEach_works (fun i u => ?_) s
  split
  · exact evaluateCell_works i u
  · exact Works.refl _ u

theorem confirmArrives_works (i : Fin 4) (v : Bool) (s : State) : Works [.cause, .latch, .log] s (confirmArrives i v s) := by
  unfold confirmArrives
  dsimp only
  split
  · exact Works.refl _ s
  · split
    · exact ((changeCell_works i _ s).wide.next (cellStateRecord_works _ _ _ _)).next (postCell_works _ _)
    · exact ((changeCell_works i _ s).wide.next (cellStateRecord_works _ _ _ _)).next (postCell_works _ _)
    · exact (((changeCell_works i _ s).wide.next (cellStateRecord_works _ _ _ _)).next (noConfirm_works _ _)).next
        (postCell_works _ _)
    · exact Works.refl _ s

theorem confirmExpiry_works (i : Fin 4) (s : State) : Works [.cause, .latch, .log] s (confirmExpiry i s) :=
  (((changeCell_works i _ s).wide.next (cellStateRecord_works _ _ _ _)).next (noConfirm_works _ _)).next
    (postCell_works _ _)

theorem confirmLine_works (n : Fin 8) (i : Fin 4) (s : State) :
    Works [.cause, .latch, .log] s (confirmLine n i s) := by
  unfold confirmLine
  dsimp only
  refine Works.next ?_ (reevaluate_works _ _)
  refine Works.next ?_ (confirmArrives_works _ _ _)
  refine Works.next ?_ (postCell_works _ _)
  exact Works.of_same

theorem evacuatingReevaluation_works (s : State) : Works [.cause, .latch, .log, .reeval] s (evacuatingReevaluation s) := by
  refine Works.next ?_ (reevaluate_works _ _)
  have base := Works.refl [.cause, .latch, .log, .reeval] s
  exact { base with reeval := fun hn => absurd (by simp) hn }

/-! ## The refuge unit -/

theorem flagRecord_works (c : Fin 4) (k : Nat) (v : Bool) (s : State) : Works [] s (flagRecord c k v s) :=
  addRecord_works _ _ _ s

/-- Deriving an alarm changes the chamber and its member of the ALERT cause set. -/
theorem deriveAlarm_works (c : Fin 4) (s : State) : Works [] s (deriveAlarm c s) := by
  unfold deriveAlarm
  dsimp only
  split
  · exact Works.refl _ s
  · split
    · refine Works.next ?_ (requestFrame_works (o := []) _ (by trivial))
      refine Works.next ?_ (joinAlert_works _ (by simp))
      exact (changeChamber_works c _ s).wide.next (addRecord_works _ _ _ _)
    · split
      · refine Works.next ?_ (leaveAlert_works _ (by simp))
        exact (changeChamber_works c _ s).wide.next (addRecord_works _ _ _ _)
      · exact (changeChamber_works c _ s).wide

theorem deriveMismatch_works (c : Fin 4) (s : State) : Works [] s (deriveMismatch c s) := by
  unfold deriveMismatch
  dsimp only
  split <;> split
  · exact Works.refl _ s
  · exact (changeChamber_works c _ s).next (addRecord_works _ _ _ _)
  · exact Works.refl _ s
  · exact (changeChamber_works c _ s).next (addRecord_works _ _ _ _)

theorem removeMiner_works (c : Fin 4) (m : Id) (s : State) : Works [] s (removeMiner c m s) :=
  changeChamber_works c _ s

theorem joinChamber_works (c : Fin 4) (m : Id) (r : Bool) (s : State) : Works [] s (joinChamber c m r s) := by
  unfold joinChamber
  dsimp only
  split
  · split
    · exact changeChamber_works c _ s
    · exact (changeChamber_works c _ s).next (addRecord_works _ _ _ _)
  · exact (changeChamber_works c _ s).next (addRecord_works _ _ _ _)

theorem deriveChambers_works (cs : List (Fin 4)) (s : State) : Works [] s (deriveChambers cs s) :=
  (foldl_works (fun c u => deriveMismatch_works c u) cs s).wide.trans
    (foldl_works (fun c u => deriveAlarm_works c u) cs _)

theorem checkIn_works (c : Fin 4) (m : Id) (s : State) : Works [] s (checkIn c m s) := by
  unfold checkIn
  split
  · split
    · exact Works.refl _ s
    · dsimp only
      refine Works.next ?_ (deriveChambers_works _ _)
      refine Works.next ?_ (joinChamber_works _ _ _ _)
      exact (removeMiner_works _ m s).wide.next (addRecord_works _ _ _ _)
  · exact (joinChamber_works c m false s).wide.next (deriveChambers_works _ _)

theorem checkOut_works (c : Fin 4) (m : Id) (s : State) : Works [] s (checkOut c m s) := by
  unfold checkOut
  dsimp only
  split
  · exact ((removeMiner_works c m s).wide.next (addRecord_works _ _ _ _)).next (deriveChambers_works _ _)
  · split
    · exact Works.refl _ s
    · exact ((changeChamber_works c _ s).wide.next (addRecord_works _ _ _ _)).next (deriveChambers_works _ _)

theorem checkOutByRequest_works (c : Fin 4) (m : Id) (s : State) :
    Works [] s (checkOutByRequest c m s) :=
  ((removeMiner_works c m s).wide.next (addRecord_works _ _ _ _)).next (deriveChambers_works _ _)

theorem chamberSilence_works (c : Fin 4) (s : State) : Works [] s (chamberSilence c s) :=
  ((changeChamber_works c _ s).wide.next (flagRecord_works _ _ _ _)).next (deriveAlarm_works _ _)

theorem airlockExpiry_works (c : Fin 4) (s : State) : Works [] s (airlockExpiry c s) :=
  ((changeChamber_works c _ s).wide.next (flagRecord_works _ _ _ _)).next (deriveAlarm_works _ _)

theorem reportChamber_works (c : Fin 4) (a : AirlockReport) (n : BitVec 16) (s : State) :
    Works [] s (reportChamber c a n s) := by
  unfold reportChamber
  dsimp only
  have first : ∀ (u : State) (b : Bool), Works [] u (if b then flagRecord c 1 false u else u) := by
    intro u b; split
    · exact (flagRecord_works _ _ _ u).wide
    · exact Works.refl _ u
  split
  · refine Works.next ?_ (changeChamber_works c _ _)
    exact (changeChamber_works c _ s).next (first _ _)
  · split
    · refine Works.next ?_ (flagRecord_works _ _ _ _)
      refine Works.next ?_ (changeChamber_works c _ _)
      exact (changeChamber_works c _ s).next (first _ _)
    · refine Works.next ?_ (changeChamber_works c _ _)
      exact (changeChamber_works c _ s).next (first _ _)

/-! ## The air unit -/

theorem recomputeChannel_works (i : Fin 24) (s : State) : Works [] s (recomputeChannel i s) :=
  changeChannel_works i _ s

theorem evaluateAgreement_works (i j : Fin 24) (s : State) : Works [] s (evaluateAgreement i j s) := by
  unfold evaluateAgreement
  dsimp only
  split
  · exact Works.refl _ s
  · split
    · exact (changeChannel_works i _ s).next (changeChannel_works j _ _)
    · exact (changeChannel_works i _ s).next (changeChannel_works j _ _)

theorem handFaults_works (i : Fin 24) (a b : FaultFlags) (s : State) : Works [.cause, .latch, .log] s (handFaults i a b s) := by
  unfold handFaults
  split
  · exact Works.refl _ s
  · dsimp only
    split
    · exact (addRecord_works _ _ _ s).wide.next (recordFault_works _ _ _)
    · exact (addRecord_works _ _ _ s).wide

theorem handGrade_works (i : Fin 24) (a b : Grade) (s : State) : Works [] s (handGrade i a b s) := by
  unfold handGrade
  split
  · exact Works.refl _ s
  · dsimp only
    split
    · exact (addRecord_works _ _ _ s).next (requestFrame_works (o := []) _ (by trivial))
    · exact addRecord_works _ _ _ s

theorem handOn_works (i : Fin 24) (c : Channel) (s : State) : Works [.cause, .latch, .log] s (handOn i c s) :=
  ((handFaults_works i _ _ s).next (handGrade_works _ _ _ _)).next
    (postChanged_works _ (by revert i; decide))

/-- An arrival changes channels and hands on records and faults. -/
theorem arrival_works (i : Fin 24) (graded : Bool) (f : Channel → Channel) (s : State) :
    Works [.cause, .latch, .log] s (arrival i graded f s) := by
  unfold arrival
  dsimp only
  split
  · refine Works.next ?_ (handOn_works _ _ _)
    exact (changeChannel_works i f s).wide.next (recomputeChannel_works _ _)
  · split
    · refine Works.next ?_ (handOn_works _ _ _)
      refine Works.next ?_ (recomputeChannel_works _ _)
      exact (changeChannel_works i f s).wide.next (evaluateAgreement_works _ _ _)
    · refine Works.next ?_ (handOn_works _ _ _)
      refine Works.next ?_ (handOn_works _ _ _)
      refine Works.next ?_ (recomputeChannel_works _ _)
      refine Works.next ?_ (recomputeChannel_works _ _)
      exact (changeChannel_works i f s).wide.next (evaluateAgreement_works _ _ _)

theorem alertChannel_works (s : State) (i : Fin 24) : Works [] s (alertChannel s i) := by
  unfold alertChannel
  split
  · exact Works.refl _ s
  · split
    · exact joinAlert_works s (by simp)
    · exact leaveAlert_works s (by simp)

/-- Telling the readers of the channels changes cells, the ALERT cause set and chamber alarms, and gates the roads. -/
theorem airReaders_works (alarms : Bool) (s0 s : State) : Works [.road, .cause, .latch, .log] s (airReaders alarms s0 s) := by
  have base : Works [.road, .cause, .latch, .log] s (regate (gradesChanged s0 s)
      ((gradesChanged s0 s).foldl alertChannel (reevaluate (channelTouched s0 s) s))) := by
    refine Works.next ?_ (regate_works _ _)
    refine Works.next ?_ (foldl_works (o := []) (fun i u => alertChannel_works u i) _ _)
    exact (reevaluate_works _ s).wide
  unfold airReaders
  dsimp only
  split
  · refine base.trans (forEach_works (fun c u => ?_) _)
    split
    · exact (deriveAlarm_works c u).wide
    · exact Works.refl _ u
  · exact base

theorem rawReading_works (n : Fin 16) (w : Word) (s : State) :
    Works [.road, .cause, .latch, .log] s (rawReading n w s) := by
  unfold rawReading
  split
  · exact Works.refl _ s
  · split
    · exact Works.refl _ s
    · exact (arrival_works _ _ _ s).wide.next (airReaders_works _ _ _)

theorem chamberValue_works (c : Fin 4) (g : Gas) (w : BitVec 16) (s : State) :
    Works [.cause, .latch, .log] s (chamberValue c g w s) := by
  unfold chamberValue
  split
  · exact Works.refl _ s
  · exact arrival_works _ _ _ s

theorem staleExpiry_works (i : Fin 24) (s : State) :
    Works [.road, .cause, .latch, .log] s (staleExpiry i s) := by
  unfold staleExpiry
  dsimp only
  refine Works.next ?_ (airReaders_works _ _ _)
  exact (arrival_works _ _ _ s).wide

theorem acknowledge_works (i : Fin 24) (shown : Nat) (s : State) :
    Works [.road, .cause, .latch, .log] s (acknowledge i shown s) := by
  have hword : ∀ o ∈ [0x040 + 8 * i.val], ReportOffset o := by
    revert i
    decide
  unfold acknowledge
  dsimp only
  split
  · refine Works.next ?_ (airReaders_works _ _ _)
    refine Works.next ?_ (postChanged_works _ hword)
    refine Works.next ?_ (addRecord_works _ _ _ _)
    split
    · exact (changeChannel_works i _ s).wide
    · exact (changeChannel_works i _ s).wide.next (addRecord_works _ _ _ _)
  · exact Works.refl _ s

/-! ## The call unit -/

theorem rederivePriority_works (p : Fin 8) (s : State) : Works [] s (rederivePriority p s) := by
  unfold rederivePriority
  split
  · exact Works.refl _ s
  · dsimp only
    split
    · exact Works.refl _ s
    · exact (addRecord_works _ _ _ s).wide.next (setCall_works _ _ _)

theorem rederivePriorities_works (s : State) : Works [] s (rederivePriorities s) :=
  forEach_works (fun p u => rederivePriority_works p u) s

theorem callActivity_works (p : Fin 8) (s : State) : Works [] s (callActivity p s) := by
  unfold callActivity
  split
  · exact Works.refl _ s
  · exact setCall_works _ _ s

theorem admitCall_works (p : Fin 8) (id : CallId) (m : Id) (o : CallOrigin) (q : Priority) (s : State) :
    Works [] s (admitCall p id m o q s) := by
  unfold admitCall
  dsimp only
  refine Works.next ?_ (setCall_works _ _ _)
  exact Works.of_same

/-- A call that leaves marks its frames in flight and nothing else. -/
theorem departFrames_works (id : CallId) (s : State) : Works [] s (departFrames id s) := by
  exact Works.of_same

theorem freeCall_works (p : Fin 8) (id : CallId) (s : State) : Works [] s (freeCall p id s) := by
  unfold freeCall
  refine Works.next ?_ (setCall_works _ _ _)
  refine Works.next ?_ (departFrames_works _ _)
  exact Works.of_same

theorem preemptCall_works (p : Fin 8) (id : CallId) (s : State) : Works [] s (preemptCall p id s) := by
  unfold preemptCall
  split
  · exact Works.refl _ s
  · exact ((freeCall_works p _ s).next (addRecord_works _ _ _ _)).next (countCall_works _ _)

theorem callOpen_works (id : CallId) (m : Id) (o : CallOrigin) (s : State) : Works [] s (callOpen id m o s) := by
  unfold callOpen
  split
  · split
    · exact Works.refl _ s
    · exact ((setCall_works _ _ s).next (rederivePriorities_works _)).next (callActivity_works _ _)
  · dsimp only
    split
    · exact admitCall_works _ _ _ _ _ s
    · split
      · exact (preemptCall_works _ _ s).next (admitCall_works _ _ _ _ _ _)
      · exact (addRecord_works _ _ _ s).wide.next (countCall_works _ _)

theorem closeCall_works (p : Fin 8) (reason : Nat) (s : State) : Works [] s (closeCall p reason s) := by
  unfold closeCall
  split
  · exact Works.refl _ s
  · exact (freeCall_works p _ s).next (addRecord_works _ _ _ _)

theorem callClose_works (id : CallId) (s : State) : Works [] s (callClose id s) := by
  unfold callClose
  split
  · exact closeCall_works _ _ s
  · exact Works.refl _ s

theorem callVoice_works (id : CallId) (s : State) : Works [] s (callVoice id s) := by
  unfold callVoice
  split
  · exact callActivity_works _ s
  · exact Works.refl _ s

theorem callSent_works (n : Fin 64) (tag : BitVec 8) (s : State) : Works [] s (callSent n tag s) := by
  unfold callSent
  split
  · exact callVoice_works _ s
  · exact Works.refl _ s

theorem callSilence_works (p : Fin 8) (s : State) : Works [] s (callSilence p s) := by
  unfold callSilence
  split
  · exact Works.refl _ s
  · split
    · exact setCall_works _ _ s
    · exact (closeCall_works _ _ s).next (countCall_works _ _)

theorem refreshDistress_works (m : Id) (id : CallId) (d : Distress) (s : State) :
    Works [] s (refreshDistress m id d s) := by
  unfold refreshDistress
  dsimp only
  generalize (if id = 0 then d.call else some id) = call
  split
  · exact setDistress_works _ s
  · exact (setDistress_works _ s).next (rederivePriorities_works _)

theorem addDistress_works (m : Id) (id : CallId) (n : NodeId) (s : State) :
    Works [.relays] s (addDistress m id n s) := by
  unfold addDistress
  dsimp only
  refine Works.trans ?_ (requestFrame_works _ (by simp [Asks]))
  have listed : Works [.relays] s (rederivePriorities (addRecord recDistressAdded m.toNat (distressDetail n id)
      (setDistress (s.call.distress ++
        [{ miner := m, node := n, first := s.time, last := s.time, call := callField id }]) s))) :=
    ((setDistress_works _ s).wide.next (addRecord_works _ _ _ _)).next (rederivePriorities_works _)
  split
  · exact listed.next (joinAlert_works _ (by simp))
  · exact listed

theorem overflowDistress_works (m : Id) (id : CallId) (n : NodeId) (s : State) :
    Works [.relays] s (overflowDistress m id n s) := by
  unfold overflowDistress
  dsimp only
  refine Works.trans ?_ (requestFrame_works _ (by simp [Asks]))
  refine Works.next ?_ (reportChanged_works _ (by decide))
  have count : ∀ u : State,
      Works [.relays] u { u with call := { u.call with overflow := saturate countTop u.call.overflow } } := by
    intro u; exact Works.of_same
  exact (addRecord_works _ _ _ s).wide.next (count _)

theorem callDistress_works (m : Id) (id : CallId) (n : NodeId) (s : State) :
    Works [.relays] s (callDistress m id n s) := by
  unfold callDistress
  split
  · exact (refreshDistress_works _ _ _ s).wide
  · split
    · exact addDistress_works _ _ _ s
    · exact (overflowDistress_works _ _ _ s).wide

/-- What a clearing does once the entry is out of the list. -/
theorem clearDistress_works_after {o : List Opening} (d : Distress) {s : State} (h : Works o s (removeDistress d.miner s)) :
    Works o s (clearDistress d s) := by
  have cleared : Works o s (rederivePriorities (withdrawFrames (PartFrame.relays d.miner)
      (addRecord recDistressCleared d.miner.toNat (detail [detailTime d.first])
        (removeDistress d.miner s)))) :=
    ((h.next (addRecord_works _ _ _ _) (by simp)).next (withdrawFrames_works _ _) (by simp)).next
      (rederivePriorities_works _) (by simp)
  unfold clearDistress
  dsimp only
  split
  · exact cleared.next (leaveAlert_works _ (by simp)) (by simp)
  · exact cleared

theorem clearDistress_works (d : Distress) {s : State} (h : s.call.distress.length ≤ distressSize) :
    Works [] s (clearDistress d s) := clearDistress_works_after d (removeDistress_works _ h)

theorem clearDistress_works_words (d : Distress) (s : State) : Works [.words] s (clearDistress d s) :=
  clearDistress_works_after d (removeDistress_works_words _ s)

/-! ## The roadway unit's own events -/

theorem beaconTruck_works {b : Beacon} {s t : State} (h : beaconTruck b s = some t) : Works [.road] s t := by
  unfold beaconTruck at h
  split at h
  · dsimp only at h
    split at h <;> cases h
    · exact (setTruck_works _ _ s).next (addRecord_works _ _ _ _)
    · exact setTruck_works _ _ s
  · split at h <;> cases h
    exact setTruck_works _ _ s

/-- A truck leaves a segment's occupant lists. -/
theorem leaveLists_works (truck : Id) (i : Fin 16) (s : State) : Works [.road] s (changeSegment i (fun g => { g with
    granted := g.granted.filter (· ≠ truck), unauthorised := g.unauthorised.filter (· ≠ truck) }) s) :=
  changeSegment_works i s fun _ => ⟨.refl _, List.filter_sublist, List.filter_sublist, .refl _⟩

theorem leaveSegment_works (truck : Id) (i : Fin 16) (s : State) : Works [.road] s (leaveSegment truck i s) :=
  (((leaveLists_works truck i s).next (addRecord_works _ _ _ _)).next (rederive_works _ _)).next (markSegment_works _ _)

theorem beaconLeave_works (truck : Id) (current : Option (Fin 16)) (s : State) :
    Works [.road] s (beaconLeave truck current s) := by
  refine forEach_works (fun i u => ?_) s
  split
  · exact leaveSegment_works truck i u
  · exact Works.refl _ u

theorem beaconEnter_works (b : Beacon) (i : Fin 16) (s : State) : Works [.road, .grants] s (beaconEnter b i s) := by
  unfold beaconEnter
  dsimp only
  split
  · exact (((changeSegment_works_grants i _ s).next (addRecord_works _ _ _ _)).next (rederive_works _ _)).next
      (markSegment_works _ _)
  · split
    · exact (rederive_works _ s).wide
    · refine Works.next ?_ (rederive_works _ _)
      refine Works.next ?_ (addRecord_works _ _ _ _)
      have first : Works [.road, .grants] s (if waits s.road.segments[i] b.truck then
          markSegment i (dropWaiter i b.truck s) else s) := by
        split
        · exact ((dropWaiter_works i b.truck s).next (markSegment_works _ _)).wide
        · exact Works.refl _ s
      split
      · exact first
      · exact first.trans (changeSegment_works_grants i _ _)

theorem leaveOtherQueues_works (truck : Id) (i : Fin 16) (s : State) : Works [.road] s (leaveOtherQueues truck i s) := by
  refine forEach_works (fun k u => ?_) s
  split
  · exact (dropWaiter_works k truck u).next (markSegment_works _ _)
  · exact Works.refl _ u

theorem beaconRequest_works (b : Beacon) (i : Fin 16) (s : State) : Works [.road, .grants] s (beaconRequest b i s) := by
  unfold beaconRequest
  dsimp only
  split
  · exact Works.refl _ s
  · split
    · exact Works.refl _ s
    · split
      · exact (changeSegment_works_grants i _ s).next (markSegment_works _ _)
      · split
        · exact (addRecord_works _ _ _ s).wide.next (countRoad_works _ (by intro _; rfl))
        · exact ((leaveOtherQueues_works _ _ s).wide.trans (changeSegment_works_grants i _ _)).next (markSegment_works _ _)

/-- A beacon changes the roads alone. -/
theorem takeBeacon_works (b : Beacon) (s : State) : Works [.road, .grants] s (takeBeacon b s) := by
  unfold takeBeacon
  split
  · exact (addRecord_works _ _ _ s).wide.next (countRoad_works _ (by intro _; rfl))
  · rename_i u hu
    have enter : ∀ v : State, Works [.road, .grants] v
        (match controlledIndex u b.current with | some i => beaconEnter b i v | none => v) := by
      intro v; split
      · exact beaconEnter_works _ _ v
      · exact Works.refl _ v
    have placed := ((beaconTruck_works hu).trans (beaconLeave_works b.truck (controlledIndex u b.current) u)).wide.trans
      (enter _)
    dsimp only
    split
    · exact placed.trans (beaconRequest_works _ _ _)
    · exact placed

theorem grantExpiry_works (i : Fin 16) (truck : Id) (s : State) : Works [.road] s (grantExpiry i truck s) :=
  (((((dropHolder_works i truck s).next (withdrawGrant_works _ _ _)).next (addRecord_works _ _ _ _)).next
    (requestFrame_works (o := []) _ (by trivial))).next (rederive_works _ _)).next (markSegment_works _ _)

theorem truckStaleExpiry_works (p : Fin 32) (s : State) : Works [.road] s (truckStaleExpiry p s) := by
  unfold truckStaleExpiry
  split
  · exact Works.refl _ s
  · split
    · exact setTruck_works _ _ s
    · dsimp only
      refine Works.trans ((setTruck_works _ _ s).next (addRecord_works _ _ _ _)) (forEach_works (fun k u => ?_) _)
      split
      · exact (dropWaiter_works k _ u).trans (markSegment_works _ _)
      · exact Works.refl _ u

theorem clearPlaces_works (truck : Id) (i : Fin 16) (s : State) : Works [.road] s (clearPlaces truck i s) :=
  ((((dropHolder_works i truck s).trans (dropWaiter_works _ _ _)).trans (leaveLists_works truck i _)).trans
    (rederive_works _ _)).trans (markSegment_works _ _)

theorem clearTruck_works (p : Fin 32) (truck : Id) (s : State) : Works [.road] s (clearTruck p truck s) := by
  unfold clearTruck
  dsimp only
  refine Works.next ?_ (setTruck_works _ _ _)
  refine Works.next ?_ (addRecord_works _ _ _ _)
  refine Works.next ?_ (foldl_works (fun i u => clearPlaces_works truck i u) _ _)
  have asked (l : List (Fin 16)) (u : State) : Works [.road] u (l.foldl (fun s i => requestCleared truck i s) u) :=
    foldl_works (f := fun s i => requestCleared truck i s)
      (fun i v => requestFrame_works (f := .revoke truck (segmentId v i) .cleared) v trivial) l u
  refine Works.trans ?_ (asked _ _)
  refine Works.trans ?_ (asked _ _)
  exact (withdrawFrames_works _ s).wide

/-! ## The trip and level units -/

/-- A change of the level unit's timers, or of the ended cause. -/
theorem setLevel_works {l : LevelUnit} {s : State} (hlevel : l.level = s.level.level) (hmuster : l.muster = s.level.muster)
    (hcause : l.cause = s.level.cause) (hseq : l.ownSeq = s.level.ownSeq) (halerts : l.alerts = s.level.alerts) :
    Works [] s { s with level := l } := by
  have base := Works.refl [] s
  exact { base with
    level := fun _ => ⟨hlevel, hmuster⟩
    cause := fun _ => ⟨hcause, hseq⟩
    latch := fun _ => by rw [halerts] }

theorem resetCell_works (i : Fin 4) (s : State) : Works [] s (resetCell i s) :=
  (((changeCell_works i _ s).wide.next (cellStateRecord_works _ _ _ _)).next (postCell_works _ _)).next
    (leaveAlert_works _ (by simp))

theorem endEvacuation_works (s : State) : Works [.cause] s (endEvacuation s) := by
  unfold endEvacuation
  split
  · refine Works.next ?_ (reportChanged_works _ (by decide))
    exact setCause_works rfl rfl rfl
  · exact Works.refl _ s

theorem takeEvacuate_works (hop : BitVec 4) (node : NodeId) (seq : BitVec 8) (reason : BitVec 4) (s : State) :
    Works [.cause] s (takeEvacuate hop node seq reason s) := by
  have raised (c : Option Cause) : Works [.cause] s { s with level := { s.level with cause := c } } := setCause_works rfl rfl rfl
  unfold takeEvacuate
  dsimp only
  split
  · exact Works.refl _ s
  · split
    · exact Works.refl _ s
    · split
      · split
        · split <;> split
          · exact (raised _).next (reportChanged_works _ (by decide))
          · exact Works.refl _ s
          · exact (raised _).next (reportChanged_works _ (by decide))
          · exact Works.refl _ s
        · exact (remoteCause_works _ _ _ _ s).wide
      · exact (remoteCause_works _ _ _ _ s).wide

theorem takeAirAlarm_works (origin : NodeId) (s : State) : Works [] s (takeAirAlarm origin s) := by
  unfold takeAirAlarm
  split
  · exact Works.refl _ s
  · split
    · exact Works.refl _ s
    · refine Works.next ?_ (joinAlert_works _ (by simp))
      refine Works.next ?_ (reportChanged_works _ (by decide))
      exact setLevel_works rfl rfl rfl rfl rfl

theorem remoteExpiry_works (s : State) : Works [] s (remoteExpiry s) := by
  refine Works.next ?_ (leaveAlert_works _ (by simp))
  refine Works.next ?_ (reportChanged_works _ (by decide))
  exact setLevel_works rfl rfl rfl rfl rfl

theorem repeatRelays_works (s : State) : Works [.relays] s (repeatRelays s) :=
  foldl_works (fun _ u => requestFrame_works u (by simp [Asks])) _ s

theorem repeatExpiry_works (s : State) : Works [.relays, .evacuates] s (repeatExpiry s) := by
  unfold repeatExpiry
  dsimp only
  refine Works.next ?_ (repeatRelays_works _)
  have expired : Works [.relays, .evacuates] s
      { s with level := { s.level with repeatTimer := PeriodTimer.expire s.level.repeatTimer } } := by
    exact Works.wide (o := []) (setLevel_works rfl rfl rfl rfl rfl)
  split
  · exact expired.next (requestEvacuate_works _)
  · exact expired

/-! ## The air unit -/

theorem eachChannel_works (f : ChannelSet → Channel → Channel) (s : State) : Works [] s (eachChannel f s) :=
  forEach_works (fun _ u => changeChannel_works _ _ u) s

theorem rateExpiry_works (s : State) : Works [.road, .cause, .latch, .log] s (rateExpiry s) := by
  have handed (t : State) : Works [.road, .cause, .latch, .log] t (forEach 24 (fun i t => handOn i s.channels[i] t) t) :=
    forEach_works (fun i u => (handOn_works i _ u).wide) t
  have expired (t : State) (r : PeriodTimer) : Works [.road, .cause, .latch, .log] t { t with rate := r } := by
    exact Works.of_same
  unfold rateExpiry
  dsimp only
  refine Works.next ?_ (airReaders_works _ _ _)
  refine Works.trans (Works.trans ?_ (handed _)) (expired _ _)
  split
  · exact ((eachChannel_works _ s).next (eachChannel_works _ _)).wide
  · exact (eachChannel_works _ s).wide

/-! ## The refuge unit -/

theorem takeStatus_works (c : Fin 4) (a : AirlockReport) (o2 co n : BitVec 16) (s : State) :
    Works [.road, .cause, .latch, .log] s (takeStatus c a o2 co n s) := by
  unfold takeStatus
  dsimp only
  refine Works.next ?_ (forEach_works (o := []) (fun k u => deriveAlarm_works k u) _)
  refine Works.next ?_ (deriveMismatch_works _ _)
  refine Works.next ?_ (reportChamber_works _ _ _ _)
  refine Works.next ?_ (airReaders_works _ _ _)
  exact (chamberValue_works _ _ _ s).wide.next (chamberValue_works _ _ _ _)

/-! ## The roadway unit -/

theorem truckForgetExpiry_works (p : Fin 32) (s : State) : Works [.road] s (truckForgetExpiry p s) := by
  unfold truckForgetExpiry
  split
  · exact Works.refl _ s
  · exact setTruck_works _ _ s

/-! ## The frame unit -/

theorem clearHandover_works (f : Frame) (s : State) : Works [] s (clearHandover f s) := by
  unfold clearHandover
  split
  · exact Works.of_same
  · exact Works.refl _ s

theorem ignoreFrame_works (s : State) : Works [] s (ignoreFrame s) :=
  (changeFrame_works _ s).next (reportChanged_works _ (by decide))

theorem dispatchFrame_works (i : Fin 32) (h : Header) (f : Frame) (s : State) :
    Works [] s (dispatchFrame i h f s) :=
  (changeFrame_works _ s).next (reportChanged_works _ (by decide))

theorem parseFrame_works (i : Fin 32) (h : Header) (s : State) : Works [.cause, .latch, .log] s (parseFrame i h s) := by
  unfold parseFrame
  split
  · exact (ignoreFrame_works s).wide
  · split
    · exact (ignoreFrame_works s).wide
    · exact (recordFault_works _ _ s).wide
    · exact (ignoreFrame_works s).wide
    · exact (dispatchFrame_works _ _ _ s).wide

theorem judgeCompletion_works (i : Fin 32) (addr : Addr) (w : Word) (s : State) :
    Works [.cause, .latch, .log] s (judgeCompletion i addr w s) := by
  unfold judgeCompletion
  split
  · exact (changeFrame_works _ s).wide.next (reportChanged_works _ (by decide))
  · split
    · exact (recordFault_works _ _ s).wide
    · split
      · exact (recordFault_works _ _ s).wide
      · split
        · exact (recordFault_works _ _ s).wide
        · exact parseFrame_works _ _ s

theorem completion_works (i : Fin 32) (addr : Addr) (w : Word) (s : State) :
    Works [.cause, .latch, .log] s (completion i addr w s) := by
  unfold completion
  split
  · exact Works.refl _ s
  · exact (judgeCompletion_works _ _ _ s).next (changeFrame_works _ _)

/-! ## The fault and event unit -/

theorem occupancy_consumed (f : FaultUnit) (w : BitVec 16) (h : occupancy f ≤ ringRecords) :
    occupancy { f with consume := clampConsume f w } ≤ ringRecords := by
  unfold clampConsume
  dsimp only
  split
  · simp only [occupancy, ringRecords] at *
    bv_omega
  · split
    · simp [occupancy]
    · exact h

/-- A consume index that the clamp gives keeps the ring's bound (R177). -/
theorem takeConsume_works (w : BitVec 16) (s : State) : Works [] s (takeConsume (clampConsume s.fault w) s) := by
  refine Works.next ?_ (reportChanged_works _ (by decide))
  have base := Works.refl [] s
  exact { base with occupancy := occupancy_consumed s.fault w }

theorem release_works (shown : Nat) (s : State) : Works [.latch, .log] s (release shown s) := by
  unfold release
  dsimp only
  split
  · refine Works.next ?_ (postAlways_works _ (by decide))
    refine Works.next ?_ (addRecord_works _ _ _ _)
    refine Works.next ?_ (leaveAlert_works_latch _)
    have base := Works.refl [.latch, .log] s
    exact { base with
      occupancy := fun h => h
      log := fun hn => absurd (by simp) hn }
  · exact Works.refl _ s

theorem mirrorMismatch_works {offset : Nat} (w : Word) (s : State) (h : ReportOffset offset) :
    Works [.cause, .latch, .log] s (mirrorMismatch offset w s) :=
  (postAlways_works s (by simpa using h)).wide.trans (recordFault_works _ _ _)

/-- A mismatch at whatever offset. -/
theorem mirrorMismatch_works_words (offset : Nat) (w : Word) (s : State) :
    Works [.cause, .latch, .log, .words] s (mirrorMismatch offset w s) := by
  refine Works.next ?_ (recordFault_works _ _ _)
  have base := Works.refl [.cause, .latch, .log, .words] s
  exact { base with
    posts := fun hn => absurd (by simp) hn
    reports := fun hn => absurd (by simp) hn }

theorem adjustmentRecord_works (arg : Nat) (fields : List (Nat × Nat)) (s : State) :
    Works [] s (adjustmentRecord arg fields s) := addRecord_works _ _ _ s


/-! ## The ring unit -/

theorem changeRing_works (r : Fin 4) (f : RingRecord → RingRecord) (s : State) : Works [] s (changeRing r f s) := by
  exact Works.of_same

theorem countRing_works (n : Fin 64) (f : RingRecord → RingRecord) (s : State) : Works [] s (countRing n f s) :=
  (changeRing_works _ f s).trans (postRing_works n _)

theorem showSlot_works (n : Fin 64) (v : Shown) (s : State) : Works [] s (showSlot n v s) := by
  refine Works.next ?_ (changeShadow_works _ _ _)
  exact Works.of_same

theorem applyAnswer_works (n : Fin 64) (addr : Addr) (w : Word) (a : Answer) (s : State) :
    Works [.cause, .latch, .log] s (applyAnswer n addr w a s) := by
  unfold applyAnswer
  split
  · exact (countRing_works _ _ s).wide
  · exact Works.refl _ s
  · exact Works.refl _ s
  · exact ((showSlot_works _ _ s).next (countRing_works _ _ _)).wide
  · dsimp only
    split
    · exact ((showSlot_works _ _ s).next (countRing_works _ _ _)).wide.next (recordFault_works _ _ _)
    · exact ((showSlot_works _ _ s).next (countRing_works _ _ _)).wide

theorem modemRead_works (n : Fin 64) (addr : Addr) (w : Word) (s : State) :
    Works [.cause, .latch, .log] s (modemRead n addr w s) := by
  refine Works.next ?_ (applyAnswer_works _ _ _ _ _)
  exact Works.of_same

theorem freeRecord_works (n : Fin 64) (s : State) : Works [] s (freeRecord n s) := by
  refine Works.next ?_ (reportChanged_works _ (by decide))
  have base := Works.refl [] s
  refine { base with frames := fun f hf => .inl ?_ }
  rcases hf with hf | hf | ⟨i, k, hk, hw, hf⟩
  · exact .inl hf
  · exact .inr (.inl hf)
  · simp only [set_get] at hk
    split at hk
    · cases hk
    · exact .inr (.inr ⟨i, k, hk, hw, hf⟩)

theorem completeSlot_works (n : Fin 64) (w : Word) (s : State) : Works [] s (completeSlot n w s) := by
  have advanced : Works [] s (countRing n (fun g => { g with next := some (slotAfter s n.val) })
      (changeShadow n (fun h => { h with state := .empty, shown := none }) s)) :=
    (changeShadow_works _ _ s).wide.next (countRing_works _ _ _)
  have reported (t : State) (h : Works [] s t) : Works [] s
      (if ringOf s n.val = 0 then freeRecord n t else t) := by
    split
    · exact h.next (freeRecord_works _ _)
    · exact h
  unfold completeSlot
  dsimp only
  refine reported _ ?_
  split
  · exact advanced.next (callSent_works _ _ _)
  · split
    · exact advanced.next (countRing_works _ _ _)
    · exact advanced

theorem modemWriteback_works (n : Fin 64) (addr : Addr) (w : Word) (s : State) :
    Works [.cause, .latch, .log] s (modemWriteback n addr w s) := by
  unfold modemWriteback
  split
  · exact (completeSlot_works _ _ s).wide
  · exact (recordFault_works _ _ s).wide

theorem controllerWord0_works (n : Fin 64) (addr : Addr) (w : Word) (s : State) :
    Works [.cause, .latch, .log] s (controllerWord0 n addr w s) := by
  unfold controllerWord0
  dsimp only
  split
  · exact Works.refl _ s
  · split
    · exact (recordFault_works _ _ s)
    · split
      · exact (changeShadow_works _ _ s).wide
      · exact (changeShadow_works _ _ s).wide

theorem controllerWord2_works (n : Fin 64) (addr : Addr) (w : Word) (s : State) :
    Works [.cause, .latch, .log] s (controllerWord2 n addr w s) := by
  unfold controllerWord2
  split
  · exact (recordFault_works _ _ s)
  · exact (changeShadow_works _ _ s).wide

theorem missWrite_works (t : Taken) (s : State) : Works [] s (missWrite t s) := by
  unfold missWrite
  split
  · exact (changeShadow_works _ _ s).wide
  · exact (changeShadow_works _ _ s).wide
  · exact (changeShadow_works _ _ s).wide
  · exact (changeFrame_works _ s)
  all_goals exact Works.refl _ s

theorem firstIndices_works (s : State) : Works [] s (firstIndices s) :=
  forEach_keeps (Works [] s) (fun _ _ h => h.next (changeRing_works _ _ _)) s (Works.refl _ s)

theorem endScan_works (s : State) : Works [] s (endScan s) := by
  unfold endScan
  dsimp only
  refine Works.next ?_ (reportChanged_works _ (by decide))
  refine Works.next ?_ (reportAlways_works _ (by decide))
  exact (firstIndices_works s).trans Works.of_same

theorem scanRead_works (s : State) : Works [] s (scanRead s) := by
  have moved : Works [] s { s with path := { s.path with scanCursor := s.path.scanCursor + 1 } } := by
    exact Works.of_same
  unfold scanRead
  dsimp only
  split
  · exact (moved.next (changeShadow_works _ _ _)).next (endScan_works _)
  · exact moved.next (changeShadow_works _ _ _)


/-! ## Dispatched frames -/

/-- What a receiving unit's taking of a frame opens. -/
def frameOpenings : Frame → List Opening
  | .truckBeacon .. => [.road, .grants]
  | .distress .. => [.relays]
  | .refugeStatus .. => [.road, .cause, .latch, .log]
  | .evacuate .. => [.cause]
  | .callOpen .. | .callClose .. | .voice .. | .checkIn .. | .checkOut .. | .airAlarm .. => []

theorem takeFrame_works (f : Frame) (s : State) : Works (frameOpenings f) s (takeFrame f s) := by
  have guarded {o : List Opening} (b : Bool) {t : State} (h : Works o s t) : Works o s (if b then t else s) := by
    split
    · exact h
    · exact Works.refl _ s
  cases f with
  | truckBeacon => exact takeBeacon_works _ s
  | callOpen => exact callOpen_works _ _ _ s
  | callClose => exact callClose_works _ s
  | voice => exact callVoice_works _ s
  | distress => exact callDistress_works _ _ _ s
  | checkIn c m => exact guarded _ (checkIn_works _ _ s)
  | checkOut c m => exact guarded _ (checkOut_works _ _ s)
  | refugeStatus c a o2 co n => exact guarded _ (takeStatus_works _ _ _ _ _ s)
  | evacuate => exact takeEvacuate_works _ _ _ _ s
  | airAlarm => exact takeAirAlarm_works _ s

/-- What an action of a unit but a beacon's may open: all but the level, which the end of the event derives (R47), and the lists of the
segments, into which trucks come by a beacon and by the serving of a queue. -/
abbrev unitOpenings : List Opening := [.road, .cause, .latch, .log, .relays, .evacuates, .reeval]

/-- What an action of a unit may open. -/
abbrev actionOpenings : List Opening := .grants :: unitOpenings

/-- An action of a unit `Works`, but for the words that a clearing with an overlong distress list
would name, and but for the trucks that a beacon brings into a segment. -/
theorem RunActed.works_cases {s t : State} {l : List Area} (h : RunActed s l t) :
    Works unitOpenings s t ∨ (∃ d, t = Machine.clearDistress d s)
      ∨ ∃ f b, t = Machine.takeBeacon b (clearHandover f s) := by
  cases h with
  | clearDistress d => exact .inr (.inl ⟨d, rfl⟩)
  | resetCell i => exact .inl (resetCell_works i s).wide
  | evacuation => exact .inl (localCause_works _ _ _ s).wide
  | endEvacuation => exact .inl (endEvacuation_works s).wide
  | adjustPeriods =>
    refine .inl (Works.next ?_ (adjustmentRecord_works _ _ _))
    have base := Works.refl unitOpenings s
    exact { base with occupancy := fun h => h }
  | adjustChannel => exact .inl ((changeChannel_works _ _ s).trans (adjustmentRecord_works _ _ _)).wide
  | closeCall => exact .inl (closeCall_works _ _ s).wide
  | clearTruck => exact .inl (clearTruck_works _ _ s).wide
  | checkOutByRequest => exact .inl (checkOutByRequest_works _ _ s).wide
  | consume => exact .inl (takeConsume_works _ s).wide
  | rawReading => exact .inl (rawReading_works _ _ s).wide
  | controllerWord0 => exact .inl (controllerWord0_works _ _ _ s).wide
  | controllerWord2 => exact .inl (controllerWord2_works _ _ _ s).wide
  | modemWriteback => exact .inl (modemWriteback_works _ _ _ s).wide
  | completion => exact .inl (completion_works _ _ _ s).wide
  | guardFault => exact .inl (recordFault_works _ _ s).wide
  | missWrite => exact .inl ((recordFault_works _ _ s).next (missWrite_works _ _)).wide
  | modemRead => exact .inl (modemRead_works _ _ _ s).wide
  | acknowledge => exact .inl (acknowledge_works _ _ s).wide
  | release => exact .inl (release_works _ s).wide
  | confirmLine => exact .inl (confirmLine_works _ _ s).wide
  | scanRead => exact .inl (scanRead_works s).wide
  | staleExpiry => exact .inl (staleExpiry_works _ s).wide
  | rateExpiry => exact .inl (rateExpiry_works s).wide
  | repeatExpiry => exact .inl (repeatExpiry_works s).wide
  | remoteExpiry => exact .inl (remoteExpiry_works s).wide
  | confirmExpiry => exact .inl (confirmExpiry_works _ s).wide
  | callSilence => exact .inl (callSilence_works _ s).wide
  | grantExpiry => exact .inl (grantExpiry_works _ _ s).wide
  | truckStaleExpiry => exact .inl (truckStaleExpiry_works _ s).wide
  | truckForgetExpiry => exact .inl (truckForgetExpiry_works _ s).wide
  | chamberSilence => exact .inl (chamberSilence_works _ s).wide
  | airlockExpiry => exact .inl (airlockExpiry_works _ s).wide
  | reevaluation => exact .inl (evacuatingReevaluation_works s).wide
  | frame f =>
    cases f with
    | truckBeacon => exact .inr (.inr ⟨_, _, rfl⟩)
    | callOpen | callClose | voice | distress | checkIn | checkOut | refugeStatus | evacuate | airAlarm =>
      exact .inl ((clearHandover_works _ s).wide.trans ((takeFrame_works _ _).wide (by simp [frameOpenings])))

theorem RunActed.works_or {s t : State} {l : List Area} (h : RunActed s l t) :
    Works actionOpenings s t ∨ ∃ d, t = Machine.clearDistress d s := by
  rcases h.works_cases with hw | hd | ⟨f, b, ht⟩
  · exact .inl hw.wide
  · exact .inr hd
  · rw [ht]
    exact .inl ((clearHandover_works f s).wide.trans (takeBeacon_works b _).wide)

/-- An action of a unit `Works`, whatever words it names. -/
theorem RunActed.works_words {s t : State} {l : List Area} (h : RunActed s l t) : Works (.words :: actionOpenings) s t := by
  rcases h.works_or with hw | ⟨d, ht⟩
  · exact hw.wide
  · rw [ht]
    exact Works.wide (o := [.words]) (clearDistress_works_words d s)

end Sys2Proof.Machine
end

section
/-! PROOFS. What each thing that the end of an event does opens: the units' work and the own-writes that enter. -/

set_option Elab.async false

namespace Sys2Proof.Machine

open Sys2Proof.Config

section
variable {s0 s t : State}

/-! ## The units' work -/

/-- The next work of the units: the level, a marked queue, a truck to be forgotten, the muster summary, a request, the send list. -/
theorem settleUnits_cases (h : settleUnits s0 s = some t) : s.run = true
    ∧ ((levelFirst s0 s = true ∧ t = deriveLevel s)
      ∨ (levelFirst s0 s = false ∧ ∃ i, firstMarked s = some i ∧ t = serveSegment i s)
      ∨ (levelFirst s0 s = false ∧ firstMarked s = none ∧ ∃ p, firstForgettable s = some p ∧ t = forgetTruck p s)
      ∨ (levelFirst s0 s = false ∧ firstMarked s = none ∧ firstForgettable s = none ∧ musterStale s = true
        ∧ t = setMuster (figures s s.level.muster) s)
      ∨ (levelFirst s0 s = false ∧ firstMarked s = none ∧ firstForgettable s = none ∧ musterStale s = false
        ∧ ∃ f rest, s.ring.requests = f :: rest ∧ t = takeRequest f { s with ring := { s.ring with requests := rest } })
      ∨ (levelFirst s0 s = false ∧ firstMarked s = none ∧ firstForgettable s = none ∧ musterStale s = false
        ∧ s.ring.requests = [] ∧ canBuild s = true ∧ t = buildFrame s)) := by
  unfold settleUnits at h
  split at h
  · cases h
  · refine ⟨by simpa using ‹¬(!s.run) = true›, ?_⟩
    split at h
    · cases h
      exact .inl ⟨‹_›, rfl⟩
    · rename_i hlevel
      have hlevel : levelFirst s0 s = false := by simpa using hlevel
      split at h
      · cases h
        exact .inr (.inl ⟨hlevel, _, ‹_›, rfl⟩)
      · rename_i hmarked
        split at h
        · cases h
          exact .inr (.inr (.inl ⟨hlevel, hmarked, _, ‹_›, rfl⟩))
        · rename_i hforget
          split at h
          · cases h
            exact .inr (.inr (.inr (.inl ⟨hlevel, hmarked, hforget, ‹_›, rfl⟩)))
          · rename_i hmuster
            have hmuster : musterStale s = false := by simpa using hmuster
            split at h
            · cases h
              exact .inr (.inr (.inr (.inr (.inl ⟨hlevel, hmarked, hforget, hmuster, _, _, ‹_›, rfl⟩))))
            · rename_i hrequests
              split at h
              · cases h
                exact .inr (.inr (.inr (.inr (.inr ⟨hlevel, hmarked, hforget, hmuster, hrequests, ‹_›, rfl⟩))))
              · cases h

/-- With nothing of the units left in RUN the level is derived, no queue is marked, no truck is to be forgotten, the muster summary
stands, no request waits, and the send list cannot be served. -/
theorem settleUnits_none (hrun : s.run = true) (h : settleUnits s0 s = none) :
    levelFirst s0 s = false ∧ firstMarked s = none ∧ firstForgettable s = none ∧ musterStale s = false
      ∧ s.ring.requests = [] ∧ canBuild s = false := by
  unfold settleUnits at h
  rw [if_neg (by simp [hrun])] at h
  split at h
  · cases h
  · rename_i hlevel
    split at h
    · cases h
    · split at h
      · cases h
      · split at h
        · cases h
        · rename_i hmuster
          split at h
          · cases h
          · split at h
            · cases h
            · rename_i hbuild
              exact ⟨by simpa using hlevel, ‹_›, ‹_›, by simpa using hmuster, ‹_›, by simpa using hbuild⟩

/-! ## Entering the own-write queue -/

theorem drainNotice_works (n : Fin 16) (s : State) : Works [] s (drainNotice n s) := by
  unfold drainNotice
  dsimp only
  split
  · exact Works.refl _ s
  · refine Works.trans ?_ (reportChanged_works _ (by decide))
    exact (changeShadow_works _ _ s).trans .of_same

theorem drainOldest_works (s : State) : Works [] s (drainOldest s) := by
  have written (m : List Host.Cell) (q : List OwnWrite) : Works [] s { s with mem := m, path := { s.path with queue := q } } :=
    .of_same
  unfold drainOldest
  split
  · exact Works.refl _ s
  · dsimp only
    split
    · exact (written _ _).trans (drainNotice_works _ _)
    · exact written _ _

theorem stallEnter_works (w : OwnWrite) (s : State) : Works [] s (stallEnter w s) :=
  (drainOldest_works s).trans .of_same

/-- What a new entry opens: the fault of a stall, as it is set. -/
theorem enterNew_works {o : List Opening} (w : OwnWrite)
    (hf : ∀ u : State, u.effective = s.effective → Works o u (recordFault .ownWriteStall (.own unitPath 0 0) u)) :
    Works o s (enterNew w s) := by
  unfold enterNew
  split
  · exact .of_same
  · exact ((stallEnter_works w s).wide (by simp)).trans (hf _ (stallEnter_works w s).effective)

theorem enterQueue_works {o : List Opening} (w : OwnWrite)
    (hf : ∀ u : State, u.effective = s.effective → Works o u (recordFault .ownWriteStall (.own unitPath 0 0) u)) :
    Works o s (enterQueue w s) := by
  unfold enterQueue
  split
  · split
    · exact .of_same
    · exact .of_same
    · exact .of_same
  · exact enterNew_works w hf

theorem enterMirror_works {o : List Opening} (n : Nat)
    (hf : ∀ u : State, u.effective = s.effective → Works o u (recordFault .ownWriteStall (.own unitPath 0 0) u)) :
    Works o s (enterMirror n s) :=
  Works.trans (u := { s with path := { s.path with shown := (n, mirror s n) :: s.path.shown } }) .of_same (enterQueue_works _ hf)

theorem enterPost_works {o : List Opening} (p : Post)
    (hf : ∀ u : State, u.effective = s.effective → Works o u (recordFault .ownWriteStall (.own unitPath 0 0) u)) :
    Works o s (enterPost s0 p s) := by
  unfold enterPost
  split
  · exact enterQueue_works _ hf
  · split
    · exact .refl _ s
    · exact enterMirror_works _ hf
  · split
    · exact enterMirror_works _ hf
    · exact .refl _ s

theorem enterFollowUp_works {o : List Opening}
    (hf : ∀ u : State, u.effective = s.effective → Works o u (recordFault .ownWriteStall (.own unitPath 0 0) u)) :
    Works o s (enterFollowUp s) := by
  unfold enterFollowUp
  split
  · exact Works.trans (u := { s with path := { s.path with followUp := none } }) .of_same (enterNew_works _ hf)
  · exact .refl _ s

/-- The words that wait to enter become fewer. -/
theorem dropWords_works {o : List Opening} {p r : List Post} {w : Option Word} {l : List (Nat × Word)}
    (hp : ∀ x ∈ p, x ∈ s.path.posts) (hr : ∀ x ∈ r, x ∈ s.path.reports) (hw : w = s.path.outcome ∨ .outcome ∈ o) :
    Works o s { s with path := { s.path with posts := p, reports := r, outcome := w, shown := l } } := by
  have base := Works.refl o s
  exact { base with
    posts := fun _ x hx => .inl (hp x hx)
    reports := fun _ x hx => .inl (hr x hx)
    outcome := fun hn => hw.resolve_right hn }

/-- What an own-write that enters opens, but for the fault of a stall: it takes up the outcome word. -/
theorem settlePath_works {o : List Opening} (ho : .outcome ∈ o) (h : settlePath s0 s = some t)
    (hf : ∀ u : State, u.effective = s.effective → Works o u (recordFault .ownWriteStall (.own unitPath 0 0) u)) :
    Works o s t := by
  rcases settlePath_cases h with ⟨p, rest, hp, rfl⟩ | ⟨p, rest, -, hp, rfl⟩ | ⟨w, -, -, -, rfl⟩ | ⟨-, -, -, -, rfl⟩
  · refine Works.trans (dropWords_works (p := rest) (r := s.path.reports) (w := s.path.outcome) (l := s.path.shown)
      (fun x hx => hp ▸ List.mem_cons_of_mem _ hx) (fun _ hx => hx) (.inl rfl)) ?_
    exact enterPost_works _ hf
  · refine Works.trans (dropWords_works (p := s.path.posts) (r := rest) (w := s.path.outcome) (l := s.path.shown)
      (fun _ hx => hx) (fun x hx => hp ▸ List.mem_cons_of_mem _ hx) (.inl rfl)) ?_
    exact enterPost_works _ hf
  · refine Works.trans (dropWords_works (p := s.path.posts) (r := s.path.reports) (w := none) (l := s.path.shown)
      (fun _ hx => hx) (fun _ hx => hx) (.inr ho)) ?_
    exact enterQueue_works _ hf
  · exact dropWords_works (fun _ hx => hx) (fun _ hx => hx) (.inl rfl)

/-- What the path opens at the end of an event. -/
abbrev pathOpenings : List Opening := [.cause, .latch, .outcome]

theorem stall_works (u : State) : Works pathOpenings u (recordFault .ownWriteStall (.own unitPath 0 0) u) :=
  (recordFault_works_end (.inl rfl) _ u).wide

theorem dropFrame_works (f : PartFrame) (waiting : Bool) (s : State) : Works [.cause, .latch] s (dropFrame f waiting s) :=
  (recordFault_works_end (.inr (.inr rfl)) _ s).next (addRecord_works _ _ _ _)

/-! ## The send list -/

theorem setList_works {l : List PartFrame} (s : State) (hl : ∀ f ∈ l, Live s.ring f) : Works [.list] s (setList l s) := by
  have base := (reportChanged_works (l := [0x170]) s (by decide)).wide (p := [.list])
  refine { base with
    frames := fun f hf => .inl ?_
    list := fun hn => absurd (by simp) hn }
  rcases hf with hf | hf | hf
  · exact hl f hf
  · exact .inr (.inl hf)
  · exact .inr (.inr hf)

theorem mem_insertFrame {f g : PartFrame} {l : List PartFrame} (h : g ∈ insertFrame f l) : g = f ∨ g ∈ l := by
  rcases List.mem_append.mp h with h | h
  · exact .inr ((List.takeWhile_prefix _).subset h)
  · exact (List.mem_cons.mp h).imp id fun h => (List.dropWhile_suffix _).subset h

theorem mem_dropNewest {u : Nat} {g : PartFrame} {l : List PartFrame} (h : g ∈ dropNewest u l) : g ∈ l := by
  simp only [dropNewest, List.mem_reverse] at h
  exact List.mem_reverse.mp (List.mem_of_mem_eraseP h)

theorem mem_replaceOrAbsorb {f g : PartFrame} {l l' : List PartFrame} (h : replaceOrAbsorb f l = some l') (hg : g ∈ l') :
    g = f ∨ g ∈ l := by
  unfold replaceOrAbsorb at h
  split at h
  · split at h
    · cases h
      obtain ⟨k, hk, rfl⟩ := List.mem_map.mp hg
      split
      · exact .inl rfl
      · exact .inr hk
    · cases h
  · split at h
    · cases h
      exact .inr hg
    · cases h
  all_goals cases h

/-- A request leaves the line: no frame goes on air that did not wait. -/
theorem dropRequest_works {f : PartFrame} {rest : List PartFrame} (h : s.ring.requests = f :: rest) :
    Works [.list] s { s with ring := { s.ring with requests := rest } } := by
  have base := Works.refl [.list] s
  refine { base with frames := fun g hg => .inl ?_ }
  rcases hg with hg | hg | hg
  · exact .inl hg
  · exact .inr (.inl (h ▸ List.mem_cons_of_mem _ hg))
  · exact .inr (.inr hg)

/-- A request leaves the line for a list of frames that waited, and of the request itself. -/
theorem setList_works_request {f : PartFrame} {rest l : List PartFrame} (h : s.ring.requests = f :: rest)
    (hl : ∀ g ∈ l, g = f ∨ g ∈ s.ring.list) : Works [.list] s (setList l { s with ring := { s.ring with requests := rest } }) := by
  have base := (dropRequest_works h).next (reportChanged_works (l := [0x170]) _ (by decide)) (by simp)
  refine { base with
    frames := fun g hg => .inl ?_
    list := fun hn => absurd (by simp) hn }
  rcases hg with hg | hg | hg
  · rcases hl g hg with rfl | hg
    · exact .inr (.inl (h ▸ List.mem_cons_self))
    · exact .inl hg
  · exact .inr (.inl (h ▸ List.mem_cons_of_mem _ hg))
  · exact .inr (.inr hg)

/-- The first request taken into the list: no frame goes on air but those that wait, and the request itself. -/
theorem takeRequest_works {f : PartFrame} {rest : List PartFrame} (h : s.ring.requests = f :: rest) :
    Works [.cause, .latch, .list] s (takeRequest f { s with ring := { s.ring with requests := rest } }) := by
  have shorter : Works [.cause, .latch, .list] s { s with ring := { s.ring with requests := rest } } := (dropRequest_works h).wide
  have listed {l : List PartFrame} (hl : ∀ g ∈ l, g = f ∨ g ∈ s.ring.list) : Works [.cause, .latch, .list] s
      (setList l { s with ring := { s.ring with requests := rest } }) := (setList_works_request h hl).wide
  unfold takeRequest
  dsimp only
  split
  · exact listed fun g hg => mem_replaceOrAbsorb ‹_› hg
  · split
    · exact listed fun g hg => mem_insertFrame hg
    · split
      · split
        · refine (listed fun g hg => ?_).next (dropFrame_works _ _ _)
          exact (mem_insertFrame hg).imp id mem_dropNewest
        · exact shorter.next (dropFrame_works _ _ _)
      · exact shorter.next (dropFrame_works _ _ _)

theorem buildFrame_works (s : State) : Works [.list, .words] s (buildFrame s) := by
  unfold buildFrame
  split
  · exact .refl _ s
  · rename_i f rest hl
    dsimp only
    have posted (u : State) (l : List Post) :
        Works [.list, .words] u { u with path := { u.path with posts := u.path.posts ++ l } } := by
      have base := Works.refl [.list, .words] u
      exact { base with posts := fun hn => absurd (by simp) hn }
    refine Works.next ?_ (reportChanged_works _ (by decide))
    refine Works.trans ?_ (posted _ _)
    refine Works.next ?_ (changeShadow_works _ _ _)
    have base := Works.refl [.list, .words] s
    refine { base with
      list := fun hn => absurd (by simp) hn
      seq := fun hn => absurd (by simp) hn
      frames := fun g hg => .inl ?_ }
    rcases hg with hg | hg | ⟨i, k, hk, hw, hf⟩
    · exact .inl (hl ▸ List.mem_cons_of_mem _ hg)
    · exact .inr (.inl hg)
    · simp only [set_get] at hk
      split at hk
      · cases hk
        exact .inl (hf ▸ hl ▸ List.mem_cons_self)
      · exact .inr (.inr ⟨i, k, hk, hw, hf⟩)

/-- What the end of an event may open: everything but to ask for relays. -/
abbrev endOpenings : List Opening := [.road, .grants, .level, .cause, .latch, .evacuates, .reeval, .words, .outcome, .list]

theorem settleUnits_works (h : settleUnits s0 s = some t) : Works endOpenings s t := by
  obtain ⟨-, ⟨-, rfl⟩ | ⟨-, i, -, rfl⟩ | ⟨-, -, p, -, rfl⟩ | ⟨-, -, -, -, rfl⟩ | ⟨-, -, -, -, f, rest, hf, rfl⟩
    | ⟨-, -, -, -, -, -, rfl⟩⟩ := settleUnits_cases h
  · exact (deriveLevel_works s).wide
  · exact (serveSegment_works i s).wide
  · exact (forgetTruck_works p s).wide
  · exact (setMuster_works _ s).wide
  · exact (takeRequest_works hf).wide
  · exact (buildFrame_works s).wide

theorem settleStep_works (h : settleStep s0 s = some t) : Works endOpenings s t := by
  rcases settleStep_cases h with ⟨-, rfl⟩ | ⟨-, hu⟩ | ⟨-, -, hp⟩
  · exact (enterFollowUp_works fun u _ => stall_works u).wide
  · exact settleUnits_works hu
  · exact (settlePath_works (o := pathOpenings) (by simp) hp fun u _ => stall_works u).wide

end

end Sys2Proof.Machine
end

section
/-! PROOFS. The laws of the roads (R132, R133, R138, R139): a law of the segments' lists is kept by every step where it is kept when lists
shrink and by the four ways in which a truck comes into a list. -/

set_option Elab.async false

namespace Sys2Proof.Machine

open Sys2Proof.Config

/-! ## Loops -/

/-- What the turn `i` of a loop brings about for `i`, and every turn keeps for each `j`, holds for each `j` after the loop. -/
theorem forEach_each {σ : Type} {n : Nat} {f : Fin n → σ → σ} (Q : Fin n → σ → Prop) (hone : ∀ i s, Q i (f i s))
    (hkeep : ∀ i j s, Q j s → Q j (f i s)) (s : σ) (j : Fin n) : Q j (forEach n f s) := by
  have hmem : j ∈ List.finRange n := List.mem_finRange j
  unfold forEach
  revert s hmem
  generalize List.finRange n = l
  intro s hmem
  induction l generalizing s with
  | nil => cases hmem
  | cons i rest ih =>
    rcases List.mem_cons.mp hmem with rfl | hrest
    · exact foldl_keeps (Q j) (fun s i => hkeep i j s) rest _ (hone j s)
    · exact ih _ hrest

/-! ## RUN entry -/

/-- RUN entry works as any action does from the state that it gives the units. -/
theorem runEntry_works (s : State) : Works [.cause, .latch, .log] (enterRun s) (runEntry s) := by
  have announced (u : State) : Works [] u (announceStart u) := by
    refine Works.next ?_ (addRecord_works _ _ _ _)
    refine Works.trans (postAlways_works (l := [0x000, 0x004]) u (by decide)) ?_
    refine named_works (posts := [.write { addr := eventsAddr u 0, data := 0, kind := .trailing }]) (reports := []) ?_ (by simp)
      (by simp [post, postAlways, eventsAddr])
    intro p hp
    rw [List.mem_singleton.mp hp]
    exact eventWrite_named (by omega) (by omega) (by omega)
  exact (announced _).wide.trans (reevaluate_works _ _)

theorem sweepPut_road (s : State) : (sweepPut s).road = s.road := by
  unfold sweepPut
  split
  · rfl
  · split
    · split
      · rfl
      · rfl
    · rfl

/-! ## Places -/

theorem holds_iff {g : Segment} {id : Id} : holds g id = true ↔ id ∈ g.holders.map (·.truck) := by
  simp [holds]

theorem waits_iff {g : Segment} {id : Id} : waits g id = true ↔ id ∈ g.queue.map (·.truck) := by
  simp [waits]

theorem occupies_iff {g : Segment} {id : Id} : occupies g id = true ↔ id ∈ g.granted ++ g.unauthorised := by
  simp [occupies]

namespace Segment.Shrinks

variable {g h : Segment} {id : Id}

theorem holds (k : g.Shrinks h) (hn : Machine.holds g id = false) : Machine.holds h id = false := by
  rw [← Bool.not_eq_true, holds_iff] at hn ⊢
  exact fun hm => hn (k.1.subset hm)

theorem occupies (k : g.Shrinks h) (hn : Machine.occupies g id = false) : Machine.occupies h id = false := by
  rw [← Bool.not_eq_true, occupies_iff] at hn ⊢
  exact fun hm => hn ((k.2.1.append k.2.2.1).subset hm)

theorem waits (k : g.Shrinks h) (hn : Machine.waits g id = false) : Machine.waits h id = false := by
  rw [← Bool.not_eq_true, waits_iff] at hn ⊢
  exact fun hm => hn (k.2.2.2.subset hm)

end Segment.Shrinks

/-- The four ways in which a truck comes into a list of segment `i`, which is `g` before and `h` after: it is granted from the head of the
queue (R140), it enters as a holder (R136), it is listed without a grant (R136), and it is queued (R138). -/
inductive Joins (s : State) (i : Fin 16) (g h : Segment) : Prop
  | grant (x : Id) (hq : g.queue.map (·.truck) = x :: h.queue.map (·.truck))
      (hh : h.holders.map (·.truck) = g.holders.map (·.truck) ++ [x]) (hg : h.granted = g.granted)
      (hu : h.unauthorised = g.unauthorised) (hroom : g.holders.length + g.granted.length < s.effective.segments[i].convoy)
  | enter (x : Id) (hx : holds g x = true) (hh : h.holders = g.holders.filter (fun k => k.truck != x))
      (hg : h.granted = g.granted ++ [x]) (hu : h.unauthorised = g.unauthorised) (hq : h.queue = g.queue)
      (hj : ∀ j : Fin 16, j ≠ i → occupies s.road.segments[j] x = false)
  | unlist (x : Id) (hx : holds g x = false) (ho : occupies g x = false) (hw : waits g x = false)
      (hroom : g.unauthorised.length < unauthorisedSize) (hh : h.holders = g.holders) (hg : h.granted = g.granted)
      (hu : h.unauthorised = g.unauthorised ++ [x]) (hq : h.queue = g.queue)
      (hj : ∀ j : Fin 16, j ≠ i → occupies s.road.segments[j] x = false)
  | wait (w : Waiter) (ho : occupies g w.truck = false) (hroom : g.queue.length ≠ waitQueueSize) (hh : h.holders = g.holders)
      (hg : h.granted = g.granted) (hu : h.unauthorised = g.unauthorised) (hq : h.queue = g.queue ++ [w])
      (hj : ∀ j : Fin 16, holds s.road.segments[j] w.truck = false ∧ waits s.road.segments[j] w.truck = false)

/-- Segment `i` alone has changed. -/
structure OnlySegment (i : Fin 16) (s t : State) : Prop where
  run : t.run = s.run
  effective : t.effective = s.effective
  others : ∀ j : Fin 16, j ≠ i → t.road.segments[j] = s.road.segments[j]

theorem changeSegment_only (i : Fin 16) (f : Segment → Segment) (s : State) : OnlySegment i s (changeSegment i f s) where
  run := rfl
  effective := rfl
  others j hj := by
    show (modifyAt s.road.segments i f)[j] = _
    rw [modifyAt_get, if_neg hj]

theorem changeSegment_get (i : Fin 16) (f : Segment → Segment) (s : State) :
    (changeSegment i f s).road.segments[i] = f s.road.segments[i] := by
  show (modifyAt s.road.segments i f)[i] = _
  rw [modifyAt_get, if_pos rfl]

/-- A law that only the mode, the settings and the segments' lists decide, and that stays when lists shrink and when a truck comes into a
list in one of the four ways. -/
structure RoadLaw (L : State → Prop) : Prop where
  same : ∀ {s t : State}, L s → t.run = s.run → t.effective = s.effective → t.road = s.road → L t
  empty : ∀ {t : State}, t.run = false → t.road = {} → L t
  start : ∀ {s t : State}, s.run = false → t.run = true → t.road = s.road → L s → L t
  shrinks : ∀ {s t : State}, s.run = true → t.run = s.run → t.effective = s.effective →
    (∀ i : Fin 16, s.road.segments[i].Shrinks t.road.segments[i]) → L s → L t
  joins : ∀ {s t : State} {i : Fin 16}, s.run = true → OnlySegment i s t →
    Joins s i s.road.segments[i] t.road.segments[i] → L s → L t

namespace RoadLaw

variable {L : State → Prop} {s t : State}

/-- Work that lets no truck into a list. -/
theorem works (h : RoadLaw L) {o : List Opening} (hw : Works o s t) (hs : L s) (hrun : s.run = true)
    (hg : .grants ∉ o := by decide) : L t :=
  h.shrinks hrun hw.run hw.effective (hw.segments hg) hs

theorem works_plain (h : RoadLaw L) {o : List Opening} (hw : Works o s t) (hs : L s) (hr : .road ∉ o := by decide) : L t :=
  h.same hs hw.run hw.effective (hw.roads hr)

/-- A truck comes into a list of segment `i`. -/
theorem change (h : RoadLaw L) {i : Fin 16} {f : Segment → Segment} (hrun : s.run = true) (hs : L s)
    (hj : Joins s i s.road.segments[i] (f s.road.segments[i])) : L (changeSegment i f s) :=
  h.joins hrun (changeSegment_only i f s) (by rwa [changeSegment_get]) hs

/-! ### Serving a queue -/

theorem serveHead (h : RoadLaw L) {i : Fin 16} (hrun : s.run = true) (hs : L s) (ht : Machine.serveHead i s = some t) :
    L t ∧ t.run = true := by
  have hr : t.run = true := by rw [(serveHead_works ht).run, hrun]
  refine ⟨?_, hr⟩
  unfold Machine.serveHead at ht
  dsimp only at ht
  split at ht
  · cases ht
  · rename_i w rest hq
    split at ht
    · cases ht
      exact h.works (revokeWaiter_works _ _ _ s) hs hrun
    · split at ht
      · rename_i hgrant
        cases ht
        have room : s.road.segments[i].holders.length + s.road.segments[i].granted.length < s.effective.segments[i].convoy := by
          simp only [grantable, Bool.and_eq_true, decide_eq_true_eq] at hgrant
          exact hgrant.2
        unfold grantHead
        dsimp only
        refine h.works_plain (o := []) (requestFrame_works _ (by trivial)) ?_
        refine h.works_plain (addRecord_works _ _ _ _) ?_
        exact h.change hrun hs (.grant w.truck (by rw [hq]; rfl) (by simp) rfl rfl room)
      · cases ht

theorem serveHeads (h : RoadLaw L) (n : Nat) (i : Fin 16) (hrun : s.run = true) (hs : L s) :
    L (Machine.serveHeads n i s) := by
  induction n generalizing s with
  | zero => exact hs
  | succ n ih =>
    unfold Machine.serveHeads
    split
    · rename_i u hu
      obtain ⟨hL, hr⟩ := h.serveHead hrun hs hu
      exact ih hr hL
    · exact hs

theorem serveSegment (h : RoadLaw L) (i : Fin 16) (hrun : s.run = true) (hs : L s) : L (Machine.serveSegment i s) :=
  h.works (changeSegment_works_keep i _ (fun _ => rfl) (fun _ => rfl) (fun _ => rfl) (fun _ => rfl))
    (h.serveHeads _ i hrun hs) (by rw [(serveHeads_works _ i s).run, hrun])

/-! ### A beacon -/

end RoadLaw

theorem leaveSegment_occupies (truck : Id) (i : Fin 16) (s : State) :
    occupies (leaveSegment truck i s).road.segments[i] truck = false := by
  have left : occupies (changeSegment i (fun g => { g with
      granted := g.granted.filter (· ≠ truck), unauthorised := g.unauthorised.filter (· ≠ truck) }) s).road.segments[i] truck
      = false := by
    rw [changeSegment_get]
    simp [occupies]
  have rest (u : State) : Works [.road] u (markSegment i (rederive i (addRecord recSegmentLeft truck.toNat
      (detail [detailId (segmentId u i).toNat]) u))) :=
    ((addRecord_works _ _ _ u).wide.trans (rederive_works i _)).trans (markSegment_works i _)
  exact ((rest _).segments (by decide) i).occupies left

/-- After the second step of a beacon the truck occupies no segment but the current one. -/
theorem beaconLeave_occupies (truck : Id) (current : Option (Fin 16)) (s : State) (j : Fin 16) : current ≠ some j →
    occupies (beaconLeave truck current s).road.segments[j] truck = false := by
  have each := forEach_each
    (f := fun (i : Fin 16) (u : State) => if occupies u.road.segments[i] truck && current != some i then leaveSegment truck i u else u)
    (Q := fun j u => current ≠ some j → occupies u.road.segments[j] truck = false) (fun i u hi => ?_) (fun i j u hu hj => ?_) s j
  · unfold beaconLeave
    with_reducible exact each
  · split
    · exact leaveSegment_occupies truck i u
    · rename_i h
      simpa [hi] using h
  · split
    · exact ((leaveSegment_works truck i u).segments (by decide) j).occupies (hu hj)
    · exact hu hj

/-- After case 5 of a request the truck waits in no queue but that of the requested segment, whose lists are as they were. -/
theorem leaveOtherQueues_waits (truck : Id) (i : Fin 16) (s : State) (j : Fin 16) : j ≠ i →
    waits (leaveOtherQueues truck i s).road.segments[j] truck = false := by
  have each := forEach_each
    (f := fun (k : Fin 16) (u : State) => if waits u.road.segments[k] truck && k != i then markSegment k (dropWaiter k truck u) else u)
    (Q := fun j u => j ≠ i → waits u.road.segments[j] truck = false) (fun k u hk => ?_) (fun k j u hu hj => ?_) s j
  · unfold leaveOtherQueues
    with_reducible exact each
  · split
    · refine ((markSegment_works k _).segments (by decide) k).waits ?_
      unfold dropWaiter
      rw [changeSegment_get]
      simp [waits]
    · rename_i h
      simpa [hk] using h
  · split
    · exact (((dropWaiter_works k truck u).trans (markSegment_works k _)).segments (by decide) j).waits (hu hj)
    · exact hu hj

theorem leaveOtherQueues_get (truck : Id) (i : Fin 16) (s : State) :
    (leaveOtherQueues truck i s).road.segments[i] = s.road.segments[i] := by
  have kept := forEach_keeps
    (f := fun (k : Fin 16) (u : State) => if waits u.road.segments[k] truck && k != i then markSegment k (dropWaiter k truck u) else u)
    (fun u => u.road.segments[i] = s.road.segments[i]) (fun k u hu => ?_) s rfl
  · unfold leaveOtherQueues
    with_reducible exact kept
  split
  · rename_i h
    have hk : i ≠ k := by
      rintro rfl
      simp at h
    exact ((changeSegment_only k _ _).others i hk).trans (((changeSegment_only k _ _).others i hk).trans hu)
  · exact hu

namespace RoadLaw

variable {L : State → Prop} {s t : State}

/-- The third step of a beacon of a truck that occupies no other segment. -/
theorem beaconEnter (h : RoadLaw L) (b : Beacon) (i : Fin 16) (hrun : s.run = true) (hs : L s)
    (hj : ∀ j : Fin 16, j ≠ i → occupies s.road.segments[j] b.truck = false) : L (Machine.beaconEnter b i s) := by
  unfold Machine.beaconEnter
  dsimp only
  split
  · rename_i hx
    have entered := h.change (f := fun g => { g with
      holders := g.holders.filter (fun h => h.truck != b.truck), granted := g.granted ++ [b.truck] }) hrun hs
      (.enter b.truck hx rfl rfl rfl rfl hj)
    refine h.works (((addRecord_works _ _ _ _).wide.trans (rederive_works i _)).trans (markSegment_works i _)) entered hrun
  · split
    · exact h.works (rederive_works i s) hs hrun
    · rename_i hholds hoccupies
      have dropped : Works [.road] s (if waits s.road.segments[i] b.truck then markSegment i (dropWaiter i b.truck s) else s) := by
        split
        · exact (dropWaiter_works i b.truck s).trans (markSegment_works i _)
        · exact Works.refl _ s
      have hw : waits (if waits s.road.segments[i] b.truck then markSegment i (dropWaiter i b.truck s) else s).road.segments[i]
          b.truck = false := by
        split
        · refine ((markSegment_works i _).segments (by decide) i).waits ?_
          unfold dropWaiter
          rw [changeSegment_get]
          simp [waits]
        · rename_i hn
          simpa using hn
      have hu := (dropped.segments (by decide) i).2.2.1.length_le
      have hru := dropped.run.trans hrun
      have hL := h.works dropped hs hrun
      refine h.works ((addRecord_works _ _ _ _).wide.trans (rederive_works i _)) (o := [.road]) ?_ ?_
      · split
        · exact hL
        · rename_i hroom
          refine h.change hru hL (.unlist b.truck ?_ ?_ hw ?_ rfl rfl rfl rfl fun j hij => ?_)
          · exact (dropped.segments (by decide) i).holds (by simpa using hholds)
          · exact (dropped.segments (by decide) i).occupies (by simpa using hoccupies)
          · simp only [decide_eq_true_eq, Nat.not_le] at hroom
            omega
          · exact (dropped.segments (by decide) j).occupies (hj j hij)
      · split
        · exact hru
        · exact hru

/-- The last step of a beacon. -/
theorem beaconRequest (h : RoadLaw L) (b : Beacon) (i : Fin 16) (hrun : s.run = true) (hs : L s) :
    L (Machine.beaconRequest b i s) := by
  unfold Machine.beaconRequest
  dsimp only
  split
  · exact hs
  · rename_i hplaced
    split
    · exact hs
    · rename_i hholds
      have hholds : ∀ j : Fin 16, holds s.road.segments[j] b.truck = false := by
        intro j
        by_contra hc
        refine hholds (List.any_eq_true.mpr ⟨s.road.segments[j], ?_, by simpa using hc⟩)
        simp
      split
      · have refreshed : ∀ g : Segment, g.Shrinks { g with
            queue := g.queue.map (fun w => if w.truck = b.truck then { truck := b.truck, dir := b.heading } else w) } := ?_
        · exact h.works ((changeSegment_works i s refreshed).trans (markSegment_works i _)) hs hrun
        intro g
        refine ⟨.refl _, .refl _, .refl _, ?_⟩
        have same : (g.queue.map (fun w => if w.truck = b.truck then { truck := b.truck, dir := b.heading } else w)).map (·.truck)
            = g.queue.map (·.truck) := by
          rw [List.map_map]
          refine List.map_congr_left fun w _ => ?_
          simp only [Function.comp_apply]
          split
          · rename_i hw
            exact hw.symm
          · rfl
        exact same ▸ List.Sublist.refl _
      · rename_i hwaits
        split
        · exact h.works ((addRecord_works _ _ _ s).wide.trans (countRoad_works _ (by intro _; rfl))) (o := [.road]) hs hrun
        · rename_i hroom
          have left := leaveOtherQueues_works b.truck i s
          have hL := h.works left hs hrun
          have hi := leaveOtherQueues_get b.truck i s
          have hwaitsNow := leaveOtherQueues_waits b.truck i s
          simp only [Bool.or_eq_true, not_or, Bool.not_eq_true] at hplaced
          generalize leaveOtherQueues b.truck i s = u at *
          refine h.works (markSegment_works i _) (h.change (f := fun g => { g with
            queue := g.queue ++ [{ truck := b.truck, dir := b.heading }] }) (left.run.trans hrun) hL
            (.wait { truck := b.truck, dir := b.heading } ?_ ?_ rfl rfl rfl rfl fun j => ?_)) (left.run.trans hrun)
          · rw [hi]
            exact hplaced.2
          · rw [hi]
            exact hroom
          · refine ⟨(left.segments (by decide) j).holds (hholds j), ?_⟩
            by_cases hj : j = i
            · rw [hj, hi]
              simpa using hwaits
            · exact hwaitsNow j hj

theorem takeBeacon (h : RoadLaw L) (b : Beacon) (hrun : s.run = true) (hs : L s) : L (Machine.takeBeacon b s) := by
  unfold Machine.takeBeacon
  split
  · exact h.works ((addRecord_works _ _ _ s).wide.trans (countRoad_works _ (by intro _; rfl))) (o := [.road]) hs hrun
  · rename_i u hu
    have left := (beaconTruck_works hu).trans (beaconLeave_works b.truck (controlledIndex u b.current) u)
    have hL := h.works left hs hrun
    have hru := left.run.trans hrun
    have entered : L (match controlledIndex u b.current with
          | some i => Machine.beaconEnter b i (beaconLeave b.truck (controlledIndex u b.current) u)
          | none => beaconLeave b.truck (controlledIndex u b.current) u)
        ∧ (match controlledIndex u b.current with
          | some i => Machine.beaconEnter b i (beaconLeave b.truck (controlledIndex u b.current) u)
          | none => beaconLeave b.truck (controlledIndex u b.current) u).run = true := by
      split
      · rename_i i hi
        refine ⟨h.beaconEnter b i hru hL fun j hj => beaconLeave_occupies _ _ u j ?_, ?_⟩
        · rw [hi]
          simpa using hj.symm
        · rw [(beaconEnter_works b i _).run, hru]
      · exact ⟨hL, hru⟩
    dsimp only
    split
    · exact h.beaconRequest b _ entered.2 entered.1
    · exact entered.1

/-! ### Every command -/

theorem runActed (h : RoadLaw L) {l : List Area} (ha : RunActed s l t) (hrun : s.run = true) (hs : L s) : L t := by
  rcases ha.works_cases with hw | ⟨d, ht⟩ | ⟨f, b, ht⟩
  · exact h.works hw hs hrun
  · rw [ht]
    exact h.works (clearDistress_works_words d s) hs hrun
  · rw [ht]
    have cleared := clearHandover_works f s
    exact h.takeBeacon b (cleared.run.trans hrun) (h.works cleared hs hrun)

theorem acted (h : RoadLaw L) (ha : Acted s t) (hs : L s) : L t := by
  cases ha with
  | nothing => exact hs
  | start hrun hc =>
    obtain ⟨v, hv⟩ := enterRun_eq s
    refine h.works_plain (runEntry_works s) (h.start hrun ?_ ?_ hs)
    · rw [hv]
    · rw [hv]
  | restart => exact h.empty rfl rfl
  | drain => exact h.works_plain (drainOldest_works s) hs
  | inRun hrun ha => exact h.runActed ha hrun hs

theorem settleStep (h : RoadLaw L) {s0 : State} (hs : L s) (ht : Machine.settleStep s0 s = some t) : L t := by
  rcases settleStep_cases ht with ⟨-, rfl⟩ | ⟨-, hu⟩ | ⟨-, -, hp⟩
  · exact h.works_plain (enterFollowUp_works fun u _ => stall_works u) hs
  · obtain ⟨hrun, ⟨-, rfl⟩ | ⟨-, i, -, rfl⟩ | ⟨-, -, p, -, rfl⟩ | ⟨-, -, -, -, rfl⟩ | ⟨-, -, -, -, f, rest, hf, rfl⟩
      | ⟨-, -, -, -, -, -, rfl⟩⟩ := settleUnits_cases hu
    · exact h.works (deriveLevel_works s) hs hrun
    · exact h.serveSegment i hrun hs
    · exact h.works (forgetTruck_works p s) hs hrun
    · exact h.works (setMuster_works _ s) hs hrun
    · exact h.works (takeRequest_works hf) hs hrun
    · exact h.works (buildFrame_works s) hs hrun
  · exact h.works_plain (settlePath_works (o := pathOpenings) (by simp) hp fun u _ => stall_works u) hs

theorem tickSeconds (h : RoadLaw L) (hrun : s.run = true) (hs : L s) : L (Machine.tickSeconds s) :=
  h.shrinks hrun rfl rfl (fun i => by
    have same : (Machine.tickSeconds s).road.segments[i] = tickSegment s.road.segments[i] := by
      simp [Machine.tickSeconds]
    rw [same]
    simp only [tickSegment, Segment.Shrinks, List.map_map]
    exact ⟨.refl _, .refl _, .refl _, .refl _⟩) hs

theorem event (h : RoadLaw L) {f : State → State} (hs : L (f (beginEvent s))) : L (Machine.event f s) :=
  event_keeps (fun _ _ _ hs ht => h.settleStep hs ht) (fun u hu => h.same hu (sweepPut_sameBut u).run (sweepPut_sameBut u).effective
    (sweepPut_road u)) (fun _ hu => h.same hu rfl rfl rfl) hs

theorem kept (h : RoadLaw L) : Kept L where
  reset _ _ _ _ _ _ := h.empty rfl rfl
  memory _ _ hs := h.same hs rfl rfl rfl
  staged _ hs := h.same hs rfl rfl rfl
  copies _ _ hs := h.same hs rfl rfl rfl
  readData _ hs := h.same hs rfl rfl rfl
  arming _ hs := h.same hs rfl rfl rfl
  pins _ hs := h.same hs rfl rfl rfl
  capture _ _ hs := h.same hs rfl rfl rfl
  patrol {s} hrun hq hs := patrolRead_cases hrun hq (h.same hs rfl rfl rfl) fun t w hr _ ht =>
    h.event (h.works (mirrorMismatch_works_words s.path.patrolCursor w (beginEvent t))
      (h.same (t := beginEvent t) ht rfl rfl rfl) hr)
  patrolDue hs := h.same hs rfl rfl rfl
  sweep {s} hs := h.same hs (sweepPut_sameBut s).run (sweepPut_sameBut s).effective (sweepPut_road s)
  tick {s} hrun hs := (tick_keeps (P := fun u => u.run = true ∧ L u) (fun u hu => ⟨hu.1, h.same hu.2 rfl rfl rfl⟩)
    (fun u hu => ⟨hu.1, h.same hu.2 rfl rfl rfl⟩) (fun u hu => ⟨hu.1, h.tickSeconds hu.1 hu.2⟩) (s := s) ⟨hrun, hs⟩).2
  event {s f} ha hs := by
    obtain ⟨t, w, ht, hf⟩ := ha
    refine h.event ?_
    rw [hf]
    exact h.same (h.acted ht (h.same (t := beginEvent s) hs rfl rfl rfl)) rfl rfl rfl

end RoadLaw

/-! ## The three laws -/

theorem Segment.Shrinks.lengths {g h : Segment} (k : g.Shrinks h) : h.holders.length ≤ g.holders.length
    ∧ h.granted.length ≤ g.granted.length ∧ h.unauthorised.length ≤ g.unauthorised.length ∧ h.queue.length ≤ g.queue.length := by
  obtain ⟨hh, hg, hu, hq⟩ := k
  exact ⟨by simpa using hh.length_le, hg.length_le, hu.length_le, by simpa using hq.length_le⟩

/-- A segment that changed is the one of `OnlySegment`. -/
theorem OnlySegment.each {i : Fin 16} {s t : State} (h : OnlySegment i s t) {P : Fin 16 → Segment → Prop}
    (hs : ∀ j, P j s.road.segments[j]) (hi : P i t.road.segments[i]) (j : Fin 16) : P j t.road.segments[j] := by
  by_cases hj : j = i
  · rw [hj]
    exact hi
  · rw [h.others j hj]
    exact hs j

theorem grantsKept_roadLaw : RoadLaw GrantsKept where
  same {s t} hs hrun heff hroad := by
    unfold GrantsKept at *
    rwa [hrun, heff, hroad]
  empty hrun hroad := ⟨fun _ => hroad, fun hr => absurd (hrun.symm.trans hr) (by decide)⟩
  start {s t} hsetup hrun hroad hs := by
    refine ⟨fun hr => absurd (hrun.symm.trans hr) (by decide), fun _ i => ?_⟩
    rw [hroad, hs.1 hsetup]
    simp
  shrinks {s t} hrun hr heff hk hs := by
    refine ⟨fun h => absurd ((hr.trans hrun).symm.trans h) (by decide), fun _ i => ?_⟩
    obtain ⟨hh, hg, -, -⟩ := (hk i).lengths
    have := hs.2 hrun i
    rw [heff]
    omega
  joins {s t i} hrun honly hj hs := by
    refine ⟨fun h => absurd ((honly.run.trans hrun).symm.trans h) (by decide), fun _ j => ?_⟩
    rw [honly.effective]
    refine honly.each (P := fun j g => g.holders.length + g.granted.length ≤ s.effective.segments[j].convoy) (hs.2 hrun) ?_ j
    have hi := hs.2 hrun i
    cases hj with
    | grant x hq hh hg hu hroom =>
      have hlen : t.road.segments[i].holders.length = s.road.segments[i].holders.length + 1 := by
        simpa using congrArg List.length hh
      rw [hlen, hg]
      omega
    | enter x hx hh hg hu hq =>
      have hlen : t.road.segments[i].holders.length < s.road.segments[i].holders.length := by
        rw [hh, List.length_filter_lt_length_iff_exists]
        obtain ⟨k, hk, hkx⟩ := List.any_eq_true.mp hx
        exact ⟨k, hk, by simpa using hkx⟩
      have hlist := congrArg List.length hg
      rw [List.length_append, List.length_singleton] at hlist
      omega
    | unlist x _ _ _ _ hh hg => rw [hh, hg]; exact hi
    | wait w _ _ hh hg => rw [hh, hg]; exact hi

theorem roadListsKept_roadLaw : RoadLaw RoadListsKept where
  same {s t} hs _ _ hroad := by
    unfold RoadListsKept at *
    rwa [hroad]
  empty _ hroad i := by
    rw [hroad]
    simp
  start _ _ hroad hs := by
    unfold RoadListsKept at *
    rwa [hroad]
  shrinks _ _ _ hk hs i := by
    obtain ⟨-, -, hu, hq⟩ := (hk i).lengths
    have := hs i
    omega
  joins {s t i} _ honly hj hs := by
    refine honly.each (P := fun _ g => g.queue.length ≤ waitQueueSize ∧ g.unauthorised.length ≤ unauthorisedSize) hs ?_
    have hi := hs i
    cases hj with
    | grant x hq _ _ hu =>
      have hlen : s.road.segments[i].queue.length = t.road.segments[i].queue.length + 1 := by
        simpa using congrArg List.length hq
      rw [hu]
      omega
    | enter x _ _ _ hu hq => rw [hu, hq]; exact hi
    | unlist x _ _ _ hroom _ _ hu hq =>
      rw [hu, hq, List.length_append, List.length_singleton]
      omega
    | wait w _ hroom _ _ hu hq =>
      rw [hu, hq, List.length_append, List.length_singleton]
      omega

/-! ### A truck's places -/

/-- The trucks that hold a segment, occupy it, and wait for it. -/
abbrev Segment.holding (g : Segment) : List Id := g.holders.map (·.truck)
abbrev Segment.occupying (g : Segment) : List Id := g.granted ++ g.unauthorised
abbrev Segment.waiting (g : Segment) : List Id := g.queue.map (·.truck)

/-- Law 5 within one segment. -/
structure Segment.PlacedOnce (g : Segment) : Prop where
  holders : g.holding.Nodup
  occupants : g.occupying.Nodup
  waiters : g.waiting.Nodup
  waits : ∀ x ∈ g.waiting, x ∉ g.holding ∧ x ∉ g.occupying
  holds : ∀ x ∈ g.holding, x ∉ g.occupying

/-- Law 5 between two segments: what the truck's places in `g` exclude in `h`. -/
def Segment.Excludes (g h : Segment) (x : Id) : Prop :=
  (x ∈ g.holding → x ∉ h.holding) ∧ (x ∈ g.occupying → x ∉ h.occupying) ∧ (x ∈ g.waiting → x ∉ h.waiting ∧ x ∉ h.holding)

theorem holds_false_iff {g : Segment} {id : Id} : holds g id = false ↔ id ∉ g.holding := by
  rw [← Bool.not_eq_true, holds_iff]

theorem waits_false_iff {g : Segment} {id : Id} : waits g id = false ↔ id ∉ g.waiting := by
  rw [← Bool.not_eq_true, waits_iff]

theorem occupies_false_iff {g : Segment} {id : Id} : occupies g id = false ↔ id ∉ g.occupying := by
  rw [← Bool.not_eq_true, occupies_iff]

theorem truckPlacesKept_iff {s : State} : TruckPlacesKept s ↔ (∀ i : Fin 16, s.road.segments[i].PlacedOnce)
    ∧ ∀ i j : Fin 16, i ≠ j → ∀ x, s.road.segments[i].Excludes s.road.segments[j] x := by
  simp only [TruckPlacesKept, holds_iff, waits_iff, occupies_iff, holds_false_iff, waits_false_iff, occupies_false_iff]
  constructor
  · rintro ⟨hone, hbetween, hwithin⟩
    exact ⟨fun i => ⟨(hone i).1, (hone i).2.1, (hone i).2.2, fun x => (hwithin i x).1, fun x => (hwithin i x).2⟩,
      fun i j hij x => hbetween i j x hij⟩
  · rintro ⟨hone, hbetween⟩
    exact ⟨fun i => ⟨(hone i).holders, (hone i).occupants, (hone i).waiters⟩, fun i j x hij => hbetween i j hij x,
      fun i x => ⟨(hone i).waits x, (hone i).holds x⟩⟩

theorem Segment.Shrinks.subsets {g h : Segment} (k : g.Shrinks h) :
    h.holding ⊆ g.holding ∧ h.occupying ⊆ g.occupying ∧ h.waiting ⊆ g.waiting :=
  ⟨k.1.subset, (k.2.1.append k.2.2.1).subset, k.2.2.2.subset⟩

theorem Segment.PlacedOnce.shrinks {g h : Segment} (p : g.PlacedOnce) (k : g.Shrinks h) : h.PlacedOnce where
  holders := p.holders.sublist k.1
  occupants := p.occupants.sublist (k.2.1.append k.2.2.1)
  waiters := p.waiters.sublist k.2.2.2
  waits x hx := by
    obtain ⟨hh, ho, hw⟩ := k.subsets
    exact ⟨fun hm => (p.waits x (hw hx)).1 (hh hm), fun hm => (p.waits x (hw hx)).2 (ho hm)⟩
  holds x hx := by
    obtain ⟨hh, ho, -⟩ := k.subsets
    exact fun hm => p.holds x (hh hx) (ho hm)

theorem Segment.Excludes.mono {g g' h h' : Segment} {x : Id} (e : g.Excludes h x)
    (hg : (x ∈ g'.holding → x ∈ g.holding) ∧ (x ∈ g'.occupying → x ∈ g.occupying) ∧ (x ∈ g'.waiting → x ∈ g.waiting))
    (hh : (x ∈ h'.holding → x ∈ h.holding) ∧ (x ∈ h'.occupying → x ∈ h.occupying) ∧ (x ∈ h'.waiting → x ∈ h.waiting)) :
    g'.Excludes h' x := by
  obtain ⟨e1, e2, e3⟩ := e
  exact ⟨fun h1 h2 => e1 (hg.1 h1) (hh.1 h2), fun h1 h2 => e2 (hg.2.1 h1) (hh.2.1 h2),
    fun h1 => ⟨fun h2 => (e3 (hg.2.2 h1)).1 (hh.2.2 h2), fun h2 => (e3 (hg.2.2 h1)).2 (hh.1 h2)⟩⟩

/-- A segment in which the places of one truck alone have changed. -/
theorem truckPlacesKept_replaced {s t : State} {i : Fin 16} (x : Id) (hs : TruckPlacesKept s) (honly : OnlySegment i s t)
    (hi : t.road.segments[i].PlacedOnce)
    (hother : ∀ y, y ≠ x → (y ∈ t.road.segments[i].holding → y ∈ s.road.segments[i].holding)
      ∧ (y ∈ t.road.segments[i].occupying → y ∈ s.road.segments[i].occupying)
      ∧ (y ∈ t.road.segments[i].waiting → y ∈ s.road.segments[i].waiting))
    (hx : ∀ j : Fin 16, j ≠ i → t.road.segments[i].Excludes s.road.segments[j] x
      ∧ s.road.segments[j].Excludes t.road.segments[i] x) : TruckPlacesKept t := by
  rw [truckPlacesKept_iff] at hs ⊢
  obtain ⟨hone, hbetween⟩ := hs
  refine ⟨honly.each (P := fun _ g => g.PlacedOnce) hone hi, fun j k hjk y => ?_⟩
  by_cases hj : j = i
  · rw [hj, honly.others k (fun hk => hjk (hj.trans hk.symm))]
    have hk : k ≠ i := fun hk => hjk (hj.trans hk.symm)
    by_cases hy : y = x
    · rw [hy]
      exact (hx k hk).1
    · exact (hbetween i k (Ne.symm hk) y).mono (hother y hy) ⟨id, id, id⟩
  · rw [honly.others j hj]
    by_cases hk : k = i
    · rw [hk]
      by_cases hy : y = x
      · rw [hy]
        exact (hx j hj).2
      · exact (hbetween j i hj y).mono ⟨id, id, id⟩ (hother y hy)
    · rw [honly.others k hk]
      exact hbetween j k hjk y

theorem nodup_append_singleton {α : Type} {l : List α} {x : α} (h : l.Nodup) (hx : x ∉ l) : (l ++ [x]).Nodup := by
  rw [List.nodup_append]
  exact ⟨h, List.nodup_singleton x, fun a ha b hb => by
    rw [List.mem_singleton.mp hb]
    exact fun e => hx (e ▸ ha)⟩

section
variable {s t : State} {i : Fin 16} {x : Id}

/-- The head of the queue becomes a holder. -/
theorem TruckPlacesKept.grant (hs : TruckPlacesKept s) (honly : OnlySegment i s t)
    (hq : s.road.segments[i].waiting = x :: t.road.segments[i].waiting)
    (hh : t.road.segments[i].holding = s.road.segments[i].holding ++ [x])
    (ho : t.road.segments[i].occupying = s.road.segments[i].occupying) : TruckPlacesKept t := by
  obtain ⟨hone, hbetween⟩ := truckPlacesKept_iff.mp hs
  have hi := hone i
  have hx : x ∈ s.road.segments[i].waiting := hq ▸ List.mem_cons_self
  obtain ⟨hxh, hxo⟩ := hi.waits x hx
  have hnew := hi.waiters
  rw [hq, List.nodup_cons] at hnew
  refine truckPlacesKept_replaced x hs honly ⟨?_, ho ▸ hi.occupants, hnew.2, fun y hy => ?_, fun y hy => ?_⟩
    (fun y hy => ⟨fun h => ?_, fun h => ho ▸ h, fun h => hq ▸ List.mem_cons_of_mem _ h⟩) fun j hj => ?_
  · rw [hh]
    exact nodup_append_singleton hi.holders hxh
  · have old := hi.waits y (hq ▸ List.mem_cons_of_mem _ hy)
    rw [hh, ho, List.mem_append, List.mem_singleton]
    exact ⟨fun h => h.elim old.1 fun e => hnew.1 (e ▸ hy), old.2⟩
  · rw [hh, List.mem_append, List.mem_singleton] at hy
    rw [ho]
    exact hy.elim (hi.holds y) fun e => e ▸ hxo
  · rw [hh, List.mem_append, List.mem_singleton] at h
    exact h.resolve_right hy
  · obtain ⟨-, hocc, hwait⟩ := hbetween i j (Ne.symm hj) x
    obtain ⟨-, hocc', hwait'⟩ := hbetween j i hj x
    obtain ⟨hxw, hxh'⟩ := hwait hx
    exact ⟨⟨fun _ => hxh', fun h => hocc (ho ▸ h), fun h => absurd h hnew.1⟩,
      ⟨fun h => absurd h hxh', fun h => ho ▸ hocc' h, fun h => absurd h hxw⟩⟩

/-- A truck that holds the segment and occupies no other enters. -/
theorem TruckPlacesKept.enter (hs : TruckPlacesKept s) (honly : OnlySegment i s t) (hx : x ∈ s.road.segments[i].holding)
    (hh : t.road.segments[i].holders = s.road.segments[i].holders.filter (fun k => k.truck != x))
    (hg : t.road.segments[i].granted = s.road.segments[i].granted ++ [x])
    (hu : t.road.segments[i].unauthorised = s.road.segments[i].unauthorised)
    (hq : t.road.segments[i].queue = s.road.segments[i].queue)
    (hj : ∀ j : Fin 16, j ≠ i → x ∉ s.road.segments[j].occupying) : TruckPlacesKept t := by
  obtain ⟨hone, hbetween⟩ := truckPlacesKept_iff.mp hs
  have hi := hone i
  have hxo := hi.holds x hx
  have hxw : x ∉ s.road.segments[i].waiting := fun h => (hi.waits x h).1 hx
  have hleft : x ∉ t.road.segments[i].holding := by
    rw [Segment.holding, hh]
    simp
  have hsub : t.road.segments[i].holding.Sublist s.road.segments[i].holding := by
    unfold Segment.holding
    rw [hh]
    exact List.filter_sublist.map _
  have hperm : t.road.segments[i].occupying.Perm (s.road.segments[i].occupying ++ [x]) := by
    simp only [Segment.occupying, hg, hu, List.append_assoc]
    exact List.Perm.append_left _ List.perm_append_comm
  have hmem (y : Id) : y ∈ t.road.segments[i].occupying ↔ y ∈ s.road.segments[i].occupying ∨ y = x := by
    rw [hperm.mem_iff, List.mem_append, List.mem_singleton]
  have hwaiting : t.road.segments[i].waiting = s.road.segments[i].waiting := congrArg (List.map (·.truck)) hq
  refine truckPlacesKept_replaced x hs honly ⟨hi.holders.sublist hsub, ?_, hwaiting ▸ hi.waiters, fun y hy => ?_, fun y hy => ?_⟩
    (fun y hy => ⟨fun h => hsub.subset h, fun h => ((hmem y).mp h).resolve_right hy, fun h => hwaiting ▸ h⟩) fun j hij => ?_
  · exact hperm.nodup_iff.mpr (nodup_append_singleton hi.occupants hxo)
  · rw [hwaiting] at hy
    obtain ⟨hyh, hyo⟩ := hi.waits y hy
    exact ⟨fun h => hyh (hsub.subset h), fun h => ((hmem y).mp h).elim hyo fun e => hxw (e ▸ hy)⟩
  · exact fun h => ((hmem y).mp h).elim (hi.holds y (hsub.subset hy)) fun e => hleft (e ▸ hy)
  · obtain ⟨-, -, hwait⟩ := hbetween i j (Ne.symm hij) x
    obtain ⟨-, -, hwait'⟩ := hbetween j i hij x
    exact ⟨⟨fun h => absurd h hleft, fun _ => hj j hij, fun h => hwait (hwaiting ▸ h)⟩,
      ⟨fun _ => hleft, fun h => absurd h (hj j hij), fun h => ⟨hwaiting ▸ (hwait' h).1, hleft⟩⟩⟩

/-- A truck without a place in the segment and no occupant of another is listed as unauthorised. -/
theorem TruckPlacesKept.unlist (hs : TruckPlacesKept s) (honly : OnlySegment i s t) (hxh : x ∉ s.road.segments[i].holding)
    (hxo : x ∉ s.road.segments[i].occupying) (hxw : x ∉ s.road.segments[i].waiting)
    (hh : t.road.segments[i].holders = s.road.segments[i].holders) (hg : t.road.segments[i].granted = s.road.segments[i].granted)
    (hu : t.road.segments[i].unauthorised = s.road.segments[i].unauthorised ++ [x])
    (hq : t.road.segments[i].queue = s.road.segments[i].queue)
    (hj : ∀ j : Fin 16, j ≠ i → x ∉ s.road.segments[j].occupying) : TruckPlacesKept t := by
  obtain ⟨hone, hbetween⟩ := truckPlacesKept_iff.mp hs
  have hi := hone i
  have hocc : t.road.segments[i].occupying = s.road.segments[i].occupying ++ [x] := by
    rw [Segment.occupying, hg, hu, List.append_assoc]
  have hmem (y : Id) : y ∈ t.road.segments[i].occupying ↔ y ∈ s.road.segments[i].occupying ∨ y = x := by
    rw [hocc, List.mem_append, List.mem_singleton]
  have hholding : t.road.segments[i].holding = s.road.segments[i].holding := congrArg (List.map (·.truck)) hh
  have hwaiting : t.road.segments[i].waiting = s.road.segments[i].waiting := congrArg (List.map (·.truck)) hq
  refine truckPlacesKept_replaced x hs honly ⟨hholding ▸ hi.holders, ?_, hwaiting ▸ hi.waiters, fun y hy => ?_, fun y hy => ?_⟩
    (fun y hy => ⟨fun h => hholding ▸ h, fun h => ((hmem y).mp h).resolve_right hy, fun h => hwaiting ▸ h⟩) fun j hij => ?_
  · rw [hocc]
    exact nodup_append_singleton hi.occupants hxo
  · rw [hwaiting] at hy
    obtain ⟨hyh, hyo⟩ := hi.waits y hy
    exact ⟨hholding ▸ hyh, fun h => ((hmem y).mp h).elim hyo fun e => hxw (e ▸ hy)⟩
  · rw [hholding] at hy
    exact fun h => ((hmem y).mp h).elim (hi.holds y hy) fun e => hxh (e ▸ hy)
  · rw [← hholding] at hxh
    rw [← hwaiting] at hxw
    obtain ⟨-, -, hwait'⟩ := hbetween j i hij x
    exact ⟨⟨fun h => absurd h hxh, fun _ => hj j hij, fun h => absurd h hxw⟩,
      ⟨fun _ => hxh, fun h => absurd h (hj j hij), fun _ => ⟨hxw, hxh⟩⟩⟩

/-- A truck that holds and waits nowhere and does not occupy the segment is queued. -/
theorem TruckPlacesKept.wait (hs : TruckPlacesKept s) (honly : OnlySegment i s t) (hxo : x ∉ s.road.segments[i].occupying)
    (hh : t.road.segments[i].holders = s.road.segments[i].holders) (hg : t.road.segments[i].granted = s.road.segments[i].granted)
    (hu : t.road.segments[i].unauthorised = s.road.segments[i].unauthorised)
    (hq : t.road.segments[i].waiting = s.road.segments[i].waiting ++ [x])
    (hj : ∀ j : Fin 16, x ∉ s.road.segments[j].holding ∧ x ∉ s.road.segments[j].waiting) : TruckPlacesKept t := by
  obtain ⟨hone, hbetween⟩ := truckPlacesKept_iff.mp hs
  have hi := hone i
  obtain ⟨hxh, hxw⟩ := hj i
  have hocc : t.road.segments[i].occupying = s.road.segments[i].occupying := by
    rw [Segment.occupying, hg, hu]
  have hholding : t.road.segments[i].holding = s.road.segments[i].holding := congrArg (List.map (·.truck)) hh
  have hmem (y : Id) : y ∈ t.road.segments[i].waiting ↔ y ∈ s.road.segments[i].waiting ∨ y = x := by
    rw [hq, List.mem_append, List.mem_singleton]
  refine truckPlacesKept_replaced x hs honly ⟨hholding ▸ hi.holders, hocc ▸ hi.occupants, ?_, fun y hy => ?_, fun y hy => ?_⟩
    (fun y hy => ⟨fun h => hholding ▸ h, fun h => hocc ▸ h, fun h => ((hmem y).mp h).resolve_right hy⟩) fun j hij => ?_
  · rw [hq]
    exact nodup_append_singleton hi.waiters hxw
  · rw [hholding, hocc]
    exact ((hmem y).mp hy).elim (hi.waits y) fun e => e ▸ ⟨hxh, hxo⟩
  · rw [hholding] at hy
    rw [hocc]
    exact hi.holds y hy
  · obtain ⟨-, hocc1, -⟩ := hbetween i j (Ne.symm hij) x
    obtain ⟨-, hocc2, -⟩ := hbetween j i hij x
    obtain ⟨hjh, hjw⟩ := hj j
    exact ⟨⟨fun _ => hjh, fun h => hocc1 (hocc ▸ h), fun _ => ⟨hjw, hjh⟩⟩,
      ⟨fun h => absurd h hjh, fun h => hocc ▸ hocc2 h, fun h => absurd h hjw⟩⟩

end

theorem truckPlacesKept_roadLaw : RoadLaw TruckPlacesKept where
  same {s t} hs _ _ hroad := by
    unfold TruckPlacesKept at *
    rwa [hroad]
  empty _ hroad := by
    unfold TruckPlacesKept
    rw [hroad]
    simp [holds, occupies, waits]
  start _ _ hroad hs := by
    unfold TruckPlacesKept at *
    rwa [hroad]
  shrinks {s t} _ _ _ hk hs := by
    rw [truckPlacesKept_iff] at hs ⊢
    obtain ⟨hone, hbetween⟩ := hs
    refine ⟨fun i => (hone i).shrinks (hk i), fun i j hij x => (hbetween i j hij x).mono ?_ ?_⟩
    · obtain ⟨hh, ho, hw⟩ := (hk i).subsets
      exact ⟨fun h => hh h, fun h => ho h, fun h => hw h⟩
    · obtain ⟨hh, ho, hw⟩ := (hk j).subsets
      exact ⟨fun h => hh h, fun h => ho h, fun h => hw h⟩
  joins {s t i} _ honly hj hs := by
    cases hj with
    | grant x hq hh hg hu _ => exact hs.grant honly hq hh (by rw [Segment.occupying, hg, hu])
    | enter x hx hh hg hu hq hj =>
      exact hs.enter honly (holds_iff.mp hx) hh hg hu hq fun j hij => occupies_false_iff.mp (hj j hij)
    | unlist x hx ho hw _ hh hg hu hq hj =>
      exact hs.unlist honly (holds_false_iff.mp hx) (occupies_false_iff.mp ho) (waits_false_iff.mp hw) hh hg hu hq
        fun j hij => occupies_false_iff.mp (hj j hij)
    | wait w ho _ hh hg hu hq hj =>
      exact hs.wait honly (occupies_false_iff.mp ho) hh hg hu (by rw [Segment.waiting, hq, List.map_append]; rfl) fun j =>
        ⟨holds_false_iff.mp (hj j).1, waits_false_iff.mp (hj j).2⟩

theorem RoadLaw.step {L : State → Prop} (h : RoadLaw L) {s t : State} (hs : L s) (ht : Machine.step s = .next t) : L t :=
  h.kept.step (fun _ hu => h.same hu rfl rfl rfl) hs ht

/-- Settles O54: trucks come into the lists of a segment in four ways alone, and each keeps the three laws. -/
theorem grantsStayWithinConvoy : Obligations.GrantsStayWithinConvoy :=
  ⟨fun _ _ => grantsKept_roadLaw.step, fun _ _ => roadListsKept_roadLaw.step, fun _ _ => truckPlacesKept_roadLaw.step⟩

end Sys2Proof.Machine
end

section
/-! PROOFS. The bounds of the event ring and of the part send list (R92, R93, R176). -/

set_option Elab.async false

namespace Sys2Proof.Machine

open Sys2Proof.Config

/-! ## The list -/

/-- The send list within its bounds and in its order (Law 12). -/
structure ListKept (l : List PartFrame) : Prop where
  bound : l.length ≤ sendListSize
  evacuates : l.countP PartFrame.isEvacuate ≤ 1
  relays : ∀ m : Id, l.countP (PartFrame.relays m) ≤ 1
  sorted : (l.map PartFrame.urgency).Pairwise (· ≤ ·)

theorem ListKept.sublist {l l' : List PartFrame} (h : ListKept l) (hs : l'.Sublist l) : ListKept l' where
  bound := hs.length_le.trans h.bound
  evacuates := (hs.countP_le).trans h.evacuates
  relays m := (hs.countP_le).trans (h.relays m)
  sorted := h.sorted.sublist (hs.map _)

/-- What a request that is neither replaced nor absorbed finds in the list: no frame of its own subject. -/
theorem replaceOrAbsorb_none {f : PartFrame} {l : List PartFrame} (h : replaceOrAbsorb f l = none) :
    (PartFrame.isEvacuate f = true → l.countP PartFrame.isEvacuate = 0)
      ∧ ∀ m : Id, PartFrame.relays m f = true → l.countP (PartFrame.relays m) = 0 := by
  cases f with
  | evacuate =>
    refine ⟨fun _ => ?_, fun m hm => absurd hm (by simp [PartFrame.relays])⟩
    simpa [replaceOrAbsorb] using h
  | distressRelay n =>
    refine ⟨fun he => absurd he (by simp [PartFrame.isEvacuate]), fun m hm => ?_⟩
    have hm : n = m := by simpa [PartFrame.relays] using hm
    subst hm
    simpa [replaceOrAbsorb] using h
  | airAlarm | refugeAlarm | halt | revoke | grant =>
    exact ⟨fun he => absurd he (by simp [PartFrame.isEvacuate]), fun m hm => absurd hm (by simp [PartFrame.relays])⟩

theorem insertFrame_perm (f : PartFrame) (l : List PartFrame) : (insertFrame f l).Perm (f :: l) := by
  unfold insertFrame
  dsimp only
  refine List.perm_middle.trans ?_
  rw [List.takeWhile_append_dropWhile]

/-- An insertion leaves the list in order of urgency. -/
theorem insertFrame_sorted {f : PartFrame} {l : List PartFrame} (h : (l.map PartFrame.urgency).Pairwise (· ≤ ·)) :
    ((insertFrame f l).map PartFrame.urgency).Pairwise (· ≤ ·) := by
  induction l with
  | nil => simp [insertFrame]
  | cons g rest ih =>
    rw [List.map_cons, List.pairwise_cons] at h
    by_cases hg : PartFrame.urgency g ≤ PartFrame.urgency f
    · have hcons : insertFrame f (g :: rest) = g :: insertFrame f rest := by simp [insertFrame, hg]
      rw [hcons, List.map_cons, List.pairwise_cons]
      refine ⟨fun u hu => ?_, ih h.2⟩
      obtain ⟨k, hk, rfl⟩ := List.mem_map.mp hu
      rcases mem_insertFrame hk with rfl | hk
      · exact hg
      · exact h.1 _ (List.mem_map_of_mem hk)
    · have hcons : insertFrame f (g :: rest) = f :: g :: rest := by simp [insertFrame, hg]
      rw [hcons, List.map_cons, List.pairwise_cons, List.map_cons, List.pairwise_cons]
      refine ⟨fun u hu => ?_, h⟩
      rcases List.mem_cons.mp hu with rfl | hu
      · omega
      · have := h.1 u hu
        omega

/-- A request enters a list with room that holds no frame of its subject. -/
theorem ListKept.insert {f : PartFrame} {l : List PartFrame} (h : ListKept l) (hroom : l.length < sendListSize)
    (he : PartFrame.isEvacuate f = true → l.countP PartFrame.isEvacuate = 0)
    (hr : ∀ m : Id, PartFrame.relays m f = true → l.countP (PartFrame.relays m) = 0) : ListKept (insertFrame f l) where
  bound := by
    rw [(insertFrame_perm f l).length_eq, List.length_cons]
    omega
  evacuates := by
    rw [(insertFrame_perm f l).countP_eq, List.countP_cons]
    split
    · rw [he ‹_›]
    · exact h.evacuates
  relays m := by
    rw [(insertFrame_perm f l).countP_eq, List.countP_cons]
    split
    · rw [hr m ‹_›]
    · exact h.relays m
  sorted := insertFrame_sorted h.sorted

/-- An EVACUATE frame in the place of another is of its kind and its urgency. -/
theorem replaced_evacuate {f : PartFrame} (hf : PartFrame.isEvacuate f = true) (g : PartFrame) :
    PartFrame.isEvacuate (if PartFrame.isEvacuate g then f else g) = PartFrame.isEvacuate g
      ∧ PartFrame.urgency (if PartFrame.isEvacuate g then f else g) = PartFrame.urgency g
      ∧ ∀ m, PartFrame.relays m (if PartFrame.isEvacuate g then f else g) = PartFrame.relays m g := by
  have urgent : ∀ k : PartFrame, PartFrame.isEvacuate k = true → PartFrame.urgency k = 1 ∧ ∀ m, PartFrame.relays m k = false := by
    intro k hk
    cases k with
    | evacuate => exact ⟨rfl, fun _ => rfl⟩
    | distressRelay | airAlarm | refugeAlarm | halt | revoke | grant => cases hk
  split
  · rename_i hg
    obtain ⟨hu, hr⟩ := urgent f hf
    obtain ⟨hu', hr'⟩ := urgent g hg
    exact ⟨hf.trans hg.symm, hu.trans hu'.symm, fun m => (hr m).trans (hr' m).symm⟩
  · exact ⟨rfl, rfl, fun _ => rfl⟩

/-- A replacement keeps every place of the list. -/
theorem ListKept.replaceOrAbsorb {f : PartFrame} {l l' : List PartFrame} (h : ListKept l)
    (hl : Machine.replaceOrAbsorb f l = some l') : ListKept l' := by
  cases f with
  | evacuate a b c d =>
    simp only [Machine.replaceOrAbsorb] at hl
    split at hl
    · cases hl
      have place := replaced_evacuate (f := .evacuate a b c d) rfl
      refine ⟨by simpa using h.bound, ?_, fun m => ?_, ?_⟩
      · rw [List.countP_map, show PartFrame.isEvacuate ∘ _ = PartFrame.isEvacuate from funext fun g => (place g).1]
        exact h.evacuates
      · rw [List.countP_map, show PartFrame.relays m ∘ _ = PartFrame.relays m from funext fun g => (place g).2.2 m]
        exact h.relays m
      · rw [List.map_map, show PartFrame.urgency ∘ _ = PartFrame.urgency from funext fun g => (place g).2.1]
        exact h.sorted
    · cases hl
  | distressRelay =>
    simp only [Machine.replaceOrAbsorb] at hl
    split at hl
    · cases hl
      exact h
    · cases hl
  | airAlarm | refugeAlarm | halt | revoke | grant => cases hl

theorem dropNewest_sublist (u : Nat) (l : List PartFrame) : (dropNewest u l).Sublist l := by
  have h := (List.eraseP_sublist (l := l.reverse) (p := fun g => PartFrame.urgency g == u)).reverse
  rwa [List.reverse_reverse] at h

theorem dropNewest_length {u : Nat} {l : List PartFrame} {g : PartFrame}
    (h : l.reverse.find? (fun k => PartFrame.urgency k == u) = some g) : (dropNewest u l).length < l.length := by
  have hmem := List.mem_of_find?_eq_some h
  have hfound := List.find?_some h
  have hlen := List.length_eraseP_of_mem (p := fun k : PartFrame => PartFrame.urgency k == u) hmem hfound
  have hpos := List.length_pos_of_mem hmem
  simp only [dropNewest, List.length_reverse] at *
  omega

/-! ## The law -/

theorem capacitiesKept_iff {s : State} : CapacitiesKept s ↔ occupancy s.fault ≤ ringRecords ∧ ListKept s.ring.list :=
  ⟨fun ⟨ho, hb, he, hr, hs⟩ => ⟨ho, hb, he, hr, hs⟩, fun ⟨ho, hb, he, hr, hs⟩ => ⟨ho, hb, he, hr, hs⟩⟩

section
variable {s t : State}

theorem CapacitiesKept.of_same (h : CapacitiesKept s) (hf : occupancy t.fault = occupancy s.fault) (hl : t.ring.list = s.ring.list) :
    CapacitiesKept t := by
  rw [capacitiesKept_iff] at *
  rwa [hf, hl]

theorem CapacitiesKept.works {o : List Opening} (h : CapacitiesKept s) (hw : Works o s t) (hl : .list ∉ o := by decide) :
    CapacitiesKept t := by
  rw [capacitiesKept_iff] at *
  exact ⟨hw.occupancy h.1, h.2.sublist (hw.list hl)⟩

theorem takeRequest_list {f : PartFrame} (h : ListKept s.ring.list) : ListKept (takeRequest f s).ring.list := by
  have dropped (w : Bool) (u : State) (hu : ListKept u.ring.list) : ListKept (dropFrame f w u).ring.list :=
    hu.sublist ((dropFrame_works f w u).list (by decide))
  unfold takeRequest
  dsimp only
  split
  · exact h.replaceOrAbsorb ‹_›
  · rename_i hnone
    obtain ⟨he, hr⟩ := replaceOrAbsorb_none hnone
    split
    · exact h.insert ‹_› he hr
    · split
      · rename_i newest hnewest
        split
        · have hsub := dropNewest_sublist (leastUrgent s.ring.list) s.ring.list
          have inserted : ListKept (insertFrame f (dropNewest (leastUrgent s.ring.list) s.ring.list)) := by
            refine (h.sublist hsub).insert ((dropNewest_length hnewest).trans_le h.bound)
              (fun hf => Nat.le_zero.mp (he hf ▸ hsub.countP_le)) fun m hm => Nat.le_zero.mp (hr m hm ▸ hsub.countP_le)
          exact inserted.sublist ((dropFrame_works newest true _).list (by decide))
        · exact dropped _ _ h
      · exact dropped _ _ h

theorem CapacitiesKept.settleStep {s0 : State} (h : CapacitiesKept s) (ht : Machine.settleStep s0 s = some t) :
    CapacitiesKept t := by
  rcases settleStep_cases ht with ⟨-, rfl⟩ | ⟨-, hu⟩ | ⟨-, -, hp⟩
  · exact h.works (enterFollowUp_works fun u _ => stall_works u)
  · obtain ⟨-, ⟨-, rfl⟩ | ⟨-, i, -, rfl⟩ | ⟨-, -, p, -, rfl⟩ | ⟨-, -, -, -, rfl⟩ | ⟨-, -, -, -, f, rest, hf, rfl⟩
      | ⟨-, -, -, -, -, -, rfl⟩⟩ := settleUnits_cases hu
    · exact h.works (deriveLevel_works s)
    · exact h.works (serveSegment_works i s)
    · exact h.works (forgetTruck_works p s)
    · exact h.works (setMuster_works _ s)
    · rw [capacitiesKept_iff] at *
      exact ⟨(takeRequest_works hf).occupancy h.1, takeRequest_list (s := { s with ring := { s.ring with requests := rest } }) h.2⟩
    · rw [capacitiesKept_iff] at *
      refine ⟨(buildFrame_works s).occupancy h.1, h.2.sublist ?_⟩
      unfold buildFrame
      split
      · exact .refl _
      · rename_i hl
        rw [hl]
        exact List.sublist_cons_self _ _
  · exact h.works (settlePath_works (o := pathOpenings) (by simp) hp fun u _ => stall_works u)

theorem sweepPut_fault (s : State) : (sweepPut s).fault = s.fault ∧ (sweepPut s).ring = s.ring := by
  unfold sweepPut
  split
  · exact ⟨rfl, rfl⟩
  · split
    · split
      · exact ⟨rfl, rfl⟩
      · exact ⟨rfl, rfl⟩
    · exact ⟨rfl, rfl⟩

theorem CapacitiesKept.sweepPut (h : CapacitiesKept s) : CapacitiesKept (sweepPut s) :=
  h.of_same (congrArg occupancy (sweepPut_fault s).1) (congrArg RingUnit.list (sweepPut_fault s).2)

theorem CapacitiesKept.event {f : State → State} (h : CapacitiesKept (f (beginEvent s))) : CapacitiesKept (Machine.event f s) :=
  event_keeps (fun _ _ _ hs ht => hs.settleStep ht) (fun _ hu => hu.sweepPut) (fun _ hu => hu.of_same rfl rfl) h

theorem CapacitiesKept.reset {kind : ResetKind} {count : Nat} {strap : BitVec 2} {copies : Settings} {staged : Staged} :
    CapacitiesKept (resetPart kind count strap copies staged s) :=
  capacitiesKept_iff.mpr ⟨by simp [resetPart, occupancy], ⟨by simp [resetPart], by simp [resetPart], by simp [resetPart],
    by simp [resetPart]⟩⟩

theorem CapacitiesKept.acted (h : CapacitiesKept s) (ha : Acted s t) : CapacitiesKept t := by
  cases ha with
  | nothing => exact h
  | start =>
    obtain ⟨v, hv⟩ := enterRun_eq s
    have entered : CapacitiesKept (enterRun s) := by
      rw [capacitiesKept_iff] at *
      rw [hv]
      exact h
    exact entered.works (runEntry_works s)
  | restart => exact .reset
  | drain => exact h.works (drainOldest_works s)
  | inRun _ ha => exact h.works ha.works_words

end

theorem capacitiesKept_kept : Kept CapacitiesKept where
  reset _ _ _ _ _ _ := .reset
  memory _ _ h := h.of_same rfl rfl
  staged _ h := h.of_same rfl rfl
  copies _ _ h := h.of_same rfl rfl
  readData _ h := h.of_same rfl rfl
  arming _ h := h.of_same rfl rfl
  pins _ h := h.of_same rfl rfl
  capture _ _ h := h.of_same rfl rfl
  patrol {s} hrun hq h := patrolRead_cases hrun hq (h.of_same rfl rfl) fun t w _ _ ht =>
    CapacitiesKept.event (CapacitiesKept.works (s := beginEvent t) (ht.of_same rfl rfl)
      (mirrorMismatch_works_words s.path.patrolCursor w (beginEvent t)))
  patrolDue h := h.of_same rfl rfl
  sweep h := h.sweepPut
  tick _ := tick_keeps (fun _ h => h.of_same rfl rfl) (fun _ h => h.of_same rfl rfl) fun _ h => h.of_same rfl rfl
  event {s f} ha h := by
    obtain ⟨t, w, ht, hf⟩ := ha
    refine CapacitiesKept.event ?_
    rw [hf]
    exact (CapacitiesKept.acted (s := beginEvent s) (h.of_same rfl rfl) ht).of_same rfl rfl

/-- Settles O58: a record enters only below the ring's bound, and a request enters the list only with room and no frame of its subject. -/
theorem ringAndSendListKept : Obligations.RingAndSendListKept :=
  fun _ _ h ht => capacitiesKept_kept.step (fun _ hs => hs.of_same rfl rfl) h ht

end Sys2Proof.Machine
end

section
/-! PROOFS. The own-write queue (R66, R69 to R71): every entry is one of the part's own words, and a drain writes no other byte. -/

set_option Elab.async false

namespace Sys2Proof.Machine

open Sys2Proof.Config

/-! ## Own words -/

theorem OwnWord.of_same {s t : State} {a : Addr} (h : OwnWord s a) (hstrap : t.strap = s.strap) (hrun : t.run = s.run)
    (heff : t.effective = s.effective) : OwnWord t a := by
  simpa only [OwnWord, settingAddr, reportAddr, eventsAddr, ringStart, hstrap, hrun, heff] using h

theorem OwnByte.of_same {s t : State} {b : Nat} (h : OwnByte s b) (hstrap : t.strap = s.strap) (hrun : t.run = s.run)
    (heff : t.effective = s.effective) : OwnByte t b := by
  obtain ⟨a, ha, hb⟩ := h
  exact ⟨a, ha.of_same hstrap hrun heff, hb⟩

section
variable {s t : State}

theorem ownWord_outcome (s : State) : OwnWord s (settingAddr s 0xF04) := .inl rfl

theorem ownWord_report (hrun : s.run = true) {o : Nat} (ho : ReportOffset o) : OwnWord s (reportAddr s o) :=
  .inr ⟨hrun, .inl ⟨o, ho.1, ho.2, rfl⟩⟩

theorem ownWord_events (hrun : s.run = true) {o : Nat} (ho : o < 2048) (h4 : o % 4 = 0) (hne : o ≠ 4) :
    OwnWord s (eventsAddr s o) := .inr ⟨hrun, .inr (.inl ⟨o, ho, h4, hne, rfl⟩)⟩

/-- In SETUP the outcome word is the part's only own word. -/
theorem OwnWord.setup {a : Addr} (h : OwnWord s a) (hrun : s.run = false) : a = settingAddr s 0xF04 :=
  h.resolve_right fun k => absurd (hrun.symm.trans k.1) (by decide)

/-! ## The PART ring -/

theorem ringStart_one (s : State) : ringStart s 1 = 8 ∨ ringStart s 1 = 16 := by
  unfold ringStart splitBounds
  split <;> decide

theorem ringStart_zero (s : State) : ringStart s 0 = 0 := by
  unfold ringStart splitBounds
  split <;> rfl

/-- The slot after one of the PART ring is in the PART ring. -/
theorem slotAfter_part {n : Nat} (h : n < ringStart s 1) : (slotAfter s n).val < ringStart s 1 := by
  have hone := ringStart_one s
  have hzero := ringStart_zero s
  have hring : ringOf s n = 0 := by rw [ringOf, if_pos h]
  have hnext : (slotAfter s n).val = (if n + 1 = ringStart s 1 then 0 else n + 1) % 64 := by
    simp only [slotAfter, hring, Fin.val_zero, hzero]
    rfl
  rw [hnext]
  split <;> omega

/-- What a unit hands on is one of the part's own words; a drain notice names a slot of the PART ring. -/
def PostOwn (s : State) : Post → Prop
  | .write w => OwnWord s w.addr ∧ ∀ n ∈ w.notice, n.val < ringStart s 1
  | .changed o | .always o => ReportOffset o

theorem RecordOrReport.own {p : Post} (h : RecordOrReport s p) (hrun : s.run = true) : PostOwn s p := by
  cases p with
  | write w =>
    obtain ⟨hn, o, ho, h4, hne, ha⟩ := h
    exact ⟨ha ▸ ownWord_events hrun ho h4 hne, by simp [hn]⟩
  | changed | always => exact h

theorem PostOwn.of_same {p : Post} (h : PostOwn s p) (hstrap : t.strap = s.strap) (hrun : t.run = s.run)
    (heff : t.effective = s.effective) : PostOwn t p := by
  cases p with
  | write w =>
    obtain ⟨ha, hn⟩ := h
    exact ⟨ha.of_same hstrap hrun heff, by simpa only [ringStart, heff] using hn⟩
  | changed | always => exact h

end

/-! ## The path inside an event -/

/-- What the path unit keeps inside an event that began with the memory `m`: the law of the queue, own words alone on their way, and no
byte changed but the part's own. -/
structure PathKept (m : List Host.Cell) (s : State) : Prop where
  queue : QueueKept s
  quiet : s.run = false → s.path.posts = [] ∧ s.path.reports = []
  posts : ∀ p ∈ s.path.posts, PostOwn s p
  reports : ∀ p ∈ s.path.reports, PostOwn s p
  memory : Memory.wf m = true → Memory.wf s.mem = true ∧ ∀ b, ¬OwnByte s b → memRead s.mem b = memRead m b

section
variable {m : List Host.Cell} {s t : State}

theorem QueueKept.of_same (h : QueueKept s) (hstrap : t.strap = s.strap) (hrun : t.run = s.run) (heff : t.effective = s.effective)
    (hqueue : t.path.queue = s.path.queue) (hfollow : t.path.followUp = s.path.followUp) (hsweep : t.path.sweep = s.path.sweep)
    (hfill : t.ring.fill = s.ring.fill ∨ t.ring.fill = 0) : QueueKept t := by
  obtain ⟨hbound, hdistinct, hown, hnotice, hf, hsetup⟩ := h
  have hpos : 0 < ringStart t 1 := by
    rcases ringStart_one t with h | h <;> omega
  refine ⟨by rwa [hqueue], by rwa [hqueue], ?_, ?_, fun hr => ?_, fun hr => ?_⟩
  · rw [hqueue]
    exact fun w hw => (hown w hw).of_same hstrap hrun heff
  · rw [hqueue, hrun]
    simpa only [ringStart, heff] using hnotice
  · rcases hfill with hfill | hfill
    · rw [hfill]
      simpa only [ringStart, heff] using hf (hrun.symm.trans hr)
    · rw [hfill]
      exact hpos
  · obtain ⟨h0, hf0, hs0⟩ := hsetup (hrun.symm.trans hr)
    exact ⟨hfill.elim (fun h => h.trans h0) id, hfollow.trans hf0, hsweep.trans hs0⟩

/-- A unit's work on the state keeps the path, if what it hands on is the part's own. -/
theorem PathKept.beside {l : List Area} (h : PathKept m s) (hb : Beside l s t)
    (hquiet : s.run = false → t.path.posts = [] ∧ t.path.reports = []) (hposts : ∀ p ∈ t.path.posts, p ∈ s.path.posts ∨ PostOwn s p)
    (hreports : ∀ p ∈ t.path.reports, p ∈ s.path.reports ∨ PostOwn s p) : PathKept m t := by
  obtain ⟨hsame, hmem, hqueue, hfollow, hsweep, -, -, -, hfill⟩ := hb
  have own {p : Post} (hp : PostOwn s p) : PostOwn t p := hp.of_same hsame.strap hsame.run hsame.effective
  exact {
    queue := h.queue.of_same hsame.strap hsame.run hsame.effective hqueue hfollow hsweep hfill
    quiet := fun hr => hquiet (hsame.run.symm.trans hr)
    posts := fun p hp => own ((hposts p hp).elim (h.posts p) id)
    reports := fun p hp => own ((hreports p hp).elim (h.reports p) id)
    memory := fun hm => ⟨hmem ▸ (h.memory hm).1, fun b hb => hmem ▸ (h.memory hm).2 b fun ho =>
      hb (ho.of_same hsame.strap hsame.run hsame.effective)⟩ }

/-- Work in RUN that names words of records and of REPORT alone. -/
theorem PathKept.works {l : List Area} {o : List Opening} (h : PathKept m s) (hb : Beside l s t) (hw : Works o s t)
    (hrun : s.run = true) (hn : .words ∉ o := by decide) : PathKept m t :=
  h.beside hb (fun hr => absurd (hr.symm.trans hrun) (by decide)) (fun p hp => (hw.posts hn p hp).imp id (·.own hrun))
    fun p hp => (hw.reports hn p hp).imp id (·.own hrun)

/-! ### Draining -/

theorem drainOldest_nil (h : s.path.queue = []) : drainOldest s = s := by
  unfold drainOldest
  rw [h]

/-- The word of the oldest entry is in memory and the entry has left the queue. -/
def writtenOut (w : OwnWrite) (rest : List OwnWrite) (s : State) : State :=
  { s with mem := memWriteWord s.mem w.addr.toNat w.data, path := { s.path with queue := rest } }

theorem drainOldest_plain {w : OwnWrite} {rest : List OwnWrite} (h : s.path.queue = w :: rest) (hn : w.notice = none) :
    drainOldest s = writtenOut w rest s := by
  unfold drainOldest
  simp only [h, hn]
  rfl

theorem drainOldest_notice {w : OwnWrite} {rest : List OwnWrite} {n : Fin 16} (h : s.path.queue = w :: rest)
    (hn : w.notice = some n) : drainOldest s = drainNotice n (writtenOut w rest s) := by
  unfold drainOldest
  simp only [h, hn]
  rfl

/-- An entry leaves the head of the queue and its word is in memory. -/
theorem PathKept.written {w : OwnWrite} {rest : List OwnWrite} (h : PathKept m s) (hq : s.path.queue = w :: rest) :
    PathKept m (writtenOut w rest s) := by
  obtain ⟨hbound, hdistinct, hown, hnotice, hf, hsetup⟩ := h.queue
  rw [hq] at hbound hdistinct hown hnotice
  simp only [List.length_cons, List.map_cons, List.nodup_cons] at hbound hdistinct
  exact {
    queue := ⟨by show rest.length ≤ _; omega, hdistinct.2, fun v hv => hown v (List.mem_cons_of_mem _ hv),
      fun v hv => hnotice v (List.mem_cons_of_mem _ hv), hf, hsetup⟩
    quiet := h.quiet
    posts := h.posts
    reports := h.reports
    memory := fun hm => by
      obtain ⟨hwf, hread⟩ := h.memory hm
      refine ⟨memWriteWord_wf _ _ hwf, fun b hb => ?_⟩
      have hout : ¬(w.addr.toNat ≤ b ∧ b < w.addr.toNat + 4) := fun hin =>
        hb ⟨w.addr, hown w List.mem_cons_self, hin⟩
      show memRead (memWriteWord s.mem w.addr.toNat w.data) b = _
      rw [memRead_memWriteWord _ _ _ hwf, if_neg hout]
      exact hread b hb }

theorem PathKept.drainNotice {n : Fin 16} (h : PathKept m s) (hrun : s.run = true) (hn : n.val < ringStart s 1) :
    PathKept m (drainNotice n s) := by
  unfold Machine.drainNotice
  dsimp only
  split
  · exact h
  · have shown := h.works (changeShadow_beside (Fin.ofNat 64 n.val) (fun h => { h with state := .ready, length := 16 }) s)
      (changeShadow_works _ _ s) hrun
    have filled : PathKept m { changeShadow (Fin.ofNat 64 n.val) (fun h => { h with state := .ready, length := 16 }) s with
        ring := { (changeShadow (Fin.ofNat 64 n.val) (fun h => { h with state := .ready, length := 16 }) s).ring with
          fill := Fin.ofNat 16 (slotAfter s n.val).val } } := by
      obtain ⟨hbound, hdistinct, hown, hnotice, -, hsetup⟩ := shown.queue
      exact { shown with
        queue := ⟨hbound, hdistinct, hown, hnotice,
          fun _ => (Nat.mod_le _ _).trans_lt (slotAfter_part hn), fun hr => absurd (hr.symm.trans hrun) (by decide)⟩ }
    exact filled.works (reportChanged_within _ _).beside (reportChanged_works (l := [0x170]) _ (by decide)) hrun

theorem PathKept.drainOldest (h : PathKept m s) : PathKept m (drainOldest s) := by
  match hq : s.path.queue with
  | [] => rwa [drainOldest_nil hq]
  | w :: rest =>
    match hn : w.notice with
    | some n =>
      obtain ⟨hrun, hpart⟩ := h.queue.2.2.2.1 w (hq ▸ List.mem_cons_self) n hn
      rw [drainOldest_notice hq hn]
      exact (h.written hq).drainNotice hrun hpart
    | none =>
      rw [drainOldest_plain hq hn]
      exact h.written hq

/-! ### Entering -/

/-- In SETUP the queue has room: its addresses are distinct, and the outcome word is the only own word. -/
theorem QueueKept.room (h : QueueKept s) (hrun : s.run = false) : s.path.queue.length < queueSize := by
  obtain ⟨-, hdistinct, hown, -⟩ := h
  have hone : s.path.queue.map (·.addr) ⊆ [settingAddr s 0xF04] := by
    intro a ha
    obtain ⟨w, hw, rfl⟩ := List.mem_map.mp ha
    simp [(hown w hw).setup hrun]
  have hlen := (hdistinct.subperm hone).length_le
  rw [List.length_map] at hlen
  exact hlen.trans_lt (by simp [queueSize])

theorem QueueKept.appendEntry {w : OwnWrite} (h : QueueKept s) (hroom : s.path.queue.length < queueSize) (hw : OwnWord s w.addr)
    (hn : ∀ n ∈ w.notice, s.run = true ∧ n.val < ringStart s 1) (hnew : w.addr ∉ s.path.queue.map (·.addr)) :
    QueueKept (appendEntry w s) := by
  obtain ⟨hbound, hdistinct, hown, hnotice, hf, hsetup⟩ := h
  refine ⟨?_, ?_, fun v hv => (List.mem_append.mp hv).elim (hown v) fun hv => List.mem_singleton.mp hv ▸ hw,
    fun v hv => (List.mem_append.mp hv).elim (hnotice v) fun hv => List.mem_singleton.mp hv ▸ hn, hf, hsetup⟩
  · show (s.path.queue ++ [w]).length ≤ _
    rw [List.length_append, List.length_singleton]
    omega
  · show ((s.path.queue ++ [w]).map (·.addr)).Nodup
    rw [List.map_append]
    exact nodup_append_new hdistinct hnew

theorem PathKept.appendEntry {w : OwnWrite} (h : PathKept m s) (hroom : s.path.queue.length < queueSize) (hw : OwnWord s w.addr)
    (hn : ∀ n ∈ w.notice, s.run = true ∧ n.val < ringStart s 1) (hnew : w.addr ∉ s.path.queue.map (·.addr)) :
    PathKept m (appendEntry w s) := { h with queue := h.queue.appendEntry hroom hw hn hnew }

theorem drainOldest_same (s : State) : (drainOldest s).strap = s.strap ∧ (drainOldest s).run = s.run
    ∧ (drainOldest s).effective = s.effective := by
  have h := drainOldest_sameBut s
  exact ⟨h.strap, h.run, h.effective⟩

theorem PathKept.stallEnter {w : OwnWrite} (h : PathKept m s) (hfull : s.path.queue.length = queueSize) (hw : OwnWord s w.addr)
    (hn : ∀ n ∈ w.notice, s.run = true ∧ n.val < ringStart s 1) (hnew : w.addr ∉ s.path.queue.map (·.addr)) :
    PathKept m (stallEnter w s) := by
  obtain ⟨hstrap, hrun, heff⟩ := drainOldest_same s
  have hq := drainOldest_queue s
  have entered := h.drainOldest.appendEntry (w := w)
    (by rw [hq, List.length_tail, hfull]; decide) (hw.of_same hstrap hrun heff)
    (by rw [hrun]; simpa only [ringStart, heff] using hn)
    (by rw [hq, List.map_tail]; exact fun hm => hnew (List.mem_of_mem_tail hm))
  exact { entered with }

theorem PathKept.enterNew {w : OwnWrite} (h : PathKept m s) (hw : OwnWord s w.addr)
    (hn : ∀ n ∈ w.notice, s.run = true ∧ n.val < ringStart s 1) (hnew : w.addr ∉ s.path.queue.map (·.addr)) :
    PathKept m (enterNew w s) := by
  unfold Machine.enterNew
  split
  · exact h.appendEntry ‹_› hw hn hnew
  · rename_i hfull
    have hrun : s.run = true := by
      by_contra hr
      exact hfull (h.queue.room (by simpa using hr))
    have entered := h.stallEnter (by have := h.queue.1; omega) hw hn hnew
    exact entered.works (recordFault_quiet _ _ _ (by simp)).beside (recordFault_works _ _ _)
      ((drainOldest_same s).2.1.trans hrun)

theorem PathKept.enterQueue {w : OwnWrite} (h : PathKept m s) (hw : OwnWord s w.addr)
    (hn : ∀ n ∈ w.notice, s.run = true ∧ n.val < ringStart s 1) (hkind : w.kind = .trailing → s.run = true) :
    PathKept m (enterQueue w s) := by
  have coalesced : PathKept m { s with path := { s.path with queue := coalesce s.path.queue w } } := by
    obtain ⟨hbound, hdistinct, hown, hnotice, hf, hsetup⟩ := h.queue
    have same {v : OwnWrite} (hv : v ∈ coalesce s.path.queue w) :
        ∃ e ∈ s.path.queue, v.addr = e.addr ∧ v.notice = e.notice := by
      obtain ⟨e, he, rfl⟩ := List.mem_map.mp hv
      refine ⟨e, he, ?_⟩
      split
      · exact ⟨rfl, rfl⟩
      · exact ⟨rfl, rfl⟩
    exact { h with
      queue := ⟨by simpa [coalesce] using hbound, by simpa only [coalesce_addresses] using hdistinct,
        fun v hv => by
          obtain ⟨e, he, ha, -⟩ := same hv
          exact ha ▸ hown e he,
        fun v hv => by
          obtain ⟨e, he, -, hno⟩ := same hv
          exact hno ▸ hnotice e he, hf, hsetup⟩ }
  unfold Machine.enterQueue
  split
  · split
    · rename_i hk
      obtain ⟨hbound, hdistinct, hown, hnotice, hf, hsetup⟩ := h.queue
      exact { h with
        queue := ⟨hbound, hdistinct, hown, hnotice, hf, fun hr => absurd (hr.symm.trans (hkind hk)) (by decide)⟩ }
    · exact coalesced
    · exact coalesced
  · rename_i hq
    exact h.enterNew hw hn (queued_false (by simpa using hq))

theorem PathKept.enterMirror {o : Nat} (h : PathKept m s) (hrun : s.run = true) (ho : ReportOffset o) :
    PathKept m (enterMirror o s) := by
  have kept : PathKept m { s with path := { s.path with shown := (o, mirror s o) :: s.path.shown } } := { h with }
  exact kept.enterQueue (ownWord_report hrun ho) (fun _ hn => by cases hn) fun _ => hrun

theorem PathKept.enterPost {s0 : State} {p : Post} (h : PathKept m s) (hrun : s.run = true) (hp : PostOwn s p) :
    PathKept m (enterPost s0 p s) := by
  unfold Machine.enterPost
  split
  · obtain ⟨ha, hn⟩ := hp
    exact h.enterQueue ha (fun n hw => ⟨hrun, hn n hw⟩) fun _ => hrun
  · split
    · exact h
    · exact h.enterMirror hrun hp
  · split
    · exact h.enterMirror hrun hp
    · exact h

theorem PathKept.enterFollowUp (h : PathKept m s) (hfree : followUpFree s = true) : PathKept m (enterFollowUp s) := by
  unfold Machine.enterFollowUp
  simp only [followUpFree, Bool.and_eq_true, Bool.not_eq_true'] at hfree
  split
  · rename_i d hd
    obtain ⟨hbound, hdistinct, hown, hnotice, hf, hsetup⟩ := h.queue
    have hrun : s.run = true := by
      by_contra hr
      rw [(hsetup (by simpa using hr)).2.1] at hd
      cases hd
    have dropped : PathKept m { s with path := { s.path with followUp := none } } := { h with
      queue := ⟨hbound, hdistinct, hown, hnotice, hf, fun hr => absurd (hr.symm.trans hrun) (by decide)⟩ }
    exact dropped.enterNew (ownWord_events (s := { s with path := { s.path with followUp := none } }) hrun (by omega) (by omega)
      (by omega)) (fun _ hn => by cases hn) (queued_false hfree.2)
  · exact h

theorem PathKept.run_of_posts {p : Post} {rest : List Post} (h : PathKept m s)
    (hp : s.path.posts = p :: rest ∨ s.path.reports = p :: rest) : s.run = true := by
  by_contra hr
  obtain ⟨h1, h2⟩ := h.quiet (by simpa using hr)
  rcases hp with hp | hp
  · rw [h1] at hp
    cases hp
  · rw [h2] at hp
    cases hp

theorem PathKept.settlePath {s0 : State} (h : PathKept m s) (ht : settlePath s0 s = some t) : PathKept m t := by
  rcases settlePath_cases ht with ⟨p, rest, hp, rfl⟩ | ⟨p, rest, -, hp, rfl⟩ | ⟨w, -, -, -, rfl⟩ | ⟨-, -, -, -, rfl⟩
  · have hrun := h.run_of_posts (.inl hp)
    have dropped : PathKept m { s with path := { s.path with posts := rest } } := { h with
      quiet := fun hr => absurd (hr.symm.trans hrun) (by decide)
      posts := fun p' hp' => h.posts p' (hp ▸ List.mem_cons_of_mem _ hp') }
    exact dropped.enterPost hrun (h.posts p (hp ▸ List.mem_cons_self))
  · have hrun := h.run_of_posts (.inr hp)
    have dropped : PathKept m { s with path := { s.path with reports := rest } } := { h with
      quiet := fun hr => absurd (hr.symm.trans hrun) (by decide)
      reports := fun p' hp' => h.reports p' (hp ▸ List.mem_cons_of_mem _ hp') }
    exact dropped.enterPost hrun (h.reports p (hp ▸ List.mem_cons_self))
  · have dropped : PathKept m { s with path := { s.path with outcome := none } } := { h with }
    exact dropped.enterQueue (ownWord_outcome s) (fun _ hn => by cases hn) fun hk => by cases hk
  · exact { h with }

/-! ### The send list -/

theorem builtWords_length (node : NodeId) (seq : BitVec 8) (f : PartFrame) : (builtWords node seq f).length = 4 := by
  cases f <;> rfl

/-- The own-writes of a built frame are words of PART_FRAMES and words 0 to 2 of the slot at the fill index (R66, R95). -/
theorem frameWrites_own (hrun : s.run = true) (hfill : s.ring.fill.val < ringStart s 1) (f : PartFrame) (seq : BitVec 8) :
    ∀ p ∈ frameWrites s s.ring.fill f seq, PostOwn s p := by
  have slot (k : Nat) (hk : k < 3) :
      OwnWord s (address (s.effective.regions.txSlots.toNat + 16 * s.ring.fill.val + 4 * k)) :=
    .inr ⟨hrun, .inr (.inr (.inr ⟨_, k, hfill, hk, rfl⟩))⟩
  intro p hp
  have hlt := s.ring.fill.isLt
  simp only [frameWrites, List.mem_append, List.mem_cons, List.not_mem_nil, or_false] at hp
  rcases hp with hp | rfl | rfl | rfl
  · obtain ⟨k, hk, rfl⟩ := List.mem_mapIdx.mp hp
    rw [builtWords_length] at hk
    refine ⟨.inr ⟨hrun, .inr (.inr (.inl ⟨64 * s.ring.fill.val + 4 * k, by omega, by omega, ?_⟩))⟩, fun n hn => by cases hn⟩
    rw [← Nat.add_assoc]
  · exact ⟨slot 1 (by omega), fun n hn => by cases hn⟩
  · exact ⟨slot 2 (by omega), fun n hn => by cases hn⟩
  · refine ⟨slot 0 (by omega), fun n hn => ?_⟩
    cases hn
    exact hfill

theorem PathKept.buildFrame (h : PathKept m s) (hrun : s.run = true) : PathKept m (buildFrame s) := by
  have hfill := h.queue.2.2.2.2.1 hrun
  unfold Machine.buildFrame
  split
  · exact h
  · rename_i f rest hl
    dsimp only
    have taken : PathKept m { s with ring := { s.ring with
        list := rest, seq := s.ring.seq + 1,
        records := s.ring.records.set s.ring.fill (some { frame := f, seq := s.ring.seq + 1, withdrawn := false }) } } := { h with
      queue := h.queue.of_same rfl rfl rfl rfl rfl rfl (.inl rfl) }
    have shown := taken.works (changeShadow_beside (Fin.ofNat 64 s.ring.fill.val)
      (fun h => { h with tag := 0, dest := 4095, kind := BitVec.ofNat 8 (PartFrame.code f) }) _) (changeShadow_works _ _ _) hrun
    have named := frameWrites_own hrun hfill f (s.ring.seq + 1)
    refine PathKept.works (PathKept.beside shown (l := []) ?_ (fun hr => absurd (hr.symm.trans hrun) (by decide)) ?_ ?_)
      (reportChanged_within _ _).beside (reportChanged_works (l := [0x170]) _ (by decide)) hrun
    · simp [Beside, SameBut, SameBase, SameLevel, SameRoad, SameFault, SamePath]
    · exact fun p hp => (List.mem_append.mp hp).imp id fun hp => (named p hp).of_same rfl rfl rfl
    · exact fun p hp => .inl hp

theorem PathKept.settleUnits {s0 : State} (h : PathKept m s) (ht : settleUnits s0 s = some t) : PathKept m t := by
  have hb := settleUnits_beside ht
  obtain ⟨hrun, ⟨-, rfl⟩ | ⟨-, i, -, rfl⟩ | ⟨-, -, p, -, rfl⟩ | ⟨-, -, -, -, rfl⟩ | ⟨-, -, -, -, f, rest, hf, rfl⟩
    | ⟨-, -, -, -, -, -, rfl⟩⟩ := settleUnits_cases ht
  · exact h.works hb (deriveLevel_works s) hrun
  · exact h.works hb (serveSegment_works i s) hrun
  · exact h.works hb (forgetTruck_works p s) hrun
  · exact h.works hb (setMuster_works _ s) hrun
  · exact h.works hb (takeRequest_works hf) hrun
  · exact h.buildFrame hrun

theorem PathKept.settleStep {s0 : State} (h : PathKept m s) (ht : settleStep s0 s = some t) : PathKept m t := by
  rcases settleStep_cases ht with ⟨hfree, rfl⟩ | ⟨-, hu⟩ | ⟨-, -, hp⟩
  · exact h.enterFollowUp hfree
  · exact h.settleUnits hu
  · exact h.settlePath hp

/-! ### The sweep, events and actions -/

theorem sweepWords_report : ∀ o ∈ sweepWords, ReportOffset o := by decide +kernel

theorem patrolWords_report : ∀ o ∈ patrolWords, ReportOffset o := by
  intro o ho
  rcases List.mem_append.mp ho with ho | ho
  · simp only [List.mem_cons, List.not_mem_nil, or_false] at ho
    unfold ReportOffset
    omega
  · exact sweepWords_report o ho

theorem sweepPut_path (s : State) :
    ∃ (q : List OwnWrite) (c : Option Nat), sweepPut s = { s with path := { s.path with queue := q, sweep := c } } := by
  unfold sweepPut
  split
  · exact ⟨_, _, rfl⟩
  · split
    · split
      · exact ⟨_, _, rfl⟩
      · exact ⟨_, _, rfl⟩
    · exact ⟨_, _, rfl⟩

theorem QueueKept.sweepPut (h : QueueKept s) : QueueKept (sweepPut s) := by
  have swept (u : State) (hu : QueueKept u) (hrun : u.run = true) (c : Option Nat) :
      QueueKept { u with path := { u.path with sweep := c } } := by
    obtain ⟨hbound, hdistinct, hown, hnotice, hf, -⟩ := hu
    exact ⟨hbound, hdistinct, hown, hnotice, hf, fun hr => absurd (hr.symm.trans hrun) (by decide)⟩
  unfold Machine.sweepPut
  split
  · exact h
  · rename_i cursor hc
    have hrun : s.run = true := by
      by_contra hr
      obtain ⟨-, -, -, -, -, hsetup⟩ := h
      rw [(hsetup (by simpa using hr)).2.2] at hc
      cases hc
    split
    · rename_i hroom
      split
      · rename_i o ho
        have hq := List.find?_some ho
        simp only [Bool.and_eq_true, Bool.not_eq_true'] at hq
        exact swept _ (h.appendEntry (w := mirrorWrite s o) hroom
          (ownWord_report hrun (sweepWords_report o (List.mem_of_find?_eq_some ho))) (fun n hn => by cases hn)
          (queued_false hq.2)) hrun _
      · exact swept s h hrun none
    · exact h

theorem PathKept.sweepPut (h : PathKept m s) : PathKept m (sweepPut s) := by
  have hq := h.queue.sweepPut
  obtain ⟨q, c, e⟩ := sweepPut_path s
  rw [e] at hq ⊢
  exact { h with queue := hq }

theorem PathKept.event {f : State → State} (h : PathKept m (f (beginEvent s))) : PathKept m (event f s) :=
  event_keeps (fun _ _ _ hs ht => hs.settleStep ht) (fun _ hu => hu.sweepPut) (fun _ hu => { hu with }) h

/-- The state in which an event begins has nothing on its way to the queue. -/
theorem pathKept_beginEvent (h : QueueKept s) : PathKept s.mem (beginEvent s) where
  queue := h
  quiet _ := ⟨rfl, rfl⟩
  posts _ hp := by cases hp
  reports _ hp := by cases hp
  memory hm := ⟨hm, fun _ _ => rfl⟩

theorem PathKept.start (h : PathKept m s) (hrun : s.run = false) : PathKept m (runEntry s) := by
  obtain ⟨v, hv⟩ := enterRun_eq s
  have hwords {a : Addr} (ha : OwnWord s a) : OwnWord (enterRun s) a := by
    rw [hv, ha.setup hrun]
    exact .inl rfl
  have hcalm := h.quiet hrun
  have entered : PathKept m (enterRun s) := by
    obtain ⟨hbound, hdistinct, hown, hnotice, hf, hsetup⟩ := h.queue
    obtain ⟨hfill, -, -⟩ := hsetup hrun
    have hpos : 0 < ringStart (enterRun s) 1 := by
      rcases ringStart_one (enterRun s) with h | h <;> omega
    have hmem : (enterRun s).mem = s.mem := by rw [hv]
    have hpath : (enterRun s).path.queue = s.path.queue ∧ (enterRun s).path.posts = [] ∧ (enterRun s).path.reports = []
        ∧ (enterRun s).run = true ∧ (enterRun s).ring.fill = 0 := by
      rw [hv]
      exact ⟨rfl, hcalm.1, hcalm.2, rfl, hfill⟩
    obtain ⟨hq, hp, hr, hrun', hfill'⟩ := hpath
    exact {
      queue := ⟨hq ▸ hbound, hq ▸ hdistinct, by rw [hq]; exact fun w hw => hwords (hown w hw), by
          rw [hq]
          exact fun w hw n hn => absurd (hrun.symm.trans (hnotice w hw n hn).1) (by decide), fun _ => by
          rw [hfill']
          exact hpos, fun hr => absurd (hr.symm.trans hrun') (by decide)⟩
      quiet := fun _ => ⟨hp, hr⟩
      posts := fun p hp' => by
        rw [hp] at hp'
        cases hp'
      reports := fun p hp' => by
        rw [hr] at hp'
        cases hp'
      memory := fun hm => by
        rw [hmem]
        refine ⟨(h.memory hm).1, fun b hb => (h.memory hm).2 b fun ⟨a, ha, hin⟩ => hb ⟨a, hwords ha, hin⟩⟩ }
  exact entered.works (runEntry_within s).beside (runEntry_works s) (by rw [hv])

theorem PathKept.runActed {l : List Area} (h : PathKept m s) (hcalls : CallsKept s) (ha : RunActed s l t) (hrun : s.run = true) :
    PathKept m t := by
  have hb := ha.beside
  rcases ha.works_or with hw | ⟨d, ht⟩
  · exact h.works hb hw hrun
  · rw [ht] at hb ⊢
    exact h.works hb (clearDistress_works d hcalls.2.2.2.1) hrun

/-- What the part's own words are after an action: as before but at a reset, which empties the queue, and at a start. -/
theorem PathKept.acted (h : PathKept s.mem s) (hcalls : CallsKept s) (ha : Acted s t) : PathKept s.mem t := by
  cases ha with
  | nothing => exact h
  | start hrun hc => exact h.start hrun
  | restart strap hrun hc hl =>
    exact {
      queue := by simp [QueueKept, warmReset, resetPart]
      quiet := fun _ => ⟨rfl, rfl⟩
      posts := fun p hp => by cases hp
      reports := fun p hp => by cases hp
      memory := fun hm => ⟨hm, fun _ _ => rfl⟩ }
  | drain => exact h.drainOldest
  | inRun hrun ha => exact h.runActed hcalls ha hrun

/-- An event of a state with an empty hand: at its end no byte has changed but the part's own. -/
theorem event_pathKept {f : State → State} (h : QueueKept s) (hcalls : CallsKept s) (ha : ActsOn f (beginEvent s)) :
    PathKept s.mem (Machine.event f s) := by
  obtain ⟨t, w, ht, hf⟩ := ha
  refine PathKept.event ?_
  rw [hf]
  have acted := (pathKept_beginEvent h).acted (s := beginEvent s) hcalls ht
  exact { acted with }

/-! ### The patrol -/

theorem endScan_patrolCursor (s : State) : (endScan s).path.patrolCursor = s.path.patrolCursor :=
  ((endScan_beside s).1.path).2.2.1

/-- The path unit acts at a read of the start scan alone, which leaves the patrol. -/
theorem RunActed.patrolCursor {l : List Area} (h : RunActed s l t) : t.path.patrolCursor = s.path.patrolCursor := by
  have same (hl : .path ∉ l) : t.path.patrolCursor = s.path.patrolCursor := (h.sameBut.path hl).2.2.1
  cases h with
  | scanRead =>
    unfold Machine.scanRead
    dsimp only
    split
    · rw [endScan_patrolCursor]
      rfl
    · rfl
  | frame f => exact same (by cases f <;> simp [frameAreas])
  | _ => exact same (by decide)

theorem patrolNext_mem (o : Nat) : patrolNext o ∈ patrolWords := by
  unfold patrolNext
  cases hf : patrolWords.find? (fun w => o < w) with
  | none => exact List.mem_append_left _ (by simp)
  | some w => exact List.mem_of_find?_eq_some hf

theorem PatrolKept.of_cursor (h : PatrolKept s) (hc : t.path.patrolCursor = s.path.patrolCursor) : PatrolKept t := by
  unfold PatrolKept at *
  rwa [hc]

theorem patrolKept_zero (hc : s.path.patrolCursor = 0) : PatrolKept s := by
  unfold PatrolKept
  rw [hc]
  exact List.mem_append_left _ (by simp)

theorem PatrolKept.acted (h : PatrolKept s) (ha : Acted s t) : PatrolKept t := by
  cases ha with
  | nothing => exact h
  | start hrun hc =>
    obtain ⟨v, hv⟩ := enterRun_eq s
    refine patrolKept_zero ?_
    rw [((runEntry_within s).1.path).2.2.1, hv]
  | restart => exact patrolKept_zero rfl
  | drain => exact h.of_cursor ((drainOldest_sameBut s).path).2.2.1
  | inRun hrun ha => exact h.of_cursor ha.patrolCursor

end

/-! ## The law -/

/-- The laws on which the ownness of the queued words rests. -/
structure QueueLaws (s : State) : Prop where
  calls : CallsKept s
  patrol : PatrolKept s
  queue : QueueKept s

theorem queueLaws_event {f : State → State} {s : State} (h : QueueLaws s) (ha : ActsOn f (beginEvent s)) : QueueLaws (event f s) where
  calls := callsKept_kept.event ha h.calls
  patrol := by
    obtain ⟨t, w, ht, hf⟩ := ha
    refine event_keeps_of_sameBut (fun _ _ hsame hs => PatrolKept.of_cursor hs (hsame.path).2.2.1) ?_
    rw [hf]
    exact (PatrolKept.acted (s := beginEvent s) h.patrol ht).of_cursor rfl
  queue := (event_pathKept h.queue h.calls ha).queue

/-- The event in which the patrol finds a word that differs. -/
theorem mirrorMismatch_pathKept {s : State} {o : Nat} (w : Word) (hq : QueueKept s) (hrun : s.run = true) (ho : ReportOffset o) :
    PathKept s.mem (event (mirrorMismatch o w) s) :=
  PathKept.event ((pathKept_beginEvent hq).works (mirrorMismatch_within o w _).beside (mirrorMismatch_works w _ ho) hrun)

theorem queueLaws_kept : Kept QueueLaws where
  reset kind count strap copies staged h :=
    ⟨callsKept_kept.reset kind count strap copies staged h.calls, patrolKept_zero rfl, by simp [QueueKept, resetPart]⟩
  memory _ _ h := ⟨h.calls, h.patrol, h.queue⟩
  staged _ h := ⟨h.calls, h.patrol, h.queue⟩
  copies _ _ h := ⟨h.calls, h.patrol, h.queue⟩
  readData _ h := ⟨h.calls, h.patrol, h.queue⟩
  arming _ h := ⟨h.calls, h.patrol, h.queue⟩
  pins _ h := ⟨h.calls, h.patrol, h.queue⟩
  capture _ _ h := ⟨h.calls, h.patrol, h.queue⟩
  patrol {s} hrun hq h := patrolRead_cases hrun hq ⟨h.calls, patrolNext_mem _, h.queue⟩ fun t w hr _ ht => {
    calls := event_keeps_of_sameBut (fun _ _ hsame hs => hs.of_sameCallers (.of_call hsame.call))
      (CallsKept.of_within (s := beginEvent t) ht.calls (mirrorMismatch_within _ _ _))
    patrol := event_keeps_of_sameBut (fun _ _ hsame hs => PatrolKept.of_cursor hs (hsame.path).2.2.1)
      (PatrolKept.of_cursor (s := beginEvent t) ht.patrol ((mirrorMismatch_within s.path.patrolCursor w (beginEvent t)).1.path).2.2.1)
    queue := (mirrorMismatch_pathKept w ht.queue hr (patrolWords_report _ h.patrol)).queue }
  patrolDue h := ⟨h.calls, h.patrol, h.queue⟩
  sweep {s} h := ⟨callsKept_kept.sweep h.calls, h.patrol.of_cursor ((sweepPut_sameBut s).path).2.2.1,
    h.queue.sweepPut⟩
  tick hrun h := ⟨callsKept_kept.tick hrun h.calls, tick_keeps (fun _ h => h) (fun _ h => h) (fun _ h => h) h.patrol,
    tick_keeps (fun _ h => h) (fun _ h => h) (fun _ h => h) h.queue⟩
  event ha h := queueLaws_event h ha

/-- Settles O57: what the units hand on is the part's own, and each address enters once. -/
theorem ownWriteQueueKept : Obligations.OwnWriteQueueKept := fun _ _ hcalls hpatrol hqueue ht => by
  have h := queueLaws_kept.step (fun _ hs => ⟨hs.calls, hs.patrol, hs.queue⟩) ⟨hcalls, hpatrol, hqueue⟩ ht
  exact ⟨h.queue, h.patrol⟩

end Sys2Proof.Machine
end

section
/-! PROOFS. The state after reset keeps the laws, and a command changes only the bytes that its own bus write stores and the part's own. -/

set_option Elab.async false

namespace Sys2Proof.Machine

open Sys2Proof.Config

/-- Settles O60: every table of the state after reset is empty. -/
theorem resetKeepsTheLaws : Obligations.ResetKeepsTheLaws := by
  refine ⟨rfl, ?_, ?_, ?_, ?_, ?_, ?_, ?_, patrolKept_zero rfl, ?_, ?_, ?_, ?_⟩
  · simp [LatchedCoversLive, State.reset]
  · show State.reset.drive = lineDrives State.reset
    decide
  · simp [GrantsKept, State.reset]
  · simp [RoadListsKept, State.reset]
  · simp [ChambersKept, State.reset]
  · simp [CallsKept, State.reset]
  · simp [QueueKept, State.reset]
  · exact capacitiesKept_iff.mpr ⟨by simp [State.reset, occupancy], ⟨by simp [State.reset], by simp [State.reset],
      by simp [State.reset], by simp [State.reset]⟩⟩
  · simp [LevelFollows, State.reset]
  · simp [MusterFollows, State.reset]
  · simp [TruckPlacesKept, State.reset, holds, occupies, waits]

/-! ## Bytes that no event changes -/

/-- A byte that is none of the part's own words', before and after, reads as before. -/
def BytesKept (s t : State) : Prop :=
  ∀ b, ¬OwnByte s b → ¬OwnByte t b → memRead t.mem b = memRead s.mem b

/-- What holds of the states that a command which is neither a bus write nor a reset passes through on its way from `s`. -/
structure BytesHeld (s u : State) : Prop where
  laws : QueueLaws u
  canonical : Memory.wf u.mem = true
  strap : u.strap = s.strap
  run : u.run = s.run
  effective : u.effective = s.effective
  bytes : ∀ b, ¬OwnByte s b → memRead u.mem b = memRead s.mem b

section
variable {s u : State}

theorem Quiet.sameSettings {t : State} (h : Quiet u t) : t.strap = u.strap ∧ t.run = u.run ∧ t.effective = u.effective := by
  cases h with
  | nothing => exact ⟨rfl, rfl, rfl⟩
  | drain => exact drainOldest_same u
  | inRun _ h => exact ⟨h.sameBut.strap, h.sameBut.run, h.sameBut.effective⟩

/-- The part's own words are the same before and after an event that is no request, and it changes no other byte. -/
theorem BytesHeld.event {f : State → State} (h : BytesHeld s u) (ha : Quiet (beginEvent u) (f (beginEvent u))) :
    BytesHeld s (event f u) := by
  have hacts : ActsOn f (beginEvent u) := .of_acted ha.acted
  have hsame := event_sameBut_acted f u
  obtain ⟨hstrap, hrun, heff⟩ := ha.sameSettings
  have kept := event_pathKept h.laws.queue h.laws.calls hacts
  obtain ⟨hwf, hread⟩ := kept.memory h.canonical
  have strap := (hsame.strap.trans hstrap).trans h.strap
  have run := (hsame.run.trans hrun).trans h.run
  have eff := (hsame.effective.trans heff).trans h.effective
  exact ⟨queueLaws_event h.laws hacts, hwf, strap, run, eff,
    fun b hb => (hread b fun ho => hb (ho.of_same strap.symm run.symm eff.symm)).trans (h.bytes b hb)⟩

theorem BytesHeld.sweepPut (h : BytesHeld s u) : BytesHeld s (sweepPut u) := by
  have hsame := sweepPut_sameBut u
  exact ⟨queueLaws_kept.sweep h.laws, (sweepPut_mem u).symm ▸ h.canonical, hsame.strap.trans h.strap, hsame.run.trans h.run,
    hsame.effective.trans h.effective, fun b hb => by rw [sweepPut_mem]; exact h.bytes b hb⟩

/-- A patrol read changes no byte but the part's own. -/
theorem BytesHeld.patrolRead (h : BytesHeld s u) (hrun : u.run = true) (hq : u.path.queue = []) : BytesHeld s (patrolRead u) := by
  have laws := queueLaws_kept.patrol hrun hq h.laws
  unfold Machine.patrolRead at laws ⊢
  dsimp only at laws ⊢
  split
  · rename_i hc
    rw [if_pos hc] at laws
    exact ⟨laws, h.canonical, h.strap, h.run, h.effective, h.bytes⟩
  · rename_i hc
    rw [if_neg hc] at laws
    generalize hu : ({ u with path := { u.path with patrolCursor := patrolNext u.path.patrolCursor, patrolPending := false } } : State)
      = v at laws ⊢
    have hqv : QueueKept v := hu ▸ h.laws.queue
    have hrv : v.run = true := hu ▸ hrun
    have hmv : v.mem = u.mem := hu ▸ rfl
    have hsame := event_sameBut_acted (mirrorMismatch u.path.patrolCursor (memWord u.mem (reportAddr u u.path.patrolCursor).toNat)) v
    have hwithin := (mirrorMismatch_within u.path.patrolCursor (memWord u.mem (reportAddr u u.path.patrolCursor).toNat) (beginEvent v)).1
    have kept := mirrorMismatch_pathKept (memWord u.mem (reportAddr u u.path.patrolCursor).toNat) hqv hrv
      (patrolWords_report _ h.laws.patrol)
    obtain ⟨hwf, hread⟩ := kept.memory (hmv ▸ h.canonical)
    have strap := (hsame.strap.trans hwithin.strap).trans ((congrArg State.strap hu).symm.trans h.strap)
    have run := (hsame.run.trans hwithin.run).trans ((congrArg State.run hu).symm.trans h.run)
    have eff := (hsame.effective.trans hwithin.effective).trans ((congrArg State.effective hu).symm.trans h.effective)
    exact ⟨laws, hwf, strap, run, eff, fun b hb =>
      (hread b fun ho => hb (ho.of_same strap.symm run.symm eff.symm)).trans (hmv ▸ h.bytes b hb)⟩

theorem BytesHeld.tick (h : BytesHeld s u) (hrun : u.run = true) : BytesHeld s (tick u) := by
  have hlaws := queueLaws_kept.tick hrun h.laws
  have same : (Machine.tick u).mem = u.mem ∧ (Machine.tick u).strap = u.strap ∧ (Machine.tick u).run = u.run
      ∧ (Machine.tick u).effective = u.effective :=
    tick_keeps (P := fun t => t.mem = u.mem ∧ t.strap = u.strap ∧ t.run = u.run ∧ t.effective = u.effective)
      (fun _ h => h) (fun _ h => h) (fun _ h => h) ⟨rfl, rfl, rfl, rfl⟩
  obtain ⟨hm, hs, hr, he⟩ := same
  exact ⟨hlaws, hm.symm ▸ h.canonical, hs.trans h.strap, hr.trans h.run, he.trans h.effective, fun b hb => hm.symm ▸ h.bytes b hb⟩

theorem bytesHeld_kept (s : State) : KeptQuiet (BytesHeld s) where
  readData w h := { h with laws := queueLaws_kept.readData w h.laws }
  arming a h := { h with laws := queueLaws_kept.arming a h.laws }
  pins v h := { h with laws := queueLaws_kept.pins v h.laws }
  patrol hrun hq h := h.patrolRead hrun hq
  patrolDue h := { h with laws := queueLaws_kept.patrolDue h.laws }
  sweep h := h.sweepPut
  tick hrun h := h.tick hrun
  event ha h := h.event ha

theorem BytesHeld.refl (hm : Memory.wf s.mem = true) (h : QueueLaws s) : BytesHeld s s := ⟨h, hm, rfl, rfl, rfl, fun _ _ => rfl⟩

/-! ## Bus writes -/

/-- A byte after a bus write and the event that may follow it: the lane of the stored word where the write stores it, and as before
otherwise, if it is none of the part's own. -/
def Stored (a : Access) (drop : Bool) (w : Word) (s t : State) : Prop :=
  ∀ b, ¬OwnByte s b → ¬OwnByte t b → memRead t.mem b =
    if (!drop && decide (a.wordAddr ≤ b) && decide (b < a.wordAddr + 4) && bitOf a.lanes (b - a.wordAddr)) = true
    then laneByte w (b - a.wordAddr) else memRead s.mem b

theorem stored_reachMemory (hm : Memory.wf s.mem = true) (a : Access) (w : Word) : Stored a false w s (reachMemory a w s) := by
  intro b _ _
  show memRead (memWriteLanes s.mem a.wordAddr a.lanes w) b = _
  rw [memRead_memWriteLanes _ _ _ _ hm]
  simp [and_assoc]

/-- An event behind the write. -/
theorem Stored.event {a : Access} {w : Word} {f : State → State} (hm : Memory.wf s.mem = true) (h : QueueLaws s)
    (ha : ActsOn f (beginEvent (reachMemory a w s))) : Stored a false w s (event f (reachMemory a w s)) := by
  intro b hs ht
  have laws := queueLaws_kept.memory a w h
  obtain ⟨-, hread⟩ := (event_pathKept laws.queue laws.calls ha).memory (memWriteLanes_wf _ _ _ hm)
  rw [hread b ht]
  exact stored_reachMemory hm a w b hs (fun ho => hs (ho.of_same rfl rfl rfl))

theorem Stored.run {a : Access} {w : Word} {f : State → State} {l : List Area} (hm : Memory.wf s.mem = true) (h : QueueLaws s)
    (hrun : s.run = true) (ha : RunActed (beginEvent (reachMemory a w s)) l (f (beginEvent (reachMemory a w s)))) :
    Stored a false w s (Machine.event f (reachMemory a w s)) := Stored.event hm h (.of_run hrun ha)

/-- The frame that still waits is taken before a completion reaches memory. -/
theorem takeHandover_held (hm : Memory.wf s.mem = true) (h : QueueLaws s) : BytesHeld s (takeHandover s) := by
  unfold takeHandover
  split
  · exact (bytesHeld_kept s).frameEvent _ (.refl hm h)
  · exact .refl hm h

theorem Stored.of_mem {a : Access} {w : Word} {t u : State} (h : Stored a false w s u) (hm : t.mem = u.mem)
    (hstrap : t.strap = u.strap) (hrun : t.run = u.run) (heff : t.effective = u.effective) : Stored a false w s t := by
  intro b hs ht
  rw [hm]
  exact h b hs fun ho => ht (ho.of_same hstrap hrun heff)

/-- The word that a taken full word puts on memory's data lanes. -/
def takenData (s : State) (a : Access) : Taken → Word
  | .consume => withConsume (clampConsume s.fault (bits a.data 0 16)) a.data
  | .rawAir n => withVerdict (rawVerdict s n a.data) a.data
  | _ => a.data

theorem takeWrite_stored (hm : Memory.wf s.mem = true) (h : QueueLaws s) (hrun : s.run = true) (strap : BitVec 2) (a : Access)
    (t : Taken) : Stored a false (takenData s a t) s (takeWrite strap a t s) := by
  unfold Machine.takeWrite
  split
  · exact (stored_reachMemory hm a a.data).of_mem rfl rfl rfl rfl
  · exact .event hm h (actsOn_executeRequest _ _ _)
  · exact .run hm h hrun (.consume _)
  · dsimp only
    split
    · exact stored_reachMemory hm a _
    · exact .run hm h hrun (.rawReading _ _)
  · exact .run hm h hrun (.controllerWord0 _ _ _)
  · exact .run hm h hrun (.controllerWord2 _ _ _)
  · exact .run hm h hrun (.modemWriteback _ _ _)
  · split
    · exact stored_reachMemory hm a _
    · have held := takeHandover_held hm h
      intro b hs ht
      have base := Stored.run (w := a.data) held.canonical held.laws (held.run.trans hrun) (.completion _ a.addr a.data) b
        (fun ho => hs (ho.of_same held.strap.symm held.run.symm held.effective.symm)) ht
      rw [base, held.bytes b hs]
      rfl
  · exact (stored_reachMemory hm a a.data).of_mem rfl rfl rfl rfl

theorem setupWrite_stored (hm : Memory.wf s.mem = true) (h : QueueLaws s) (strap : BitVec 2) (a : Access) :
    Stored a false a.data s (setupWrite strap a s) := by
  have reached := stored_reachMemory hm a a.data
  unfold setupWrite
  dsimp only
  split
  · split
    · split
      · exact .event hm h (actsOn_executeRequest _ _ _)
      · split
        · exact reached.of_mem rfl rfl rfl rfl
        · exact reached.of_mem rfl rfl rfl rfl
    · exact reached
    · exact reached
  · exact reached

theorem storedData_setup (a : Access) (hrun : s.run = false) : storedData s a = a.data := by
  simp [storedData, hrun]

theorem dropped_setup (a : Access) (hrun : s.run = false) : dropped s a = false := by
  simp [dropped, hrun]

theorem storedData_taken {a : Access} {k : RegionKind} {o : Nat} {t : Taken} (hrun : s.run = true) (hfull : a.isFull = true)
    (hr : regionAt s a.wordAddr = some (k, o)) (ht : takenWord s a.init k o = some t) : storedData s a = takenData s a t := by
  simp only [storedData, hrun, hfull, hr, ht, Bool.and_self, if_true]
  cases t <;> rfl

theorem storedData_untaken {a : Access} {k : RegionKind} {o : Nat} (hr : regionAt s a.wordAddr = some (k, o))
    (ht : takenWord s a.init k o = none) : storedData s a = a.data := by
  simp [storedData, hr, ht]

theorem storedData_outside {a : Access} (hr : regionAt s a.wordAddr = none) : storedData s a = a.data := by
  simp [storedData, hr]

theorem storedData_partial {a : Access} (hfull : ¬a.isFull = true) : storedData s a = a.data := by
  simp [storedData, hfull]

theorem serveWrite_stored (hm : Memory.wf s.mem = true) (h : QueueLaws s) (strap : BitVec 2) (a : Access) :
    Stored a (dropped s a) (storedData s a) s (serveWrite strap a s) := by
  unfold Machine.serveWrite
  split
  · rename_i hrun
    unfold runWrite
    split
    · rename_i hr
      rw [storedData_outside hr, show dropped s a = false by simp [dropped, hr]]
      exact stored_reachMemory hm a a.data
    · rename_i k o hr
      split
      · rename_i hp
        rw [show dropped s a = true by simpa [dropped, hrun, hr] using hp]
        intro b hs ht
        obtain ⟨-, hread⟩ := (event_pathKept (f := recordFault .guardWrite (busIdent a)) h.queue h.calls
          (.of_run hrun (.guardFault _))).memory hm
        simpa using hread b ht
      · rename_i hp
        rw [show dropped s a = false by simpa [dropped, hrun, hr] using hp]
        split
        · rename_i hn
          rw [storedData_untaken hr hn]
          exact stored_reachMemory hm a a.data
        · rename_i t ht
          split
          · rename_i hfull
            rw [storedData_taken hrun hfull hr ht]
            exact takeWrite_stored hm h hrun strap a t
          · rename_i hfull
            rw [storedData_partial hfull]
            exact .run hm h hrun (.missWrite _ _)
  · rename_i hrun
    have hrun : s.run = false := by simpa using hrun
    rw [storedData_setup a hrun, dropped_setup a hrun]
    exact setupWrite_stored hm h strap a

end

/-- Settles O59: what enters the own-write queue is the part's own, and so is what a drain or a stall writes. -/
theorem memoryChangesOnlyWhereStored : Obligations.MemoryChangesOnlyWhereStored := by
  intro c s hm hcalls hpatrol hqueue
  have laws : QueueLaws s := ⟨hcalls, hpatrol, hqueue⟩
  cases hw : busWrite c s with
  | some a =>
    obtain ⟨strap, ht⟩ := exec_of_busWrite hw
    refine ⟨_, ht, fun b hs hb => ?_⟩
    have stored := serveWrite_stored hm laws strap a b hs hb
    refine ⟨fun hn => ?_, fun a' ha hst => ?_⟩
    · simp only [storedByte, hw] at hn
      rw [stored, if_neg (by rw [hn]; decide)]
    · cases ha
      simp only [storedByte, hw] at hst
      rw [stored, if_pos hst]
  | none =>
    have quiet {t : State} (h : BytesKept s t) (b : Nat) (hs : ¬OwnByte s b) (hb : ¬OwnByte t b) :
        (storedByte c s b = false → memRead t.mem b = memRead s.mem b)
        ∧ (∀ a, none = some a → storedByte c s b = true → memRead t.mem b = laneByte (storedData s a) (b - a.wordAddr)) :=
      ⟨fun _ => h b hs hb, fun a ha => by cases ha⟩
    cases hr : isReset c with
    | false =>
      obtain ⟨t, ht, held⟩ := (bytesHeld_kept s).exec (.refl hm laws) c hw hr
      exact ⟨t, ht, quiet fun b hs _ => held.bytes b hs⟩
    | true =>
      cases c with
      | powerOn | resetInput => exact ⟨_, rfl, quiet fun b _ _ => rfl⟩
      | _ => cases hr

end Sys2Proof.Machine
end

section
/-! PROOFS. The rows of requests: each is the full-word write of the request word, and its command is the event of the request (R164). -/

set_option Elab.async false

namespace Sys2Proof.Machine

open Sys2Proof.Config

/-! ## Fields of a word -/

theorem fieldNat_ofNat (n lo w : Nat) : fieldNat (BitVec.ofNat 32 n) lo w = n % 2 ^ 32 / 2 ^ lo % 2 ^ w := by
  simp only [fieldNat, bits, BitVec.extractLsb'_toNat, BitVec.toNat_ofNat, Nat.shiftRight_eq_div_pow]

theorem layout_three (a m x b n y c p z : Nat) : layout [(a, m, x), (b, n, y), (c, p, z)]
    = BitVec.ofNat 32 (x % 2 ^ m * 2 ^ a + y % 2 ^ n * 2 ^ b + z % 2 ^ p * 2 ^ c) := by
  simp [layout]

section
variable (code : Nat) (tag : BitVec 8) (arg : BitVec 16)

theorem requestCode_requestWord (hcode : code < 256) : requestCode (requestWord code tag arg) = code := by
  have ha := arg.isLt
  have ht := tag.isLt
  rw [requestCode, requestWord, layout_three, fieldNat_ofNat]
  omega

theorem requestArg_requestWord : requestArg (requestWord code tag arg) = arg.toNat := by
  have ha := arg.isLt
  have ht := tag.isLt
  rw [requestArg, requestWord, layout_three, fieldNat_ofNat]
  omega

end

theorem requestCodeKnown_bits (w : Word) : requestCodeKnown (bits w 24 8) = (decide (1 ≤ requestCode w) && decide (requestCode w ≤ 10)) := rfl

/-! ## The setting area -/

section
variable {s : State} {o : Nat}

theorem settingBase_bound (strap : BitVec 2) : settingBase strap + 4096 ≤ 2 ^ 24 ∧ settingBase strap % 4096 = 0 := by
  unfold settingBase
  split <;> decide

theorem settingAddr_toNat (ho : o < 4096) : (settingAddr s o).toNat = settingBase s.strap + o := by
  have h := settingBase_bound s.strap
  simp only [settingAddr, address, BitVec.toNat_ofNat]
  omega

theorem regionAt_setting (ho : o < 4096) : regionAt s (settingBase s.strap + o) = some (.setting, o) := by
  have hfind : (regionMap s).find? (fun r => decide (r.2.1 ≤ settingBase s.strap + o)
      && decide (settingBase s.strap + o < r.2.1 + r.2.2)) = some (.setting, settingBase s.strap, 4096) := by
    simp [regionMap, ho]
  simp only [regionAt, hfind]
  simp

/-- The word address and the fullness of a full-word access to a word of the setting area. -/
theorem wordBase_settingAddr (ho : o < 4096) (h4 : o % 4 = 0) : wordBase (settingAddr s o).toNat = settingBase s.strap + o := by
  have h := settingBase_bound s.strap
  rw [settingAddr_toNat ho, wordBase]
  omega

theorem fullWordAccess_settingAddr (ho : o < 4096) (h4 : o % 4 = 0) : fullWordAccess (settingAddr s o) 0xF = true := by
  have h := settingBase_bound s.strap
  simp only [fullWordAccess, settingAddr_toNat ho, Bool.and_eq_true, beq_iff_eq, and_true]
  omega

end

/-! ## The event of a request -/

/-- The state in which the request word has reached memory. -/
def requested (w : Word) (s : State) : State := { s with mem := memWriteWord s.mem (settingBase s.strap + 0xF00) w }

section
variable {s : State} {strap : BitVec 2} {code : Nat} {tag : BitVec 8} {arg : BitVec 16}

theorem serveWrite_request : serveWrite strap (requestAccess s code tag arg) s
    = event (executeRequest strap (requestWord code tag arg)) (requested (requestWord code tag arg) s) := by
  have hword : (requestAccess s code tag arg).wordAddr = settingBase s.strap + 0xF00 :=
    wordBase_settingAddr (by decide) (by decide)
  have hfull : (requestAccess s code tag arg).isFull = true := fullWordAccess_settingAddr (by decide) (by decide)
  have hregion : regionAt s (requestAccess s code tag arg).wordAddr = some (.setting, 0xF00) := by
    rw [hword]
    exact regionAt_setting (by decide)
  have hreach : reachMemory (requestAccess s code tag arg) (requestWord code tag arg) s = requested (requestWord code tag arg) s := by
    simp only [reachMemory, hword, requested]
    rfl
  have hdata : (requestAccess s code tag arg).data = requestWord code tag arg := rfl
  have hinit : (requestAccess s code tag arg).init = .controller := rfl
  unfold serveWrite
  split
  · have hallowed : permitted s .controller .setting 0xF00 = true := rfl
    simp only [runWrite, hregion, hinit, hallowed, takenWord, hfull, takeWrite, hdata, hreach, if_true, Bool.not_true,
      Bool.false_eq_true, if_false]
  · have hregion' : regionAt (requested (requestWord code tag arg) s) (requestAccess s code tag arg).wordAddr
        = some (.setting, 0xF00) := hregion
    simp only [setupWrite, hinit, hfull, hdata, hreach, hregion', and_self, if_true]

/-- A row of requests is the event of its request word. -/
theorem exec_of_requestWord {c : Instr} {w : Word} (h : requestWordOf c = some w) : ∃ strap,
    exec c s = .next (event (executeRequest strap w) (requested w s)) ∧ ((∀ l tag arg, c ≠ .restart l tag arg) → strap = s.strap) := by
  have row {strap : BitVec 2} {code : Nat} {tag : BitVec 8} {arg : BitVec 16} (hw : requestWord code tag arg = w) :
      (Host.Outcome.next (serveWrite strap (requestAccess s code tag arg) s) : Host.Outcome State Fault Refusal)
        = .next (event (executeRequest strap w) (requested w s)) := by
    rw [serveWrite_request, hw]
  cases c with
  | restart l tag arg =>
    simp only [requestWordOf, Option.some.injEq] at h
    exact ⟨l, row h, fun hn => absurd rfl (hn l tag arg)⟩
  | start | resetCell | evacuate | endEvacuation | applyAdjustment | clearDistress | closeCall | clearTruck | checkOutMiner
  | unknownRequest =>
    simp only [requestWordOf, Option.some.injEq] at h
    exact ⟨s.strap, row h, fun _ => rfl⟩
  | _ => cases h

end

/-! ## The judgement in RUN -/

section
variable {s : State} (strap : BitVec 2) {w : Word}

theorem judgeRequest_running (hrun : s.run = true) (hlow : 1 ≤ requestCode w) (hhigh : requestCode w ≤ 10) :
    judgeRequest strap w s = match requestCode w with
      | 1 => Reply.refuse alreadyRunning s
      | 2 => requestRestart strap s
      | 3 => requestResetCell (requestArg w) s
      | 4 => requestEvacuation (requestArg w) s
      | 5 => requestEnd s
      | 6 => requestAdjust (requestArg w) s
      | 7 => requestClearDistress (requestArg w) s
      | 8 => requestCloseCall (requestArg w) s
      | 9 => requestClearTruck (requestArg w) s
      | _ => requestCheckOut (requestArg w) s := by
  unfold judgeRequest
  simp only [requestCodeKnown_bits, hlow, hhigh, hrun, decide_true, Bool.and_self, Bool.not_true, Bool.false_eq_true, if_false]
    <;> rfl

/-- The request is done, and its event acts as the request does. -/
theorem executeRequest_done {t : State} (h : judgeRequest strap w s = Reply.done t) :
    executeRequest strap w s = withOutcome (some (outcomeWord w outDone 0)) t := by
  unfold executeRequest
  rw [h]
  rfl

end

end Sys2Proof.Machine
end

section
/-! PROOFS. The outcome of every request, requests that are not DONE, and an accepted RESTART (R164, R165, R171). -/

set_option Elab.async false

namespace Sys2Proof.Machine

open Sys2Proof.Config

/-! ## Outcomes -/

/-- The outcome and the detail of a reply. -/
def Reply.answer (r : Reply) : Nat × Nat := (r.outcome, r.reason)

@[simp] theorem Reply.answer_done (t : State) : (Reply.done t).answer = (outDone, 0) := rfl
@[simp] theorem Reply.answer_refuse (n : Nat) (t : State) : (Reply.refuse n t).answer = (outRefused, n) := rfl
@[simp] theorem Reply.answer_bad (t : State) : (Reply.bad t).answer = (outBad, 0) := rfl

section
variable (arg : Nat) (strap : BitVec 2) (s : State)

theorem requestStart_answer : (requestStart s).answer =
    match failingCheck s with | some check => (outRefused, check) | none => (outDone, 0) := by
  unfold requestStart
  cases failingCheck s <;> rfl

theorem requestRestart_answer : (requestRestart strap s).answer =
    if cellsTripped s then (outRefused, cellsActive)
    else if s.level.level ≠ .normal then (outRefused, levelActive) else (outDone, 0) := by
  unfold requestRestart
  simp only [apply_ite Reply.answer, Reply.answer_done, Reply.answer_refuse]

theorem requestResetCell_answer : (requestResetCell arg s).answer =
    if 3 < arg then (outBad, 0)
    else if !tripActive s.cells[Fin.ofNat 4 arg] then (outRefused, notTripped)
    else if s.cells[Fin.ofNat 4 arg].demand then (outRefused, demandStanding) else (outDone, 0) := by
  unfold requestResetCell
  simp only [apply_ite Reply.answer, Reply.answer_done, Reply.answer_refuse, Reply.answer_bad]

theorem requestEvacuation_answer : (requestEvacuation arg s).answer =
    if 8 ≤ arg ∧ arg ≤ 15 then (outDone, 0) else (outBad, 0) := by
  unfold requestEvacuation
  simp only [apply_ite Reply.answer, Reply.answer_done, Reply.answer_bad]

theorem requestEnd_answer : (requestEnd s).answer =
    if cellsTripped s then (outRefused, cellsActive)
    else if alertingHeld s then (outRefused, airActive) else (outDone, 0) := by
  unfold requestEnd
  simp only [apply_ite Reply.answer, Reply.answer_done, Reply.answer_refuse]

theorem requestAdjust_answer_periods : (requestAdjust 0xFF s).answer =
    if s.level.level = .evacuate then (outRefused, levelActive) else (outDone, 0) := by
  unfold requestAdjust
  rw [if_pos rfl]
  split
  · rfl
  · rfl

theorem requestAdjust_answer_channel (h : arg ≠ 0xFF) : (requestAdjust arg s).answer =
    if 23 < arg ∨ s.effective.channels[Fin.ofNat 24 arg].source = .off then (outBad, 0)
    else if s.level.level = .evacuate then (outRefused, levelActive)
    else if Grade.atLeastAlarm (held s.channels[Fin.ofNat 24 arg]) then (outRefused, airActive)
    else if !thresholdsOrdered s.effective.channels[Fin.ofNat 24 arg] s.staged.channels[Fin.ofNat 24 arg] then (outBad, 0)
    else (outDone, 0) := by
  unfold requestAdjust
  rw [if_neg h]
  by_cases harg : 23 < arg
  · rw [if_pos harg, if_pos (.inl harg)]
    rfl
  · rw [if_neg harg]
    simp only [harg, false_or, apply_ite Reply.answer, Reply.answer_done, Reply.answer_refuse, Reply.answer_bad]
    rfl

theorem requestClearDistress_answer : (requestClearDistress arg s).answer =
    if arg = 0 then (outBad, 0)
    else if s.call.distress.any (fun d => d.miner == BitVec.ofNat 16 arg) then (outDone, 0) else (outRefused, notFound) := by
  unfold requestClearDistress
  split
  · rfl
  · unfold distressOf
    split
    · rename_i d hd
      rw [if_pos]
      · rfl
      · have hfound := List.find?_some hd
        exact List.any_eq_true.mpr ⟨d, List.mem_of_find?_eq_some hd, hfound⟩
    · rename_i hd
      rw [if_neg]
      · rfl
      · intro hany
        obtain ⟨d, hmem, hd'⟩ := List.any_eq_true.mp hany
        exact absurd hd' (by simpa using List.find?_eq_none.mp hd d hmem)

theorem requestCloseCall_answer : (requestCloseCall arg s).answer =
    if arg = 0 ∨ 255 < arg then (outBad, 0)
    else if (callPosition s (BitVec.ofNat 8 arg)).isSome then (outDone, 0) else (outRefused, notFound) := by
  unfold requestCloseCall
  split
  · rfl
  · cases callPosition s (BitVec.ofNat 8 arg) <;> rfl

theorem requestClearTruck_answer : (requestClearTruck arg s).answer =
    if arg = 0 then (outBad, 0)
    else if (truckPosition s (BitVec.ofNat 16 arg)).isSome then (outDone, 0) else (outRefused, notFound) := by
  unfold requestClearTruck
  split
  · rfl
  · cases truckPosition s (BitVec.ofNat 16 arg) <;> rfl

theorem requestCheckOut_answer : (requestCheckOut arg s).answer =
    if arg = 0 then (outBad, 0)
    else if s.chambers.toList.any (fun h => h.occupants.contains (BitVec.ofNat 16 arg)) then (outDone, 0)
    else (outRefused, notFound) := by
  have hlisted : (listedIn s (BitVec.ofNat 16 arg)).isSome
      = s.chambers.toList.any (fun h => h.occupants.contains (BitVec.ofNat 16 arg)) := findIndex_isSome _ _
  unfold requestCheckOut
  rw [← hlisted]
  split
  · rfl
  · cases listedIn s (BitVec.ofNat 16 arg) <;> rfl

/-- The answer to a request word in RUN, by its code and its argument. -/
def runAnswer (code : Nat) : Nat × Nat :=
  match code with
  | 1 => (outRefused, alreadyRunning)
  | 2 => (requestRestart 0 s).answer
  | 3 => (requestResetCell arg s).answer
  | 4 => (requestEvacuation arg s).answer
  | 5 => (requestEnd s).answer
  | 6 => (requestAdjust arg s).answer
  | 7 => (requestClearDistress arg s).answer
  | 8 => (requestCloseCall arg s).answer
  | 9 => (requestClearTruck arg s).answer
  | _ => (requestCheckOut arg s).answer

theorem judgeRequest_answer_unknown {w : Word} (h : requestCode w = 0 ∨ 10 < requestCode w) :
    (judgeRequest strap w s).answer = (outUnknown, 0) := by
  rw [judgeRequest_unknown]
  · rfl
  · rw [requestCodeKnown_bits]
    rcases h with h | h <;> simp [h]

theorem judgeRequest_answer_setup {w : Word} (hrun : s.run = false) (hlow : 1 ≤ requestCode w) (hhigh : requestCode w ≤ 10) :
    (judgeRequest strap w s).answer = if requestCode w = 1 then (requestStart s).answer else (outRefused, notRunning) := by
  unfold judgeRequest
  simp only [requestCodeKnown_bits, hlow, hhigh, hrun, decide_true, Bool.and_self, Bool.not_true, Bool.false_eq_true, if_false,
    Bool.not_false, if_true, apply_ite Reply.answer, Reply.answer_refuse]

theorem judgeRequest_answer_running {w : Word} (hrun : s.run = true) (hlow : 1 ≤ requestCode w) (hhigh : requestCode w ≤ 10) :
    (judgeRequest strap w s).answer = runAnswer (requestArg w) s (requestCode w) := by
  rw [judgeRequest_running strap hrun hlow hhigh]
  generalize requestCode w = code at hlow hhigh
  interval_cases code
  · rfl
  · exact (requestRestart_answer strap s).trans (requestRestart_answer 0 s).symm
  all_goals rfl

/-- What the strap lines show does not bear on the answer. -/
theorem judgeRequest_answer_strap (strap' : BitVec 2) (w : Word) :
    (judgeRequest strap w s).answer = (judgeRequest strap' w s).answer := by
  by_cases hknown : 1 ≤ requestCode w ∧ requestCode w ≤ 10
  · obtain ⟨hlow, hhigh⟩ := hknown
    cases hrun : s.run with
    | true => rw [judgeRequest_answer_running _ _ hrun hlow hhigh, judgeRequest_answer_running _ _ hrun hlow hhigh]
    | false => rw [judgeRequest_answer_setup _ _ hrun hlow hhigh, judgeRequest_answer_setup _ _ hrun hlow hhigh]
  · have h : requestCode w = 0 ∨ 10 < requestCode w := by omega
    rw [judgeRequest_answer_unknown _ _ h, judgeRequest_answer_unknown _ _ h]

end

/-- The requests read neither memory nor what an event begins by clearing. -/
theorem judgeRequest_answer_beginEvent (strap : BitVec 2) (w v : Word) (s : State) :
    (judgeRequest strap w (beginEvent (requested v s))).answer = (judgeRequest strap w s).answer := by
  by_cases hknown : 1 ≤ requestCode w ∧ requestCode w ≤ 10
  · obtain ⟨hlow, hhigh⟩ := hknown
    cases hrun : s.run with
    | true =>
      rw [judgeRequest_answer_running strap (beginEvent (requested v s)) hrun hlow hhigh,
        judgeRequest_answer_running _ _ hrun hlow hhigh]
      unfold runAnswer
      split
      · rfl
      · rw [requestRestart_answer, requestRestart_answer]; rfl
      · rw [requestResetCell_answer, requestResetCell_answer]; rfl
      · rw [requestEvacuation_answer, requestEvacuation_answer]
      · rw [requestEnd_answer, requestEnd_answer]; rfl
      · by_cases harg : requestArg w = 0xFF
        · rw [harg, requestAdjust_answer_periods, requestAdjust_answer_periods]; rfl
        · rw [requestAdjust_answer_channel _ _ harg, requestAdjust_answer_channel _ _ harg]; rfl
      · rw [requestClearDistress_answer, requestClearDistress_answer]; rfl
      · rw [requestCloseCall_answer, requestCloseCall_answer]; rfl
      · rw [requestClearTruck_answer, requestClearTruck_answer]; rfl
      · rw [requestCheckOut_answer, requestCheckOut_answer]; rfl
    | false =>
      rw [judgeRequest_answer_setup strap (beginEvent (requested v s)) hrun hlow hhigh,
        judgeRequest_answer_setup _ _ hrun hlow hhigh, requestStart_answer, requestStart_answer]
      rfl
  · have h : requestCode w = 0 ∨ 10 < requestCode w := by omega
    rw [judgeRequest_answer_unknown _ _ h, judgeRequest_answer_unknown _ _ h]

/-! ## A request that is not DONE -/

/-- A reply that is not DONE has no effect. -/
def Reply.Inert (r : Reply) (s : State) : Prop := r.outcome ≠ outDone → r.after = s

theorem Reply.Inert.done (s t : State) : (Reply.done t).Inert s := fun h => absurd rfl h
theorem Reply.Inert.refuse (n : Nat) (s : State) : (Reply.refuse n s).Inert s := fun _ => rfl
theorem Reply.Inert.bad (s : State) : (Reply.bad s).Inert s := fun _ => rfl

section
variable {s : State}

theorem Reply.Inert.ite {c : Prop} [Decidable c] {a b : Reply} (ha : a.Inert s) (hb : b.Inert s) : (if c then a else b).Inert s := by
  split
  · exact ha
  · exact hb

theorem requestStart_inert : (requestStart s).Inert s := by
  unfold requestStart
  split
  · exact .refuse _ s
  · exact .done s _

theorem requestRestart_inert (strap : BitVec 2) : (requestRestart strap s).Inert s :=
  .ite (.refuse _ s) (.ite (.refuse _ s) (.done s _))

theorem requestResetCell_inert (arg : Nat) : (requestResetCell arg s).Inert s :=
  .ite (.bad s) (.ite (.refuse _ s) (.ite (.refuse _ s) (.done s _)))

theorem requestEvacuation_inert (arg : Nat) : (requestEvacuation arg s).Inert s := .ite (.done s _) (.bad s)

theorem requestEnd_inert : (requestEnd s).Inert s :=
  .ite (.refuse _ s) (.ite (.refuse _ s) (.done s _))

theorem requestAdjust_inert (arg : Nat) : (requestAdjust arg s).Inert s :=
  .ite (.ite (.refuse _ s) (.done s _)) (.ite (.bad s) (.ite (.bad s)
    (.ite (.refuse _ s) (.ite (.refuse _ s) (.ite (.bad s) (.done s _))))))

theorem requestClearDistress_inert (arg : Nat) : (requestClearDistress arg s).Inert s := by
  refine .ite (.bad s) ?_
  split
  · exact .done s _
  · exact .refuse _ s

theorem requestCloseCall_inert (arg : Nat) : (requestCloseCall arg s).Inert s := by
  refine .ite (.bad s) ?_
  split
  · exact .done s _
  · exact .refuse _ s

theorem requestClearTruck_inert (arg : Nat) : (requestClearTruck arg s).Inert s := by
  refine .ite (.bad s) ?_
  split
  · exact .done s _
  · exact .refuse _ s

theorem requestCheckOut_inert (arg : Nat) : (requestCheckOut arg s).Inert s := by
  refine .ite (.bad s) ?_
  split
  · exact .done s _
  · exact .refuse _ s

theorem judgeRequest_inert (strap : BitVec 2) (w : Word) : (judgeRequest strap w s).Inert s := by
  unfold judgeRequest
  dsimp only
  split
  · exact fun _ => rfl
  · split
    · exact .ite requestStart_inert (.refuse _ s)
    · split
      · exact .refuse _ s
      · exact requestRestart_inert _
      · exact requestResetCell_inert _
      · exact requestEvacuation_inert _
      · exact requestEnd_inert
      · exact requestAdjust_inert _
      · exact requestClearDistress_inert _
      · exact requestCloseCall_inert _
      · exact requestClearTruck_inert _
      · exact requestCheckOut_inert _

end

theorem withOutcome_sameBut (w : Option Word) (s : State) : SameBut [] s (withOutcome w s) := by
  simp [withOutcome, SameBut, SameBase, SameLevel, SameRoad, SameFault, SamePath]

theorem requested_sameBut (w : Word) (s : State) : SameBut [] s (requested w s) := by
  simp [requested, SameBut, SameBase, SameLevel, SameRoad, SameFault, SamePath]

/-- An event that hands on its outcome word alone. -/
theorem event_congr {f g : State → State} {s : State} (h : f (beginEvent s) = g (beginEvent s)) : event f s = event g s := by
  unfold event
  simp only [h]

/-- Settles O5: the judgement of a request has no effect but where it is DONE. -/
theorem refusedRequestsChangeNothing : Obligations.RefusedRequestsChangeNothing := by
  intro c w s hc hne
  obtain ⟨strap, hexec, -⟩ := exec_of_requestWord (s := s) hc
  have hanswer := judgeRequest_answer_beginEvent strap w w s
  rw [judgeRequest_answer_strap strap s s.strap w] at hanswer
  obtain ⟨houtcome, hreason⟩ := Prod.mk.inj hanswer
  have hacts : executeRequest strap w (beginEvent (requested w s)) = withOutcome
      (some (outcomeWord w (judgeRequest s.strap w s).outcome (judgeRequest s.strap w s).reason)) (beginEvent (requested w s)) := by
    have hafter := judgeRequest_inert strap w (s := beginEvent (requested w s)) (houtcome ▸ hne)
    unfold executeRequest
    dsimp only
    rw [hafter, houtcome, hreason]
    rfl
  have heq := event_congr (g := withOutcome
      (some (outcomeWord w (judgeRequest s.strap w s).outcome (judgeRequest s.strap w s).reason))) hacts
  rw [heq] at hexec
  refine ⟨_, hexec, rfl, ?_⟩
  exact (((requested_sameBut w s).trans (beginEvent_sameBut _)).trans (withOutcome_sameBut _ _)).trans (event_sameBut_acted _ _)

end Sys2Proof.Machine
end

section
/-! PROOFS. The start checks (R165): what each judges, and the first that fails. -/

set_option Elab.async false

namespace Sys2Proof.Machine

open Sys2Proof.Config

/-! ## Tables and lists -/

theorem noTwo_iff {α : Type} (p : α → α → Bool) (l : List α) : noTwo p l = true ↔ l.Pairwise (fun a b => p a b = false) := by
  induction l with
  | nil => simp [noTwo]
  | cons a rest ih => simp [noTwo, ih]

/-- A symmetric relation between every two entries of a table. -/
theorem vector_pairwise {α : Type} {n : Nat} (v : Vector α n) {R : α → α → Prop} (hsymm : ∀ a b, R a b → R b a) :
    v.toList.Pairwise R ↔ ∀ i j : Fin n, i ≠ j → R v[i] v[j] := by
  rw [List.pairwise_iff_getElem]
  simp only [Vector.length_toList, Vector.getElem_toList]
  constructor
  · intro h i j hij
    rcases Nat.lt_or_ge i.val j.val with hlt | hge
    · exact h i.val j.val i.isLt j.isLt hlt
    · have hlt : j.val < i.val := Nat.lt_of_le_of_ne hge fun e => hij (Fin.ext e.symm)
      exact hsymm _ _ (h j.val i.val j.isLt i.isLt hlt)
  · intro h i j hi hj hij
    exact h ⟨i, hi⟩ ⟨j, hj⟩ fun e => absurd (congrArg Fin.val e) (Nat.ne_of_lt hij)

theorem vector_all {α : Type} {n : Nat} (v : Vector α n) (p : α → Bool) : v.toList.all p = true ↔ ∀ i : Fin n, p v[i] = true := by
  rw [List.all_eq_true]
  constructor
  · exact fun h i => h _ (by simp)
  · intro h a ha
    obtain ⟨i, hi, rfl⟩ := List.mem_iff_getElem.mp ha
    rw [Vector.length_toList] at hi
    exact (Vector.getElem_toList ..) ▸ h ⟨i, hi⟩

theorem vector_any {α : Type} {n : Nat} (v : Vector α n) (p : α → Bool) : v.toList.any p = true ↔ ∃ i : Fin n, p v[i] = true := by
  rw [List.any_eq_true]
  constructor
  · rintro ⟨a, ha, hp⟩
    obtain ⟨i, hi, rfl⟩ := List.mem_iff_getElem.mp ha
    rw [Vector.length_toList] at hi
    exact ⟨⟨i, hi⟩, (Vector.getElem_toList ..) ▸ hp⟩
  · rintro ⟨i, hp⟩
    exact ⟨_, by simp, hp⟩

theorem finRange_all {n : Nat} (p : Fin n → Bool) : (List.finRange n).all p = true ↔ ∀ i, p i = true := by
  simp [List.all_eq_true]

/-- The used entries of a table, two by two. -/
theorem noTwo_used {α : Type} {n : Nat} (v : Vector α n) (used : α → Bool) {p : α → α → Bool} (hp : ∀ a b, p a b = p b a) :
    noTwo p (v.toList.filter used) = true
      ↔ ∀ i j : Fin n, i ≠ j → used v[i] = true → used v[j] = true → p v[i] v[j] = false := by
  rw [noTwo_iff, List.pairwise_filter, vector_pairwise v (R := fun a b => used a = true → used b = true → p a b = false)]
  intro a b h hb ha
  rw [hp]
  exact h ha hb

/-! ## The checks -/

theorem thresholdsOrdered_iff (c : ChannelSet) (t : Thresholds) : thresholdsOrdered c t = true ↔ ThresholdsInOrder c t := by
  unfold thresholdsOrdered ThresholdsInOrder
  cases c.falling <;> simp only [Bool.and_eq_true, decide_eq_true_eq, bne_iff_ne, ne_eq, if_true, Bool.false_eq_true, if_false] <;> simp
    <;> tauto

section
variable {s : State}

/-- Two ranges of the region map share no byte. -/
theorem rangesMeet_false_iff {a b : Nat × Nat} (ha : 0 < a.2) (hb : 0 < b.2) : rangesMeet a b = false
    ↔ ∀ x : Nat, a.1 ≤ x → x < a.1 + a.2 → ¬(b.1 ≤ x ∧ x < b.1 + b.2) := by
  simp only [rangesMeet, Bool.and_eq_false_iff, decide_eq_false_iff_not, Nat.not_lt]
  constructor
  · rintro h x h1 h2 ⟨h3, h4⟩
    omega
  · intro h
    by_contra hc
    have hlow := h (max a.1 b.1)
    omega

theorem regionRanges_eq (s : State) : regionRanges s = allRanges s := rfl

theorem ranges_disjoint_iff : noTwo rangesMeet (allRanges s) = true
    ↔ (regionRanges s).Pairwise fun a b => ∀ x : Nat, a.1 ≤ x → x < a.1 + a.2 → ¬(b.1 ≤ x ∧ x < b.1 + b.2) := by
  have hsize : ∀ r ∈ allRanges s, 0 < r.2 := by
    simp [allRanges, placedRegions]
  rw [noTwo_iff, regionRanges_eq]
  constructor
  · exact fun h => h.imp_of_mem fun ha hb h => (rangesMeet_false_iff (hsize _ ha) (hsize _ hb)).mp h
  · exact fun h => h.imp_of_mem fun ha hb h => (rangesMeet_false_iff (hsize _ ha) (hsize _ hb)).mpr h

theorem regionsAligned_iff : regionsAligned s.copies.regions = true ↔ ∀ r ∈ (regionRanges s).tail, r.1 % r.2 = 0 := by
  simp [regionsAligned, placedRegions, regionRanges]

theorem nodeDefined_iff (n : NodeId) : nodeDefined n = true ↔ 1 ≤ n.toNat ∧ n.toNat ≤ 4094 := by
  have := n.isLt
  simp only [nodeDefined, Bool.and_eq_true, bne_iff_ne, ne_eq, ← BitVec.toNat_inj]
  simp
  omega

theorem usedSources_iff {c : Settings} : noTwo (fun a b => a.source == b.source) (usedChannels c) = true
    ↔ ∀ i j : Fin 24, i ≠ j → c.channels[i].source ≠ .off → c.channels[i].source ≠ c.channels[j].source := by
  unfold usedChannels
  rw [noTwo_used _ _ fun a b => by rw [Bool.eq_iff_iff, beq_iff_eq, beq_iff_eq, eq_comm]]
  simp only [bne_iff_ne, ne_eq, beq_eq_false_iff_ne]
  constructor
  · exact fun h i j hij hi he => h i j hij hi (he ▸ hi) he
  · exact fun h i j hij hi _ => h i j hij hi

theorem usedThresholds_iff {c : Settings} : (usedChannels c).all (fun e => thresholdsOrdered e e.limits) = true
    ↔ ∀ i : Fin 24, c.channels[i].source ≠ .off → ThresholdsInOrder c.channels[i] c.channels[i].limits := by
  simp only [usedChannels, List.all_filter]
  rw [vector_all]
  refine forall_congr' fun i => ?_
  rw [Bool.or_eq_true, thresholdsOrdered_iff, Bool.not_eq_true', bne_eq_false_iff_eq]
  exact Decidable.or_iff_not_imp_left

theorem partnerMutual_iff {c : Settings} {i : Fin 24} : partnerMutual c i = true
    ↔ ∀ k ∈ c.channels[i].partner,
      ∃ j : Fin 24, j.val = k.val ∧ j ≠ i ∧ c.channels[j].source ≠ .off ∧ ∃ m ∈ c.channels[j].partner, m.val = i.val := by
  unfold partnerMutual
  cases hp : c.channels[i].partner with
  | none => simp
  | some k =>
    have hnamed (j : Fin 24) : (c.channels[j].partner == some (Fin.ofNat 32 i.val)) = true
        ↔ ∃ m ∈ c.channels[j].partner, m.val = i.val := by
      have hi : (Fin.ofNat 32 i.val).val = i.val := Nat.mod_eq_of_lt (by omega)
      rw [beq_iff_eq]
      constructor
      · exact fun h => ⟨_, h, hi⟩
      · rintro ⟨m, hm, he⟩
        rw [hm]
        exact congrArg some (Fin.ext (he.trans hi.symm))
    by_cases hk : k.val < 24
    · have hj : (Fin.ofNat 24 k.val).val = k.val := Nat.mod_eq_of_lt hk
      have hne : (k.val != i.val) = true ↔ Fin.ofNat 24 k.val ≠ i := by
        rw [bne_iff_ne, Ne, Ne, Fin.ext_iff, hj]
      simp only [hk, if_true, Bool.and_eq_true, hne, hnamed, bne_iff_ne, Option.mem_def, Option.some.injEq, forall_eq']
      constructor
      · rintro ⟨⟨h1, h2⟩, h3⟩
        exact ⟨_, hj, h1, h2, h3⟩
      · rintro ⟨j, hjk, h1, h2, h3⟩
        have : j = Fin.ofNat 24 k.val := Fin.ext (hjk.trans hj.symm)
        subst this
        exact ⟨⟨h1, h2⟩, h3⟩
    · simp only [hk, if_false, Bool.false_eq_true, Option.mem_def, Option.some.injEq, forall_eq', false_iff]
      rintro ⟨j, hjk, -⟩
      omega

theorem selectorDefined_iff {i : Fin 4} {q : Selector} : selectorDefined i q = true ↔ SelectorAllowed i q := by
  have hn : (q.n != 0) = true ↔ 1 ≤ q.n.val := by
    rw [bne_iff_ne, Ne, Fin.ext_iff]
    show ¬q.n.val = 0 ↔ _
    omega
  have hcode := q.code.isLt
  unfold selectorDefined SelectorAllowed
  generalize q.code.val = k at hcode
  interval_cases k <;> simp [hn] <;> omega

theorem cellLines_iff {c : Settings} {i : Fin 4} : cellLines c i = true ↔ (c.cells[i].enabled = true →
    (∃ n : Fin 8, c.lines[n].fn = .tripOut i) ∧ (c.cells[i].confirmRequired = true → ∃ n : Fin 8, c.lines[n].fn = .confirmIn i)) := by
  have hany (f : LineFn) : c.lines.toList.any (fun l => l.fn == f) = true ↔ ∃ n : Fin 8, c.lines[n].fn = f := by
    rw [vector_any]
    simp only [beq_iff_eq]
  simp only [cellLines, Bool.or_eq_true, Bool.and_eq_true, Bool.not_eq_true', hany]
  cases c.cells[i].enabled <;> cases c.cells[i].confirmRequired <;> simp

theorem idsDistinct_iff {α : Type} {n : Nat} (v : Vector α n) (f : α → Id) : idsDistinct (v.toList.map f) = true
    ↔ ∀ i j : Fin n, i ≠ j → f v[i] ≠ 0 → f v[i] ≠ f v[j] := by
  unfold idsDistinct
  rw [noTwo_iff, List.pairwise_filter, List.pairwise_map,
    vector_pairwise v (R := fun a b => (f a != 0) = true → (f b != 0) = true → (f a == f b) = false)]
  · simp only [bne_iff_ne, ne_eq, beq_eq_false_iff_ne]
    constructor
    · exact fun h i j hij hi he => h i j hij hi (he ▸ hi) he
    · exact fun h i j hij hi _ => h i j hij hi
  · intro a b h hb ha
    have := h ha hb
    simp only [beq_eq_false_iff_ne] at this ⊢
    exact fun e => this e.symm

theorem chamberChannel_iff {c : Settings} {k : Fin 4} {g : Gas} {o : Option (Fin 32)} : chamberChannel c k g o = true
    ↔ ∀ n ∈ o, ∃ i : Fin 24, i.val = n.val ∧ c.channels[i].source = .chamber k g := by
  cases o with
  | none => simp [chamberChannel]
  | some n =>
    simp only [chamberChannel, Bool.and_eq_true, decide_eq_true_eq, beq_iff_eq, Option.mem_def, Option.some.injEq, forall_eq']
    constructor
    · rintro ⟨hn, h⟩
      exact ⟨Fin.ofNat 24 n.val, Nat.mod_eq_of_lt hn, h⟩
    · rintro ⟨i, hi, h⟩
      have hlt : n.val < 24 := hi ▸ i.isLt
      have : i = Fin.ofNat 24 n.val := Fin.ext (hi.trans (Nat.mod_eq_of_lt hlt).symm)
      exact ⟨hlt, this ▸ h⟩

theorem chamberChannels_iff {c : Settings} : chamberChannels c = true ↔ ∀ k : Fin 4, c.chambers[k].id ≠ 0 →
    (∀ n ∈ c.chambers[k].o2, ∃ i : Fin 24, i.val = n.val ∧ c.channels[i].source = .chamber k .o2)
    ∧ (∀ n ∈ c.chambers[k].co, ∃ i : Fin 24, i.val = n.val ∧ c.channels[i].source = .chamber k .co) := by
  unfold chamberChannels
  rw [finRange_all]
  refine forall_congr' fun k => ?_
  rw [Bool.or_eq_true, Bool.and_eq_true, chamberChannel_iff, chamberChannel_iff, beq_iff_eq]
  tauto

theorem lineFunctions_iff {c : Settings} : noTwo (fun a b => a.fn == b.fn && a.fn != .none) c.lines.toList = true
    ↔ ∀ m n : Fin 8, m ≠ n → c.lines[m].fn ≠ .none → c.lines[m].fn ≠ c.lines[n].fn := by
  rw [noTwo_iff, vector_pairwise c.lines (R := fun a b => (a.fn == b.fn && a.fn != .none) = false)]
  · simp only [Bool.and_eq_false_iff, beq_eq_false_iff_ne, bne_eq_false_iff_eq]
    refine forall_congr' fun m => forall_congr' fun n => forall_congr' fun _ => ?_
    tauto
  · intro a b h
    simp only [Bool.and_eq_false_iff, beq_eq_false_iff_ne, bne_eq_false_iff_eq] at h ⊢
    rcases h with h | h
    · exact .inl fun e => h e.symm
    · by_cases he : b.fn = a.fn
      · exact .inr (he.trans h)
      · exact .inl he

/-- The check of order number `k` passes exactly where its proposition holds. -/
theorem startChecks_get (s : State) (k : Nat) (hk : k < 14) :
    (startChecks s)[k].1 = 0x10 + (k + 1) ∧ ((startChecks s)[k].2 = true ↔ StartCheckPasses s (k + 1)) := by
  interval_cases k
  · exact ⟨rfl, by simp [startChecks, StartCheckPasses]⟩
  · refine ⟨rfl, ?_⟩
    simp only [startChecks, StartCheckPasses, List.getElem_cons_succ, List.getElem_cons_zero, Bool.and_eq_true, decide_eq_true_eq]
    omega
  · exact ⟨rfl, regionsAligned_iff⟩
  · exact ⟨rfl, ranges_disjoint_iff⟩
  · exact ⟨rfl, nodeDefined_iff _⟩
  · exact ⟨rfl, usedSources_iff⟩
  · exact ⟨rfl, usedThresholds_iff⟩
  · refine ⟨rfl, (finRange_all _).trans (forall_congr' fun i => ?_)⟩
    rw [Bool.or_eq_true, partnerMutual_iff, beq_iff_eq]
    exact Decidable.or_iff_not_imp_left
  · refine ⟨rfl, (finRange_all _).trans (forall_congr' fun i => ?_)⟩
    rw [Bool.or_eq_true, vector_all, Bool.not_eq_true']
    simp only [selectorDefined_iff]
    rw [Decidable.or_iff_not_imp_left, Bool.not_eq_false]
  · exact ⟨rfl, lineFunctions_iff⟩
  · exact ⟨rfl, (finRange_all _).trans (forall_congr' fun i => cellLines_iff)⟩
  · exact ⟨rfl, idsDistinct_iff s.copies.segments (·.id)⟩
  · exact ⟨rfl, idsDistinct_iff s.copies.chambers (·.id)⟩
  · exact ⟨rfl, chamberChannels_iff⟩

theorem failingCheck_some_iff {n : Nat} : failingCheck s = some n ↔
    ∃ k, ∃ hk : k < 14, (startChecks s)[k].1 = n ∧ (startChecks s)[k].2 = false
      ∧ ∀ j, ∀ hj : j < k, ((startChecks s)[j]'(Nat.lt_trans hj hk)).2 = true := by
  have hlen : (startChecks s).length = 14 := rfl
  have hfind (e : Nat × Bool) := List.find?_eq_some_iff_getElem (xs := startChecks s) (p := fun k => !k.2) (b := e)
  unfold failingCheck
  constructor
  · intro h
    split at h
    · rename_i e he
      cases h
      obtain ⟨hp, k, hk, hke, hbefore⟩ := (hfind e).mp he
      refine ⟨k, hk, by rw [hke], by simpa [hke] using hp, fun j hj => ?_⟩
      have hb := hbefore j hj
      rwa [Bool.not_not] at hb
    · cases h
  · rintro ⟨k, hk, hn, hf, hbefore⟩
    have := (hfind (startChecks s)[k]).mpr ⟨by simp [hf], k, hk, rfl, fun j hj =>
      (Bool.not_not _).trans (hbefore j hj)⟩
    rw [this]
    exact congrArg some hn

theorem failingCheck_some_check {check : Nat} (hlow : 1 ≤ check) (hhigh : check ≤ 14) : failingCheck s = some (0x10 + check)
    ↔ ¬StartCheckPasses s check ∧ ∀ k, 1 ≤ k → k < check → StartCheckPasses s k := by
  rw [failingCheck_some_iff]
  constructor
  · rintro ⟨k, hk, hn, hf, hbefore⟩
    obtain ⟨hcode, hpass⟩ := startChecks_get s k hk
    have hcheck : check = k + 1 := by omega
    subst hcheck
    refine ⟨fun h => by simp [hpass.mpr h] at hf, fun j hj hjk => ?_⟩
    obtain ⟨i, rfl⟩ : ∃ i, j = i + 1 := ⟨j - 1, by omega⟩
    exact (startChecks_get s i (by omega)).2.mp (hbefore i (by omega))
  · rintro ⟨hfail, hbefore⟩
    obtain ⟨k, rfl⟩ : ∃ k, check = k + 1 := ⟨check - 1, by omega⟩
    have hk : k < 14 := by omega
    obtain ⟨hcode, hpass⟩ := startChecks_get s k hk
    refine ⟨k, hk, hcode, by simpa using mt hpass.mp hfail, fun j hj => ?_⟩
    exact (startChecks_get s j (by omega)).2.mpr (hbefore (j + 1) (by omega) (by omega))

theorem failingCheck_none_iff : failingCheck s = none ↔ ∀ check, 1 ≤ check → check ≤ 14 → StartCheckPasses s check := by
  constructor
  · intro h check hlow hhigh
    by_contra hfail
    obtain ⟨k, ⟨hk1, hk2, hkf⟩, hmin⟩ : ∃ k, (1 ≤ k ∧ k ≤ 14 ∧ ¬StartCheckPasses s k) ∧
        ∀ j, j < k → ¬(1 ≤ j ∧ j ≤ 14 ∧ ¬StartCheckPasses s j) := by
      classical
      have hex : ∃ k, 1 ≤ k ∧ k ≤ 14 ∧ ¬StartCheckPasses s k := ⟨check, hlow, hhigh, hfail⟩
      exact ⟨Nat.find hex, Nat.find_spec hex, fun j hj => Nat.find_min hex hj⟩
    have := (failingCheck_some_check hk1 hk2).mpr ⟨hkf, fun j hj hjk => by
      by_contra hc
      exact hmin j hjk ⟨hj, by omega, hc⟩⟩
    rw [h] at this
    cases this
  · intro h
    cases hf : failingCheck s with
    | none => rfl
    | some n =>
      obtain ⟨k, hk, -, hfalse, -⟩ := failingCheck_some_iff.mp hf
      have := (startChecks_get s k hk).2.mpr (h (k + 1) (by omega) (by omega))
      rw [this] at hfalse
      cases hfalse

end

/-- Settles O6: the ten requests by their code, and the start checks one by one. -/
theorem requestOutcomes : Obligations.RequestOutcomes := by
  intro strap w s
  have running (hrun : s.run = true) {k : Nat} (hk : requestCode w = k) (hlow : 1 ≤ k) (hhigh : k ≤ 10) :
      (judgeRequest strap w s).answer = runAnswer (requestArg w) s k := by
    rw [judgeRequest_answer_running strap s hrun (by omega) (by omega), hk]
  refine ⟨judgeRequest_answer_unknown strap s, fun hrun h2 h10 => ?_, fun hrun h1 => ?_, fun hrun h => ?_, fun hrun h => ?_,
    fun hrun h => ?_, fun hrun h => ?_, fun hrun h => ?_, fun hrun h harg => ?_, fun hrun h harg => ?_, fun hrun h => ?_,
    fun hrun h => ?_, fun hrun h => ?_, fun hrun h => ?_, failingCheck_none_iff,
    fun check hlow hhigh => failingCheck_some_check hlow hhigh, thresholdsOrdered_iff⟩
  · exact (judgeRequest_answer_setup strap s hrun (by omega) h10).trans (if_neg (by omega))
  · exact ((judgeRequest_answer_setup strap s hrun (by omega) (by omega)).trans (if_pos h1)).trans (requestStart_answer s)
  · exact running hrun h (by omega) (by omega)
  · exact (running hrun h (by omega) (by omega)).trans (requestRestart_answer 0 s)
  · exact (running hrun h (by omega) (by omega)).trans (requestResetCell_answer _ s)
  · exact (running hrun h (by omega) (by omega)).trans (requestEvacuation_answer _ s)
  · exact (running hrun h (by omega) (by omega)).trans (requestEnd_answer s)
  · exact (running hrun h (by omega) (by omega)).trans (harg ▸ requestAdjust_answer_periods s)
  · exact (running hrun h (by omega) (by omega)).trans (requestAdjust_answer_channel _ s harg)
  · exact (running hrun h (by omega) (by omega)).trans (requestClearDistress_answer _ s)
  · exact (running hrun h (by omega) (by omega)).trans (requestCloseCall_answer _ s)
  · exact (running hrun h (by omega) (by omega)).trans (requestClearTruck_answer _ s)
  · exact (running hrun h (by omega) (by omega)).trans (requestCheckOut_answer _ s)

end Sys2Proof.Machine
end

section
/-! PROOFS. An accepted RESTART (R171): the reset state settles in one thing, the outcome word. -/

set_option Elab.async false

namespace Sys2Proof.Machine

open Sys2Proof.Config

/-! ## The end of an event, thing by thing -/

theorem settle_of_step {n : Nat} {s0 s t : State} (h : settleStep s0 s = some t) : settle (n + 1) s0 s = settle n s0 t := by
  rw [settle, h]

theorem settle_of_none {s0 s : State} (n : Nat) (h : settleStep s0 s = none) : settle n s0 s = s := by
  cases n with
  | zero => rfl
  | succ n => rw [settle, h]

theorem levelEvents_of_not_due {s : State} (n : Nat) (h : levelDue s = false) : levelEvents n s = s := by
  cases n with
  | zero => rfl
  | succ n => rw [levelEvents, h]; rfl

/-- In SETUP no line is driven (R44). -/
theorem lineDrives_setup {s : State} (h : s.run = false) : lineDrives s = Vector.replicate 8 none := by
  apply Vector.ext
  intro i hi
  have := mapTable_get (lineDrive s) ⟨⟨List.finRange 8⟩, by simp⟩ ⟨i, hi⟩
  rw [lineDrives, this, lineDrive]
  simp [h]

theorem settleBound_succ : settleBound = 19999 + 1 := rfl

/-! ## RESTART -/

/-- The state after an accepted RESTART (R171) but for the own-write of its outcome word. -/
def restarted (strap : BitVec 2) (w : Word) (s : State) : State := warmReset .restart strap (beginEvent (requested w s))

/-- The end of the event of an accepted RESTART: the outcome word enters the emptied queue. -/
theorem settle_restarted (strap : BitVec 2) (w o : Word) (s0 s : State) :
    settle settleBound s0 (withOutcome (some o) (restarted strap w s)) =
      { restarted strap w s with
        path := { queue := [{ addr := settingAddr { s with strap := strap } 0xF04, kind := .coalescing, data := o }] } } := by
  rw [settleBound_succ, settle_of_step rfl]
  exact settle_of_none _ rfl

/-- Settles O4: the request's word and its outcome, and then the end of an event in SETUP. -/
theorem restartAccepted : Obligations.RestartAccepted := by
  intro strap tag arg s hrun hcells hlevel
  have hjudge : judgeRequest strap (requestWord 2 tag arg) (beginEvent (requested (requestWord 2 tag arg) s))
      = Reply.done (restarted strap (requestWord 2 tag arg) s) := by
    have hcode := requestCode_requestWord 2 tag arg (by decide)
    rw [judgeRequest_running strap (by exact hrun) (by rw [hcode]; decide) (by rw [hcode]; decide), hcode]
    have hcells' : cellsTripped (beginEvent (requested (requestWord 2 tag arg) s)) = false := hcells
    have hlevel' : (beginEvent (requested (requestWord 2 tag arg) s)).level.level = .normal := hlevel
    simp only [requestRestart, hcells', hlevel', Bool.false_eq_true, if_false, ne_eq, not_true_eq_false]
    rfl
  have hexec : exec (.restart strap tag arg) s = .next (serveWrite strap (requestAccess s 2 tag arg) s) := rfl
  rw [hexec, serveWrite_request]
  unfold event
  simp only [executeRequest_done strap hjudge, settle_restarted]
  rw [levelEvents_of_not_due]
  · rw [driveLines, lineDrives_setup rfl]
    rfl
  · rfl

end Sys2Proof.Machine
end

section
/-! PROOFS. A bus write classified: in SETUP, outside every region, forbidden, not taken, taken in full and in part (R65 to R68, R163). -/

set_option Elab.async false

namespace Sys2Proof.Machine

open Sys2Proof.Config

section
variable {s : State} {strap : BitVec 2} {a : Access} {k : RegionKind} {o : Nat} {w : Taken}

/-! ## In RUN -/

theorem serveWrite_outside (hrun : s.run = true) (hregion : regionAt s a.wordAddr = none) :
    serveWrite strap a s = reachMemory a a.data s := by
  simp only [serveWrite, hrun, if_true, runWrite, hregion]

theorem serveWrite_forbidden (hrun : s.run = true) (hregion : regionAt s a.wordAddr = some (k, o))
    (hperm : permitted s a.init k o = false) : serveWrite strap a s = event (recordFault .guardWrite (busIdent a)) s := by
  simp only [serveWrite, hrun, if_true, runWrite, hregion, hperm, Bool.not_false]

theorem serveWrite_untaken (hrun : s.run = true) (hregion : regionAt s a.wordAddr = some (k, o))
    (hperm : permitted s a.init k o = true) (htaken : takenWord s a.init k o = none) :
    serveWrite strap a s = reachMemory a a.data s := by
  simp only [serveWrite, hrun, if_true, runWrite, hregion, hperm, Bool.not_true, Bool.false_eq_true, if_false, htaken]

theorem serveWrite_taken (hrun : s.run = true) (hregion : regionAt s a.wordAddr = some (k, o))
    (hperm : permitted s a.init k o = true) (htaken : takenWord s a.init k o = some w) (hfull : a.isFull = true) :
    serveWrite strap a s = takeWrite strap a w s := by
  simp only [serveWrite, hrun, if_true, runWrite, hregion, hperm, Bool.not_true, Bool.false_eq_true, if_false, htaken, hfull]

theorem serveWrite_partial (hrun : s.run = true) (hregion : regionAt s a.wordAddr = some (k, o))
    (hperm : permitted s a.init k o = true) (htaken : takenWord s a.init k o = some w) (hpart : a.isFull = false) :
    serveWrite strap a s
      = event (fun u => missWrite w (recordFault .partialWrite (busIdent a) u)) (reachMemory a a.data s) := by
  simp only [serveWrite, hrun, if_true, runWrite, hregion, hperm, Bool.not_true, Bool.false_eq_true, if_false, htaken, hpart]

/-! ## In SETUP -/

theorem serveWrite_setup (hrun : s.run = false) : serveWrite strap a s = setupWrite strap a s := by
  simp only [serveWrite, hrun, Bool.false_eq_true, if_false]

/-- In SETUP a write that is not the controller's full word in the setting area changes memory alone (R163). -/
theorem setupWrite_plain (h : ∀ o, regionAt s a.wordAddr = some (.setting, o) → ¬(a.init = .controller ∧ a.isFull = true)) :
    setupWrite strap a s = reachMemory a a.data s := by
  have hregion : regionAt (reachMemory a a.data s) a.wordAddr = regionAt s a.wordAddr := rfl
  unfold setupWrite
  split
  · rename_i hc
    dsimp only
    rw [hregion]
    split
    · rename_i o ho
      exact absurd hc (h o ho)
    · rfl
    · rfl
  · rfl

end

/-! ## A full word of the setting area -/

section
variable {s : State} {o : Nat} {data : Word}

theorem setupWrite_setting {strap : BitVec 2} (ho : o < 0x510) (h4 : o % 4 = 0) :
    setupWrite strap (fullAccess .controller (settingAddr s o) data) s = { s with
      mem := memWriteWord s.mem (settingBase s.strap + o) data, copies := takeSettings o data s.copies } := by
  have hword : (fullAccess .controller (settingAddr s o) data).wordAddr = settingBase s.strap + o := wordBase_settingAddr (by omega) h4
  have hfull : (fullAccess .controller (settingAddr s o) data).isFull = true := fullWordAccess_settingAddr (by omega) h4
  have hregion : regionAt (reachMemory (fullAccess .controller (settingAddr s o) data) data s)
      (fullAccess .controller (settingAddr s o) data).wordAddr = some (.setting, o) := by
    rw [hword]
    exact regionAt_setting (by omega)
  have hadj : inAdjustment o = false := by simp [inAdjustment]; omega
  have hinit : (fullAccess .controller (settingAddr s o) data).init = .controller := rfl
  have hdata : (fullAccess .controller (settingAddr s o) data).data = data := rfl
  simp only [setupWrite, hinit, hfull, hdata, hregion, and_self, if_true, hadj, Bool.false_eq_true, if_false,
    if_neg (show ¬o = 0xF00 by omega)]
  simp only [reachMemory, hword]
  rfl

theorem serveWrite_adjustment {strap : BitVec 2} (hlow : 0x600 ≤ o) (ho : o < 0x78C) (h4 : o % 4 = 0) :
    serveWrite strap (fullAccess .controller (settingAddr s o) data) s = { s with
      mem := memWriteWord s.mem (settingBase s.strap + o) data, staged := takeStaged o data s.staged } := by
  have hword : (fullAccess .controller (settingAddr s o) data).wordAddr = settingBase s.strap + o := wordBase_settingAddr (by omega) h4
  have hfull : (fullAccess .controller (settingAddr s o) data).isFull = true := fullWordAccess_settingAddr (by omega) h4
  have hregion : regionAt s (fullAccess .controller (settingAddr s o) data).wordAddr = some (.setting, o) := by
    rw [hword]
    exact regionAt_setting (by omega)
  have hadj : inAdjustment o = true := by simp [inAdjustment]; omega
  have hinit : (fullAccess .controller (settingAddr s o) data).init = .controller := rfl
  have hdata : (fullAccess .controller (settingAddr s o) data).data = data := rfl
  have hreach : reachMemory (fullAccess .controller (settingAddr s o) data) data s
      = { s with mem := memWriteWord s.mem (settingBase s.strap + o) data } := by
    simp only [reachMemory, hword]
    rfl
  have hne : ¬o = 0xF00 := by omega
  rcases Bool.eq_false_or_eq_true s.run with hrun | hrun
  · have hallowed : permitted s .controller .setting o = true := by simp [permitted, hadj]
    have htaken : takenWord s .controller .setting o = some (.adjustment o) := by simp [takenWord, hne, hadj]
    rw [serveWrite_taken hrun hregion hallowed htaken hfull, takeWrite]
    simp only [hdata, hreach]
  · have hregion' : regionAt (reachMemory (fullAccess .controller (settingAddr s o) data) data s)
        (fullAccess .controller (settingAddr s o) data).wordAddr = some (.setting, o) := hregion
    rw [serveWrite_setup hrun]
    simp only [setupWrite, hinit, hfull, hdata, hregion', and_self, if_true, hadj, if_neg hne]
    rw [hreach]

end

end Sys2Proof.Machine
end

section
/-! PROOFS. Setting words, adjustment words and the consume index, each taken into its fields (R163, R168, R177, R182). -/

set_option Elab.async false

namespace Sys2Proof.Machine

open Sys2Proof.Config

/-! ## The section in which an offset falls -/

section
variable (w : Word) (c : Settings) {k : Nat}

theorem clamp_zero (high n : Nat) : clamp 0 high n = min high n := Nat.zero_max _

theorem takeSettings_region (hk : k < 8) : takeSettings (4 * k) w c = { c with regions := takeRegion k w c.regions } := by
  rw [takeSettings, if_pos (by omega), Nat.mul_div_cancel_left k (by decide)]

theorem takeSettings_node (hk : k < 8) : takeSettings (0x020 + 4 * k) w c = { c with node := takeNode k w c.node } := by
  have hindex : (0x020 + 4 * k - 0x020) / 4 = k := by omega
  rw [takeSettings, if_neg (by omega), if_pos (by omega), hindex]

theorem takeSettings_channel (i : Fin 24) (hk : k < 8) : takeSettings (0x040 + 32 * i.val + 4 * k) w c
    = { c with channels := c.channels.set i (takeChannel k w c.channels[i]) } := by
  have hi := i.isLt
  have hindex : Fin.ofNat 24 ((0x040 + 32 * i.val + 4 * k - 0x040) / 32) = i := Fin.ext (by simp only [Fin.val_ofNat]; omega)
  have hword : (0x040 + 32 * i.val + 4 * k - 0x040) % 32 / 4 = k := by omega
  rw [takeSettings, if_neg (by omega), if_neg (by omega), if_pos (by omega), hindex, hword]
  rfl

theorem takeSettings_cell (i : Fin 4) (hk : k < 4) : takeSettings (0x340 + 16 * i.val + 4 * k) w c
    = { c with cells := c.cells.set i (takeCell k w c.cells[i]) } := by
  have hi := i.isLt
  have hindex : Fin.ofNat 4 ((0x340 + 16 * i.val + 4 * k - 0x340) / 16) = i := Fin.ext (by simp only [Fin.val_ofNat]; omega)
  have hword : (0x340 + 16 * i.val + 4 * k - 0x340) % 16 / 4 = k := by omega
  rw [takeSettings, if_neg (by omega), if_neg (by omega), if_neg (by omega), if_pos (by omega), hindex, hword]
  rfl

theorem takeSettings_line (n : Fin 8) : takeSettings (0x380 + 4 * n.val) w c = { c with lines := c.lines.set n (takeLine w) } := by
  have hn := n.isLt
  have hindex : Fin.ofNat 8 ((0x380 + 4 * n.val - 0x380) / 4) = n := Fin.ext (by simp only [Fin.val_ofNat]; omega)
  rw [takeSettings, if_neg (by omega), if_neg (by omega), if_neg (by omega), if_neg (by omega), if_pos (by omega)]
  exact congrArg (fun i : Fin 8 => { c with lines := c.lines.set i (takeLine w) }) hindex

theorem takeSettings_segment (i : Fin 16) (hk : k < 4) : takeSettings (0x3A0 + 16 * i.val + 4 * k) w c
    = { c with segments := c.segments.set i (takeSegment k w c.segments[i]) } := by
  have hi := i.isLt
  have hindex : Fin.ofNat 16 ((0x3A0 + 16 * i.val + 4 * k - 0x3A0) / 16) = i := Fin.ext (by simp only [Fin.val_ofNat]; omega)
  have hword : (0x3A0 + 16 * i.val + 4 * k - 0x3A0) % 16 / 4 = k := by omega
  rw [takeSettings, if_neg (by omega), if_neg (by omega), if_neg (by omega), if_neg (by omega), if_neg (by omega),
    if_pos (by omega), hindex, hword]
  rfl

theorem takeSettings_chamber (i : Fin 4) (hk : k < 4) : takeSettings (0x4A0 + 16 * i.val + 4 * k) w c
    = { c with chambers := c.chambers.set i (takeChamber k w c.chambers[i]) } := by
  have hi := i.isLt
  have hindex : Fin.ofNat 4 ((0x4A0 + 16 * i.val + 4 * k - 0x4A0) / 16) = i := Fin.ext (by simp only [Fin.val_ofNat]; omega)
  have hword : (0x4A0 + 16 * i.val + 4 * k - 0x4A0) % 16 / 4 = k := by omega
  rw [takeSettings, if_neg (by omega), if_neg (by omega), if_neg (by omega), if_neg (by omega), if_neg (by omega),
    if_neg (by omega), if_pos (by omega), hindex, hword]
  rfl

theorem takeSettings_faults (k : Fin 12) : takeSettings (0x4E0 + 4 * k.val) w c = { c with faults := c.faults.set k (takeFaults w) } := by
  have hk := k.isLt
  have hindex : Fin.ofNat 12 ((0x4E0 + 4 * k.val - 0x4E0) / 4) = k := Fin.ext (by simp only [Fin.val_ofNat]; omega)
  rw [takeSettings, if_neg (by omega), if_neg (by omega), if_neg (by omega), if_neg (by omega), if_neg (by omega),
    if_neg (by omega), if_neg (by omega), if_pos (by omega)]
  exact congrArg (fun i : Fin 12 => { c with faults := c.faults.set i (takeFaults w) }) hindex

/-- A word of a record that fills nothing leaves the table. -/
theorem set_self {α : Type} {n : Nat} (v : Vector α n) (i : Fin n) : v.set i v[i] = v := by
  apply Vector.ext
  intro j hj
  by_cases h : i.val = j
  · subst h
    rw [Vector.getElem_set_self]
    rfl
  · rw [Vector.getElem_set_ne _ _ h]

end

/-- The thresholds of a block of the ADJUSTMENT section, by the word's place in it (R168). -/
def takeBlock (k : Nat) (w : Word) (t : Thresholds) : Thresholds :=
  match k with
  | 0 => takeLow w t
  | 1 => takeHigh w t
  | 2 => takeRate w t
  | _ => t

theorem takeStaged_block (i : Fin 24) {k : Nat} (w : Word) (g : Staged) (hk : k < 4) :
    takeStaged (0x600 + 16 * i.val + 4 * k) w g = { g with channels := g.channels.set i (takeBlock k w g.channels[i]) } := by
  have hi := i.isLt
  have hindex : Fin.ofNat 24 ((0x600 + 16 * i.val + 4 * k - 0x600) / 16) = i := Fin.ext (by simp only [Fin.val_ofNat]; omega)
  have hword : (0x600 + 16 * i.val + 4 * k - 0x600) % 16 / 4 = k := by omega
  rw [takeStaged, if_pos (by omega), hindex, hword]
  clear hindex hword
  match k, hk with
  | 0, _ | 1, _ | 2, _ => rfl
  | 3, _ => exact congrArg (fun v => { g with channels := v }) (set_self g.channels i).symm

/-! ## The fields of each word -/

section
variable (w : Word)

theorem code_ofCode (n : Nat) (h : n < 4) : Grade.code (Grade.ofCode n) = n := by
  match n, h with
  | 0, _ | 1, _ | 2, _ | 3, _ => rfl

theorem fieldNat_lt (lo width : Nat) : fieldNat w lo width < 2 ^ width := (bits w lo width).isLt

theorem takeSource_cases : (fieldNat w 0 2 = 0 ∨ fieldNat w 0 2 = 3 → takeSource w = .off)
    ∧ (fieldNat w 0 2 = 1 → takeSource w = .localInput (Fin.ofNat 16 (fieldNat w 4 4)))
    ∧ (fieldNat w 0 2 = 2 → takeSource w = .chamber (Fin.ofNat 4 (fieldNat w 8 2)) (if bitOf w 10 then .co else .o2)) := by
  unfold takeSource
  refine ⟨?_, fun h => by simp only [h], fun h => by simp only [h]⟩
  rintro (h | h) <;> simp only [h]

theorem takeMode_cases {n : Nat} (hn : n < 8) : (n = 0 ∨ 6 ≤ n → takeMode n = .any) ∧ (n = 1 → takeMode n = .all)
    ∧ (n = 2 → takeMode n = .twoOfFour) ∧ (n = 3 → takeMode n = .threeOfFour)
    ∧ (n = 4 → takeMode n = .pairsEither) ∧ (n = 5 → takeMode n = .pairsBoth) := by
  match n, hn with
  | 0, _ | 1, _ | 2, _ | 3, _ | 4, _ | 5, _ | 6, _ | 7, _ => simp [takeMode]

theorem takeLine_fn : (fieldNat w 0 4 = 0 ∨ 6 ≤ fieldNat w 0 4 → (takeLine w).fn = .none)
    ∧ (fieldNat w 0 4 = 1 → (takeLine w).fn = .tripOut (Fin.ofNat 4 (fieldNat w 4 2)))
    ∧ (fieldNat w 0 4 = 2 → (takeLine w).fn = .confirmIn (Fin.ofNat 4 (fieldNat w 4 2)))
    ∧ (fieldNat w 0 4 = 3 → (takeLine w).fn = .beacon) ∧ (fieldNat w 0 4 = 4 → (takeLine w).fn = .siren)
    ∧ (fieldNat w 0 4 = 5 → (takeLine w).fn = .attention) := by
  unfold takeLine
  generalize fieldNat w 0 4 = n
  refine ⟨fun h => ?_, fun h => ?_, fun h => ?_, fun h => ?_, fun h => ?_, fun h => ?_⟩
  · dsimp only
    split
    case h_6 => rfl
    all_goals omega
  all_goals simp only [h]

theorem takeFaults_escalation : (fieldNat w 4 3 = 0 ∨ 4 ≤ fieldNat w 4 3 → (takeFaults w).escalation = .default)
    ∧ (fieldNat w 4 3 = 1 → (takeFaults w).escalation = .none) ∧ (fieldNat w 4 3 = 2 → (takeFaults w).escalation = .alert)
    ∧ (fieldNat w 4 3 = 3 → (takeFaults w).escalation = .evacuate) := by
  unfold takeFaults
  generalize fieldNat w 4 3 = n
  refine ⟨fun h => ?_, fun h => ?_, fun h => ?_, fun h => ?_⟩
  · dsimp only
    split
    case h_4 => rfl
    all_goals omega
  all_goals simp only [h]

/-- Two selectors of four are replaced. -/
theorem setTwo_low {α : Type} (v : Vector α 4) (a b : α) : (v.set 0 a).set 1 b = #v[a, b, v[2], v[3]] := by
  apply Vector.ext
  intro i hi
  match i, hi with
  | 0, _ | 1, _ | 2, _ | 3, _ => simp

theorem setTwo_high {α : Type} (v : Vector α 4) (a b : α) : (v.set 2 a).set 3 b = #v[v[0], v[1], a, b] := by
  apply Vector.ext
  intro i hi
  match i, hi with
  | 0, _ | 1, _ | 2, _ | 3, _ => simp

end

/-! ## The end of an event after a write that has reached memory -/

theorem lineDrives_driveLines (s : State) : lineDrives (driveLines s) = lineDrives s := rfl

/-- After an event the lines follow their functions (R44). -/
theorem event_drive (f : State → State) (s : State) : (event f s).drive = lineDrives (event f s) := by
  unfold event
  rw [lineDrives_driveLines, driveLines]

theorem reachMemory_sameBut (a : Access) (w : Word) (s : State) : SameBut [] s (reachMemory a w s) := by
  simp [SameBut, SameBase, SameLevel, SameRoad, SameFault, SamePath, reachMemory]

/-- An event in a state that differs from `s` in what any event may change. -/
theorem event_sameBut_of {l : List Area} {f : State → State} {s u : State} (hu : SameBut [] s u)
    (hf : SameBut l (beginEvent u) (f (beginEvent u))) : SameBut l s (event f u) :=
  SameBut.trans (hu.mono (by simp)) (event_sameBut hf)

/-! ## The consume index -/

theorem bits_low16 (w : Word) : bits w 0 16 = w.setWidth 16 := by
  rw [bits, BitVec.setWidth_eq_extractLsb' (by decide)]

theorem clampConsume_cases (f : FaultUnit) (w : BitVec 16) :
    ((w - f.consume).toNat ≤ occupancy f → clampConsume f w = w)
      ∧ (occupancy f < (w - f.consume).toNat → (w - f.consume).toNat < 32768 → clampConsume f w = f.produce)
      ∧ (occupancy f < (w - f.consume).toNat → 32768 ≤ (w - f.consume).toNat → clampConsume f w = f.consume) := by
  unfold clampConsume
  refine ⟨fun h => if_pos h, fun h h' => ?_, fun h h' => ?_⟩
  · rw [if_neg (by omega), if_pos h']
  · rw [if_neg (by omega), if_neg (by omega)]

/-- A CONSUME_INDEX_WRITE in RUN is the event of the clamped index. -/
theorem exec_consumeIndexWrite {addr : Addr} {data : Word} {s : State} (hrun : s.run = true)
    (hfull : fullWordAccess addr 0xF = true) (hregion : regionAt s (wordBase addr.toNat) = some (.events, 4)) :
    exec (.consumeIndexWrite addr data) s = .next (event (takeConsume (clampConsume s.fault (data.setWidth 16)))
      (reachMemory (fullAccess .controller addr data) (withConsume (clampConsume s.fault (data.setWidth 16)) data) s)) := by
  have hexec : exec (.consumeIndexWrite addr data) s = .next (serveWrite s.strap (fullAccess .controller addr data) s) := rfl
  rw [hexec,
    serveWrite_taken (a := fullAccess .controller addr data) (w := .consume) hrun hregion rfl rfl hfull, takeWrite, ← bits_low16]
  rfl

/-- Settles O14: a write of each section's words, word by word, and the clamped consume index. -/
theorem controllerWordsTaken : Obligations.ControllerWordsTaken := by
  refine ⟨?_, ?_, ?_, ?_, ?_, ?_, ?_, ?_, ?_, ?_, ?_, ?_⟩
  · intro o data s hrun h4 ho
    have hexec : exec (.settingWrite (settingAddr s o) data) s
        = .next (serveWrite s.strap (fullAccess .controller (settingAddr s o) data) s) := rfl
    exact ⟨_, hexec, by rw [serveWrite_setup hrun, setupWrite_setting ho h4]⟩
  · intro o data s h4 hlow ho
    have hexec : exec (.adjustmentWrite (settingAddr s o) data) s
        = .next (serveWrite s.strap (fullAccess .controller (settingAddr s o) data) s) := rfl
    exact ⟨_, hexec, serveWrite_adjustment hlow ho h4⟩
  · intro w c
    have fill {k : Nat} (hk : k < 8) := takeSettings_region w c hk
    exact ⟨fill (k := 0) (by decide), fill (k := 1) (by decide), fill (k := 2) (by decide), fill (k := 3) (by decide),
      fill (k := 4) (by decide), fill (k := 5) (by decide), fill (k := 6) (by decide), fill (k := 7) (by decide)⟩
  · intro w c
    have fill {k : Nat} (hk : k < 8) := takeSettings_node w c hk
    refine ⟨fill (k := 0) (by decide), fill (k := 1) (by decide), (fill (k := 2) (by decide)).trans ?_,
      (fill (k := 3) (by decide)).trans ?_, (fill (k := 4) (by decide)).trans ?_, (fill (k := 5) (by decide)).trans ?_,
      fill (k := 6) (by decide), fill (k := 7) (by decide)⟩
    · simp only [takeNode, clamp, Nat.zero_max]
    · simp only [takeNode, clamp_zero]
    · simp only [takeNode, clamp, Nat.zero_max]
    · rfl
  · intro i w c
    have fill {k : Nat} (hk : k < 8) := takeSettings_channel w c i hk
    obtain ⟨hoff, hlocal, hchamber⟩ := takeSource_cases w
    refine ⟨⟨takeSource w, Grade.ofCode (fieldNat w 16 2), ?_, hoff, hlocal, hchamber, code_ofCode _ (fieldNat_lt w 16 2)⟩,
      fill (k := 1) (by decide), fill (k := 2) (by decide), fill (k := 3) (by decide), fill (k := 4) (by decide),
      (fill (k := 5) (by decide)).trans ?_, (fill (k := 6) (by decide)).trans ?_, (fill (k := 7) (by decide)).trans ?_⟩
    · refine (fill (k := 0) (by decide)).trans ?_
      simp only [takeChannel, clamp_zero]
    · simp only [takeChannel, clamp_zero, takeRate]
    · simp only [takeChannel, clamp]
    · simp only [takeChannel, set_self]
  · intro i w c
    have fill {k : Nat} (hk : k < 4) := takeSettings_cell w c i hk
    refine ⟨⟨takeMode (fieldNat w 1 3), fill (k := 0) (by decide), takeMode_cases (fieldNat_lt w 1 3)⟩,
      (fill (k := 1) (by decide)).trans ?_, (fill (k := 2) (by decide)).trans ?_, (fill (k := 3) (by decide)).trans ?_⟩
    · simp only [takeCell, setTwo_low, takeSelector]
    · simp only [takeCell, setTwo_high, takeSelector]
    · simp only [takeCell, set_self]
  · intro n w c
    exact ⟨(takeLine w).fn, takeSettings_line w c n, takeLine_fn w⟩
  · intro i w c
    have fill {k : Nat} (hk : k < 4) := takeSettings_segment w c i hk
    refine ⟨fill (k := 0) (by decide), fill (k := 1) (by decide), (fill (k := 2) (by decide)).trans ?_,
      (fill (k := 3) (by decide)).trans ?_⟩
    · simp only [takeSegment, clamp_zero]
    · simp only [takeSegment, set_self]
  · intro i w c
    have fill {k : Nat} (hk : k < 4) := takeSettings_chamber w c i hk
    refine ⟨fill (k := 0) (by decide), (fill (k := 1) (by decide)).trans ?_, fill (k := 2) (by decide),
      (fill (k := 3) (by decide)).trans ?_⟩
    · simp only [takeChamber, clamp_zero]
    · simp only [takeChamber, set_self]
  · intro k w c
    exact ⟨(takeFaults w).escalation, takeSettings_faults w c k, takeFaults_escalation w⟩
  · intro i w g
    have fill {k : Nat} (hk : k < 4) := takeStaged_block i w g hk
    refine ⟨fill (k := 0) (by decide), fill (k := 1) (by decide), fill (k := 2) (by decide),
      (fill (k := 3) (by decide)).trans ?_, ?_, ?_, ?_⟩
    · simp only [takeBlock, set_self]
    all_goals simp [takeStaged, clamp]
  · intro addr data s hrun hfull hregion
    have acted := event_sameBut_acted (takeConsume (clampConsume s.fault (data.setWidth 16)))
      (reachMemory (fullAccess .controller addr data) (withConsume (clampConsume s.fault (data.setWidth 16)) data) s)
    obtain ⟨hconsume, hpatrol, -⟩ := acted.fault
    refine ⟨_, exec_consumeIndexWrite hrun hfull hregion, ?_, hpatrol, event_drive _ _, ?_⟩
    · rw [hconsume]
      exact clampConsume_cases s.fault (data.setWidth 16)
    · exact event_sameBut_of (reachMemory_sameBut _ _ s) (takeConsume_within _ _).1

end Sys2Proof.Machine
end

section
/-! PROOFS. Calibration, arming reads, the tick and the timers, the expiries of the repeat and the patrol timer (R9, R26 to R28, R55,
R76 to R78, R127, R178). -/

set_option Elab.async false

namespace Sys2Proof.Machine

open Sys2Proof.Config

/-! ## Calibration -/

/-- Settles O18: the calibrated value is a rounded quotient. -/
theorem calibrationRounds : Obligations.CalibrationRounds := by
  intro set r c hzero hspan hr x
  have hlow : -(4095 * set.span : Int) ≤ x := by
    have : (-4095 : Int) * set.span ≤ ((r.toNat : Int) - set.zero) * set.span :=
      mul_le_mul_of_nonneg_right (by omega) (by omega)
    simpa [x] using this
  have hhigh : x ≤ 4094 * set.span := mul_le_mul_of_nonneg_right (by omega) (by omega)
  have hvalue : calibrate set r = min set.fullScale ((x + 2048) / 4096).toNat := rfl
  refine ⟨⟨by omega, by omega⟩, ⟨(x + 2048) / 4096, by omega, by omega, ?_, ?_, ?_⟩, ?_, ?_, rfl⟩
  · intro hneg
    omega
  · intro hpos hbig
    omega
  · intro hpos hsmall
    omega
  · intro hspan0
    have hx : x = 0 := by simp [x, hspan0]
    rw [hvalue, hx]
    exact Nat.min_zero _
  · intro hlt hmargin
    have hx : x ≤ 0 := mul_nonpos_of_nonpos_of_nonneg (by omega) (by omega)
    refine ⟨?_, ?_⟩
    · have hne : r ≠ 4095 := by
        rintro rfl
        exact absurd hr (by decide)
      have hin : ¬((r.toNat : Int) - set.zero < -(set.underMargin : Int)) := by omega
      simp only [readingVerdict, hne, hin, reduceCtorEq, if_false, Bool.false_eq_true]
    · rw [hvalue]
      omega

/-! ## Reads that arm or empty the record -/

section
variable {s : State} {addr : Addr} {k : RegionKind} {o : Nat}

/-- A CONTROLLER full-word read in RUN inside a region (R65). -/
theorem serveRead_controller (hrun : s.run = true) (hfull : fullWordAccess addr 0xF = true)
    (hregion : regionAt s (wordBase addr.toNat) = some (k, o)) :
    serveRead (fullAccess .controller addr 0) s
      = armRead k o (memWord s.mem (wordBase addr.toNat)) { s with readData := memWord s.mem (wordBase addr.toNat) } := by
  have hword : (fullAccess .controller addr 0).wordAddr = wordBase addr.toNat := rfl
  have hinit : (fullAccess .controller addr 0).init = .controller := rfl
  have hfull' : (fullAccess .controller addr 0).isFull = true := hfull
  simp only [serveRead, hword, hregion, hrun, hinit, hfull', Bool.not_true, Bool.false_eq_true, if_false, reduceCtorEq, false_and,
    and_false, and_self, if_true]

/-- A read that consumes and that the armed record does not name empties the record and arms as it does. -/
theorem armRead_of_unnamed {w : Word} (hconsumes : consumes k o = true)
    (h : ∀ a, s.path.arming = some a → consumeArming k o a (setArming none s) = setArming none s) :
    armRead k o w s = setArming (armingOf k o w) s := by
  rw [armRead, if_pos hconsumes]
  cases harm : s.path.arming with
  | none => rfl
  | some a =>
    simp only [h a harm]
    rfl

theorem consumeArming_report (a : Arming) (o : Nat) (u : State) : consumeArming .report o a u = u := by
  unfold consumeArming
  cases a.target <;> rfl

theorem armRead_report (w : Word) : armRead .report o w s = setArming (armingOf .report o w) s :=
  armRead_of_unnamed rfl (fun a _ => consumeArming_report a o _)

end

/-- Settles O23: a read of REPORT or of CONTROL that the record does not name. -/
theorem armingReads : Obligations.ArmingReads := by
  refine ⟨?_, ?_, ?_⟩
  · intro addr c s hrun hfull hregion
    have hexec : exec (.channelArmingRead addr) s = .next (serveRead (fullAccess .controller addr 0) s) := rfl
    have hc := c.isLt
    have hindex : Fin.ofNat 24 ((0x040 + 8 * c.val - 0x040) / 8) = c := Fin.ext (by simp only [Fin.val_ofNat]; omega)
    refine ⟨_, hexec, ?_⟩
    rw [serveRead_controller hrun hfull hregion, armRead_report]
    simp only [armingOf, setArming, if_pos (show 0x040 ≤ 0x040 + 8 * c.val ∧ 0x040 + 8 * c.val < 0x100
      ∧ (0x040 + 8 * c.val) % 8 = 0 by omega), hindex]
  · intro addr s hrun hfull hregion
    have hexec : exec (.logArmingRead addr) s = .next (serveRead (fullAccess .controller addr 0) s) := rfl
    refine ⟨_, hexec, ?_⟩
    rw [serveRead_controller hrun hfull hregion, armRead_report]
    rfl
  · intro addr k o s hrun hfull hregion hunnamed hack
    have hexec : exec (.consumingRead addr) s = .next (serveRead (fullAccess .controller addr 0) s) := rfl
    refine ⟨_, hexec, ?_⟩
    rw [serveRead_controller hrun hfull hregion]
    obtain ⟨rfl, hlog, hchannel⟩ | ⟨rfl, hlow, hhigh, hlog⟩ := hunnamed
    · rw [armRead_report, armingOf, if_neg hchannel, if_neg hlog]
      rfl
    · have hcontrol : consumes .setting o = true := by simp [consumes, inControl, hlow, hhigh]
      rw [armRead_of_unnamed hcontrol]
      · rfl
      · intro a ha
        have ha : s.path.arming = some a := ha
        unfold consumeArming
        cases htarget : a.target with
        | channel c => exact if_neg (hack rfl a c ha htarget)
        | log => exact if_neg ((hlog a ha).resolve_left (fun hn => hn htarget))

/-! ## Timers -/

theorem Timer.tick_off : Timer.tick .off = .off := rfl

theorem Timer.tick_iterate_off (k : Nat) : Timer.tick^[k] .off = .off := Function.iterate_fixed Timer.tick_off k

theorem Timer.tick_iterate_running (n k : Nat) : Timer.tick^[k] (.running 0 n) = .running (min k n) n := by
  induction k with
  | zero => simp
  | succ k ih =>
    rw [Function.iterate_succ_apply', ih, Timer.tick]
    congr 1
    split <;> omega

/-- A timeout of length `n` is due from its `n`-th tick on (R77). -/
theorem Timer.due_iterate (n k : Nat) : Timer.due (Timer.tick^[k] (Timer.start n)) = decide (1 ≤ n ∧ n ≤ k) := by
  unfold Timer.start
  split
  · rename_i hn
    rw [Timer.tick_iterate_off]
    simp [Timer.due, hn]
  · rw [Timer.tick_iterate_running, Timer.due]
    congr 1
    rw [eq_iff_iff]
    omega

/-- A running period timer after `k` ticks (R78). -/
theorem PeriodTimer.tick_iterate {p : Nat} (hp : 1 ≤ p) (k : Nat) :
    PeriodTimer.tick^[k] { period := some p } = { period := some p, count := k % p, due := decide (p ≤ k) } := by
  induction k with
  | zero =>
    have hne : ¬p ≤ 0 := by omega
    simp [hne]
  | succ k ih =>
    rw [Function.iterate_succ_apply', ih, PeriodTimer.tick]
    dsimp only
    have hlt := Nat.mod_lt k hp
    have hmod := Nat.add_mod k 1 p
    split
    · rename_i hfull
      have hk : p ≤ k + 1 := by
        have := Nat.mod_le k p
        omega
      have hcount : (k + 1) % p = 0 := by
        rw [← Nat.mod_add_mod, show k % p + 1 = p by omega, Nat.mod_self]
      simp [hk, hcount]
    · rename_i hfree
      have hcount : (k + 1) % p = k % p + 1 := by
        rw [← Nat.mod_add_mod, Nat.mod_eq_of_lt (by omega)]
      have hdue : (p ≤ k) = (p ≤ k + 1) := by
        rw [eq_iff_iff]
        refine ⟨fun h => by omega, fun h => ?_⟩
        rcases Nat.lt_or_ge k p with hk | hk
        · rw [Nat.mod_eq_of_lt hk] at hfree
          omega
        · exact hk
      simp [hcount, hdue]

theorem PeriodTimer.start_eq {p : Nat} (hp : 1 ≤ p) : PeriodTimer.start p = { period := some p } := by
  rw [PeriodTimer.start, if_neg (by omega)]

theorem PeriodTimer.tick_stopped {x : PeriodTimer} (h : x.period = none) : PeriodTimer.tick x = x := by
  rw [PeriodTimer.tick, h]

theorem PeriodTimer.tick_keeps_period (x : PeriodTimer) :
    (PeriodTimer.tick x).period = x.period ∧ (PeriodTimer.tick x).staged = x.staged := by
  unfold PeriodTimer.tick
  split
  · exact ⟨rfl, rfl⟩
  · split <;> exact ⟨rfl, rfl⟩

theorem PeriodTimer.iterate_keeps_period (x : PeriodTimer) (k : Nat) :
    (PeriodTimer.tick^[k] x).period = x.period ∧ (PeriodTimer.tick^[k] x).staged = x.staged := by
  induction k with
  | zero => exact ⟨rfl, rfl⟩
  | succ k ih =>
    rw [Function.iterate_succ_apply', (PeriodTimer.tick_keeps_period _).1, (PeriodTimer.tick_keeps_period _).2]
    exact ih

theorem PeriodTimer.expire_of_staged {p : Nat} {x : PeriodTimer} (h : x.staged = some p) :
    PeriodTimer.expire x = if p = 0 then {} else { period := some p, count := x.count } := by
  rw [PeriodTimer.expire, h]

theorem PeriodTimer.expire_of_unstaged {x : PeriodTimer} (h : x.staged = none) :
    PeriodTimer.expire x = { x with due := false } := by
  rw [PeriodTimer.expire, h]

theorem PeriodTimer.apply_stopped {x : PeriodTimer} (p : Nat) (h : x.period = none) :
    PeriodTimer.apply p x = if p = 0 then x else { period := some p } := by
  rw [PeriodTimer.apply, h]

theorem PeriodTimer.apply_running {x : PeriodTimer} (p : Nat) (h : x.period ≠ none) :
    PeriodTimer.apply p x = { x with staged := some p } := by
  obtain ⟨q, hq⟩ := Option.ne_none_iff_exists'.mp h
  rw [PeriodTimer.apply, hq]

/-! ## The tick -/

theorem tickTruck_eq_map (t : Option Truck) :
    tickTruck t = t.map (fun k => { k with stale := Timer.tick k.stale, forget := Timer.tick k.forget }) := by
  cases t <;> rfl

/-- The node time after one tick more (R76). -/
def ticked (s : State) : State := { s with time := s.time + 1 }

theorem tick_running {s : State} (hrun : s.run = true) : tick s =
    if (s.time + 1).toNat % 1000 = 0 then tickSeconds (tickTenths (ticked s))
    else if (s.time + 1).toNat % 100 = 0 then tickTenths (ticked s) else ticked s := by
  rw [tick, if_pos hrun]
  by_cases h1 : (s.time + 1).toNat % 1000 = 0
  · have h2 : (s.time + 1).toNat % 100 = 0 := by omega
    simp only [h1, h2, if_true, tickTenths, ticked]
  · by_cases h2 : (s.time + 1).toNat % 100 = 0
    · simp only [h1, h2, if_true, if_false, tickTenths, ticked]
    · simp only [h1, h2, if_false, ticked]

/-- Settles O34: the tick by its three cases, and the timers by the number of their ticks. -/
theorem ticksBringTimersDue : Obligations.TicksBringTimersDue := by
  refine ⟨?_, ?_, Timer.due_iterate, ?_, ?_, ?_⟩
  · intro s hrun
    have hexec : exec .timeBaseTick s = .next (tick s) := rfl
    rw [hexec, tick, if_neg (by simp [hrun])]
  · intro s hrun
    refine ⟨tick s, rfl, ?_⟩
    rw [tick_running hrun]
    by_cases h1 : (s.time + 1).toNat % 1000 = 0
    · have h2 : (s.time + 1).toNat % 100 = 0 := by omega
      simp only [h1, h2, if_true, tickSeconds, tickTenths, ticked, Fin.getElem_fin, mapTable_get, tickTruck_eq_map,
        tickSegment, tickChamber, implies_true, true_and, and_true]
      intro p
      cases s.call.table[p.val] <;> rfl
    · by_cases h2 : (s.time + 1).toNat % 100 = 0
      · simp only [h1, h2, if_true, if_false, tickTenths, ticked, Fin.getElem_fin, mapTable_get, Option.map_id', List.map_id',
          implies_true, true_and, and_true]
        intro p
        cases s.call.table[p.val] <;> rfl
      · simp only [h1, h2, if_false, ticked, Option.map_id', List.map_id', implies_true, and_self]
  · intro p k hp
    rw [PeriodTimer.start_eq hp, PeriodTimer.tick_iterate hp]
    exact ⟨rfl, rfl, rfl⟩
  · exact fun k => Function.iterate_fixed (PeriodTimer.tick_stopped rfl) k
  · intro p x
    refine ⟨fun h hp => ?_, fun h => ?_, PeriodTimer.apply_running p, PeriodTimer.expire_of_unstaged, fun h k => ?_,
      fun h hp => ?_, PeriodTimer.iterate_keeps_period x, fun h hc hp k => ?_, fun h hp k => ?_⟩
    · rw [PeriodTimer.apply_stopped p h, if_neg hp]
    · rw [PeriodTimer.apply_stopped 0 h, if_pos rfl]
    · rw [PeriodTimer.expire_of_staged h, if_pos rfl]
      exact Function.iterate_fixed (PeriodTimer.tick_stopped rfl) k
    · rw [PeriodTimer.expire_of_staged h, if_neg hp]
    · rw [PeriodTimer.expire_of_staged h, if_neg (by omega), hc, PeriodTimer.tick_iterate hp]
    · rw [PeriodTimer.apply_stopped p h, if_neg (by omega), PeriodTimer.tick_iterate hp]

/-! ## The repeat and the patrol timer -/

theorem expiryEvent_due {due : Bool} {f : State → State} {s : State} (hrun : s.run = true) (hdue : due = true) :
    expiryEvent due f s = event f s := by
  rw [expiryEvent, hrun, hdue]
  rfl

/-- The frames that a repeat expiry requests for the level: the EVACUATE frame, where the cause has a hop remaining (R55). -/
def evacuateRequests (s : State) : List PartFrame :=
  match s.level.level, s.level.cause with
  | .evacuate, some c => match c.hop with
    | some hop => [PartFrame.evacuate c.node c.seq c.reason hop]
    | none => []
  | _, _ => []

theorem requestEvacuate_requests (s : State) (h : s.level.level = .evacuate) :
    (requestEvacuate s).ring.requests = s.ring.requests ++ evacuateRequests s := by
  unfold requestEvacuate evacuateRequests
  rw [h]
  cases hcause : s.level.cause with
  | none => simp
  | some c => cases hhop : c.hop <;> simp [hhop, requestFrame]

theorem evacuateRequests_below {s : State} (h : s.level.level ≠ .evacuate) : evacuateRequests s = [] := by
  unfold evacuateRequests
  split
  · rename_i hlevel _
    exact absurd hlevel h
  · rfl

theorem repeatRelays_requests (s : State) : (repeatRelays s).ring.requests
    = s.ring.requests ++ s.call.distress.map (fun d => PartFrame.distressRelay d.miner d.first d.node) := by
  have relays : ∀ (l : List Distress) (u : State), (l.foldl (fun s d => requestRelay d.miner d.first d.node s) u).ring.requests
      = u.ring.requests ++ l.map (fun d => PartFrame.distressRelay d.miner d.first d.node) := by
    intro l
    induction l with
    | nil => simp
    | cons d l ih =>
      intro u
      rw [List.foldl_cons, ih]
      simp [requestRelay, requestFrame]
  exact relays _ _

/-- The state in which the repeat timer goes on. -/
def repeated (s : State) : State := { s with level := { s.level with repeatTimer := PeriodTimer.expire s.level.repeatTimer } }

theorem repeatExpiry_eq (s : State) :
    repeatExpiry s = repeatRelays (if s.level.level = .evacuate then requestEvacuate (repeated s) else repeated s) := rfl

theorem repeatExpiry_requests (s : State) : (repeatExpiry s).ring.requests = s.ring.requests ++ evacuateRequests s
    ++ s.call.distress.map (fun d => PartFrame.distressRelay d.miner d.first d.node) := by
  rw [repeatExpiry_eq, repeatRelays_requests]
  split
  · rename_i h
    have hcall : (requestEvacuate (repeated s)).call = s.call := (requestEvacuate_within (repeated s)).1.call
    rw [requestEvacuate_requests (repeated s) h, hcall]
    rfl
  · rename_i h
    rw [evacuateRequests_below h, List.append_nil]
    rfl

theorem requestEvacuate_level (s : State) : (requestEvacuate s).level = s.level := by
  unfold requestEvacuate
  split
  · split <;> rfl
  · rfl

theorem repeatExpiry_level (s : State) : (repeatExpiry s).level = (repeated s).level := by
  rw [repeatExpiry_eq]
  have relays (u : State) : (repeatRelays u).level = u.level :=
    foldl_keeps (f := fun t (d : Distress) => requestRelay d.miner d.first d.node t) (fun v => v.level = u.level)
      (fun _ _ h => h) u.call.distress u rfl
  rw [relays]
  split
  · exact requestEvacuate_level _
  · rfl

/-- Settles O38: what the repeat expiry requests, and the patrol expiry. -/
theorem repeatAndPatrolTimersExpire : Obligations.RepeatAndPatrolTimersExpire := by
  refine ⟨?_, ?_, ?_⟩
  · intro s hrun hdue
    have hexec : exec .repeatTimerExpiry s = .next (expiryEvent s.level.repeatTimer.due repeatExpiry s) := rfl
    rw [expiryEvent_due hrun hdue] at hexec
    obtain ⟨hremote, hrepeat, hended, hcause, -⟩ := (event_sameBut_acted repeatExpiry s).level
    have acted : (repeatExpiry (beginEvent s)).level
        = { (beginEvent s).level with repeatTimer := PeriodTimer.expire s.level.repeatTimer } := repeatExpiry_level _
    rw [acted] at hremote hrepeat hended hcause
    exact ⟨_, hexec, hrepeat, hremote, hended, hcause, event_sameBut (repeatExpiry_within _).1⟩
  · intro s
    exact repeatExpiry_requests s
  · intro s hrun hdue
    have hexec : exec .patrolTimerExpiry s = .next (if s.run && s.fault.patrol.due then patrolExpiry s else s) := rfl
    exact ⟨_, hexec, by rw [if_pos (by simp [hrun, hdue]), patrolExpiry]⟩

end Sys2Proof.Machine
end

section
/-! PROOFS. Each thing that the end of an event does is work without a cause or an alert, but for one fault at most, of a stall or of a
dropped frame; what that keeps, an event keeps after its action. -/

set_option Elab.async false

namespace Sys2Proof.Machine

open Sys2Proof.Config

/-- What the end of an event opens but for the faults that it records. -/
abbrev quietOpenings : List Opening := [.road, .grants, .level, .evacuates, .reeval, .words, .outcome, .list]

/-- What the end of an event opens but for the level, the muster summary and the faults that it records. -/
abbrev plainOpenings : List Opening := [.road, .grants, .words, .outcome, .list]

/-- One fault of a stall or of a dropped frame is recorded, or none. -/
def Faulted (s t : State) : Prop := t = s ∨ ∃ k d, (k = .ownWriteStall ∨ k = .frameDropped) ∧ t = recordFault k d s

/-- Work around one fault at most. -/
def EndStep (s t : State) : Prop := ∃ u v, Works plainOpenings s u ∧ Faulted u v ∧ Works plainOpenings v t

section
variable {s0 s u t : State}

theorem Works.endStep {o : List Opening} (h : Works o s t) (ho : ∀ a ∈ o, a ∈ plainOpenings := by decide) : EndStep s t :=
  ⟨t, t, h.wide ho, .inl rfl, .refl _ t⟩

theorem EndStep.after {o : List Opening} (h : Works o s u) (k : EndStep u t) (ho : ∀ a ∈ o, a ∈ plainOpenings := by decide) :
    EndStep s t := by
  obtain ⟨v, w, hv, hw, ht⟩ := k
  exact ⟨v, w, (h.wide ho).trans hv, hw, ht⟩

theorem EndStep.next {o : List Opening} (k : EndStep s u) (h : Works o u t) (ho : ∀ a ∈ o, a ∈ plainOpenings := by decide) :
    EndStep s t := by
  obtain ⟨v, w, hv, hw, hu⟩ := k
  exact ⟨v, w, hv, hw, hu.next h ho⟩

theorem recordFault_endStep {k : FaultKind} (d : FaultId) (s : State) (hk : k = .ownWriteStall ∨ k = .frameDropped) :
    EndStep s (recordFault k d s) :=
  ⟨s, _, .refl _ s, .inr ⟨k, d, hk, rfl⟩, .refl _ _⟩

/-! ## Entering the own-write queue -/

theorem enterNew_endStep (w : OwnWrite) (s : State) : EndStep s (enterNew w s) := by
  unfold enterNew
  split
  · exact Works.endStep (o := []) .of_same
  · exact .after (stallEnter_works w s) (recordFault_endStep _ _ (.inl rfl))

theorem enterQueue_endStep (w : OwnWrite) (s : State) : EndStep s (enterQueue w s) := by
  unfold enterQueue
  split
  · split
    · exact Works.endStep (o := []) .of_same
    · exact Works.endStep (o := []) .of_same
    · exact Works.endStep (o := []) .of_same
  · exact enterNew_endStep w s

theorem enterMirror_endStep (n : Nat) (s : State) : EndStep s (enterMirror n s) :=
  .after (o := []) (u := { s with path := { s.path with shown := (n, mirror s n) :: s.path.shown } }) .of_same (enterQueue_endStep _ _)

theorem enterPost_endStep (s0 : State) (p : Post) (s : State) : EndStep s (enterPost s0 p s) := by
  obtain ⟨w, -, h⟩ | ⟨o, -, h | h⟩ := enterPost_cases s0 p s
  · exact h ▸ enterQueue_endStep w s
  · exact h ▸ enterMirror_endStep o s
  · exact h.symm ▸ Works.endStep (Works.refl [] s)

theorem enterFollowUp_endStep (s : State) : EndStep s (enterFollowUp s) := by
  unfold enterFollowUp
  split
  · exact .after (o := []) (u := { s with path := { s.path with followUp := none } }) .of_same (enterNew_endStep _ _)
  · exact Works.endStep (Works.refl [] s)

theorem settlePath_endStep (h : settlePath s0 s = some t) : EndStep s t := by
  rcases settlePath_cases h with ⟨p, rest, hp, rfl⟩ | ⟨p, rest, -, hp, rfl⟩ | ⟨w, -, -, -, rfl⟩ | ⟨-, -, -, -, rfl⟩
  · exact .after (dropWords_works (o := []) (p := rest) (r := s.path.reports) (w := s.path.outcome) (l := s.path.shown)
      (fun x hx => hp ▸ List.mem_cons_of_mem _ hx) (fun _ hx => hx) (.inl rfl)) (enterPost_endStep _ _ _)
  · exact .after (dropWords_works (o := []) (p := s.path.posts) (r := rest) (w := s.path.outcome) (l := s.path.shown)
      (fun _ hx => hx) (fun x hx => hp ▸ List.mem_cons_of_mem _ hx) (.inl rfl)) (enterPost_endStep _ _ _)
  · exact .after (dropWords_works (o := [.outcome]) (p := s.path.posts) (r := s.path.reports) (w := none) (l := s.path.shown)
      (fun _ hx => hx) (fun _ hx => hx) (.inr (by simp))) (enterQueue_endStep _ _)
  · exact Works.endStep (dropWords_works (o := []) (fun _ hx => hx) (fun _ hx => hx) (.inl rfl))

/-! ## The units' work -/

theorem dropFrame_endStep (f : PartFrame) (waiting : Bool) (s : State) : EndStep s (dropFrame f waiting s) :=
  (recordFault_endStep _ s (.inr rfl)).next (addRecord_works _ _ _ _)

theorem takeRequest_endStep {f : PartFrame} {rest : List PartFrame} (h : s.ring.requests = f :: rest) :
    EndStep s (takeRequest f { s with ring := { s.ring with requests := rest } }) := by
  have shorter := dropRequest_works h
  have listed {l : List PartFrame} (hl : ∀ g ∈ l, g = f ∨ g ∈ s.ring.list) := setList_works_request h hl
  unfold takeRequest
  dsimp only
  split
  · exact (listed fun g hg => mem_replaceOrAbsorb ‹_› hg).endStep
  · split
    · exact (listed fun g hg => mem_insertFrame hg).endStep
    · split
      · split
        · exact .after (listed fun g hg => (mem_insertFrame hg).imp id mem_dropNewest) (dropFrame_endStep _ _ _)
        · exact .after shorter (dropFrame_endStep _ _ _)
      · exact .after shorter (dropFrame_endStep _ _ _)

theorem settleUnits_endStep (h : settleUnits s0 s = some t) : (levelFirst s0 s = true ∧ t = deriveLevel s)
    ∨ (musterStale s = true ∧ t = setMuster (figures s s.level.muster) s) ∨ EndStep s t := by
  obtain ⟨-, ⟨hlevel, rfl⟩ | ⟨-, i, -, rfl⟩ | ⟨-, -, p, -, rfl⟩ | ⟨-, -, -, hstale, rfl⟩ | ⟨-, -, -, -, f, rest, hf, rfl⟩
    | ⟨-, -, -, -, -, -, rfl⟩⟩ := settleUnits_cases h
  · exact .inl ⟨hlevel, rfl⟩
  · exact .inr (.inr (serveSegment_works i s).endStep)
  · exact .inr (.inr (forgetTruck_works p s).endStep)
  · exact .inr (.inl ⟨hstale, rfl⟩)
  · exact .inr (.inr (takeRequest_endStep hf))
  · exact .inr (.inr (buildFrame_works s).endStep)

/-- A thing that the end of an event does derives the level, brings the muster summary up to date, or is plain work around one fault at
most. -/
theorem settleStep_endStep (h : settleStep s0 s = some t) : (levelFirst s0 s = true ∧ t = deriveLevel s)
    ∨ (musterStale s = true ∧ t = setMuster (figures s s.level.muster) s) ∨ EndStep s t := by
  rcases settleStep_cases h with ⟨-, rfl⟩ | ⟨-, hu⟩ | ⟨-, -, hp⟩
  · exact .inr (.inr (enterFollowUp_endStep s))
  · exact settleUnits_endStep hu
  · exact .inr (.inr (settlePath_endStep hp))

theorem sweepPut_works (s : State) : Works [] s (sweepPut s) := by
  unfold sweepPut
  split
  · exact .refl _ s
  · split
    · split
      · exact .of_same
      · exact .of_same
    · exact .refl _ s

end

/-- What the units' quiet work and a fault of the end of an event keep, an event keeps after its action. -/
theorem event_keeps_ends {P : State → Prop} (hquiet : ∀ u v, P u → Works quietOpenings u v → P v)
    (hfault : ∀ k d u, P u → k = .ownWriteStall ∨ k = .frameDropped → P (recordFault k d u)) {f : State → State} {s : State}
    (h : P (f (beginEvent s))) : P (event f s) := by
  refine event_keeps (P := P) (fun s0 u v hu hstep => ?_) (fun u hu => hquiet _ _ hu (sweepPut_works u).wide)
    (fun u hu => hquiet _ _ hu .of_same) h
  rcases settleStep_endStep hstep with ⟨-, rfl⟩ | ⟨-, rfl⟩ | ⟨a, b, ha, hab, hb⟩
  · exact hquiet _ _ hu (deriveLevel_works u).wide
  · exact hquiet _ _ hu (setMuster_works _ u).wide
  · refine hquiet _ _ ?_ hb.wide
    rcases hab with rfl | ⟨k, d, hk, rfl⟩
    · exact hquiet _ _ hu ha.wide
    · exact hfault k d a (hquiet _ _ hu ha.wide) hk

end Sys2Proof.Machine
end

section
/-! PROOFS. The acknowledgement of a channel and the release of the first-fault log (R28 to R30, R174). -/

set_option Elab.async false

namespace Sys2Proof.Machine

open Sys2Proof.Config

/-! ## The log and the latch at the end of an event -/

section
variable {f : State → State} {s : State}

theorem LogKept.refl (s : State) : LogKept s s := .of_same rfl rfl

theorem event_logKept (f : State → State) (s : State) : LogKept (f (beginEvent s)) (event f s) :=
  event_keeps_ends (P := LogKept (f (beginEvent s))) (fun _ _ hu hw => hu.trans (hw.log (by decide)))
    (fun _ d _ hu hk => hu.trans ((recordFault_works_end (hk.imp id .inr) d _).log (by decide))) (.refl _)

theorem mem_joinAlert {m k : AlertMember} {s : State} : k ∈ (joinAlert m s).level.alerts ↔ k = m ∨ k ∈ s.level.alerts := by
  unfold joinAlert
  split
  · rename_i hm
    refine ⟨.inr, fun h => h.elim (fun hk => hk ▸ hm) id⟩
  · rw [reportChanged_level]
    simp [or_comm]

theorem mem_leaveAlert {m k : AlertMember} {s : State} : k ∈ (leaveAlert m s).level.alerts ↔ k ≠ m ∧ k ∈ s.level.alerts := by
  unfold leaveAlert
  split
  · rw [reportChanged_level]
    simp [and_comm]
  · rename_i hm
    exact ⟨fun h => ⟨fun hk => hm (hk ▸ h), h⟩, fun h => h.2⟩

/-- A standing latch stands after the end of an event. -/
theorem recordFault_latch {k : FaultKind} {d : FaultId} {s : State} (h : AlertMember.latch ∈ s.level.alerts) :
    AlertMember.latch ∈ (recordFault k d s).level.alerts := by
  have causes (u : State) (hu : AlertMember.latch ∈ u.level.alerts) :
      AlertMember.latch ∈ (localCause .fault 4 (FaultKind.code k) u).level.alerts :=
    ((localCause_works .fault 4 (FaultKind.code k) u).latch (by decide)).mpr hu
  unfold recordFault
  split
  · exact h
  · dsimp only
    rw [postFault, postChanged_level]
    split
    · exact mem_joinAlert.mpr (.inl rfl)
    · exact causes _ h
    · exact h
    · exact h

theorem event_latch_stands (h : AlertMember.latch ∈ (f (beginEvent s)).level.alerts) :
    AlertMember.latch ∈ (event f s).level.alerts :=
  event_keeps_ends (P := fun u => AlertMember.latch ∈ u.level.alerts) (fun _ _ hu hw => (hw.latch (by decide)).mpr hu)
    (fun _ _ _ hu _ => recordFault_latch hu) h

/-- With the two faults of the end of an event not set to ALERT, the end latches none. -/
theorem event_latch_absent (hstall : escalation (f (beginEvent s)) .ownWriteStall ≠ .alert)
    (hdrop : escalation (f (beginEvent s)) .frameDropped ≠ .alert) (h : AlertMember.latch ∉ (f (beginEvent s)).level.alerts) :
    AlertMember.latch ∉ (event f s).level.alerts := by
  refine (event_keeps_ends (P := fun u => u.effective = (f (beginEvent s)).effective ∧ AlertMember.latch ∉ u.level.alerts)
    (fun _ _ hu hw => ⟨hw.effective.trans hu.1, fun hm => hu.2 ((hw.latch (by decide)).mp hm)⟩) (fun k d u hu hk => ?_) ⟨rfl, h⟩).2
  have hesc : escalation u k ≠ .alert := by
    unfold escalation at hstall hdrop ⊢
    rw [hu.1]
    rcases hk with rfl | rfl
    · exact hstall
    · exact hdrop
  have hw := recordFault_works_cause (hk.imp id .inr) d u hesc
  exact ⟨hw.effective.trans hu.1, fun hm => hu.2 ((hw.latch (by decide)).mp hm)⟩

end

theorem modifyAt_at {α : Type} {n : Nat} (v : Vector α n) (i : Fin n) (f : α → α) : (modifyAt v i f)[i] = f v[i] :=
  modifyAt_self v i f

theorem SameBut.readData {l : List Area} {s t : State} (h : SameBut l s t) (hl : .readData ∉ l := by decide) :
    t.readData = s.readData := h.2.1 hl

/-! ## Reads of CONTROL words -/

section
variable {s : State} {o : Nat}

/-- The state in which a read has returned its word. -/
def answered (w : Word) (s : State) : State := { s with readData := w }

/-- A CONTROLLER full-word read of a word of the setting area, in RUN. -/
theorem serveRead_setting (hrun : s.run = true) (ho : o < 4096) (h4 : o % 4 = 0) :
    serveRead (fullAccess .controller (settingAddr s o) 0) s
      = armRead .setting o (memWord s.mem (settingBase s.strap + o)) (answered (memWord s.mem (settingBase s.strap + o)) s) := by
  have hword : wordBase (settingAddr s o).toNat = settingBase s.strap + o := wordBase_settingAddr ho h4
  rw [serveRead_controller hrun (fullWordAccess_settingAddr ho h4) (by rw [hword]; exact regionAt_setting ho), hword]
  rfl

/-- The read that consumes what the armed record names empties the record and is the event of its target. -/
theorem armRead_named {f : State → State} {a : Arming} (w : Word) (harm : s.path.arming = some a)
    (hcontrol : inControl o = true) (h : ∀ u, consumeArming .setting o a u = event f u) :
    armRead .setting o w (answered w s) = setArming none (event f (setArming none (answered w s))) := by
  have harm' : (answered w s).path.arming = some a := harm
  rw [armRead, if_pos (by simp [consumes, hcontrol]), harm']
  exact congrArg (setArming none) (h _)

end

/-- What `SameBut` says of an event between the read and the emptied record. -/
theorem setArming_sameBut (a : Option Arming) (s : State) : SameBut [.path] s (setArming a s) := by
  simp [SameBut, SameBase, SameLevel, SameRoad, SameFault, SamePath, setArming]

theorem answered_sameBut (w : Word) (s : State) : SameBut [.readData] s (answered w s) := by
  simp [SameBut, SameBase, SameLevel, SameRoad, SameFault, SamePath, answered]

/-- The event of a consuming read, from the read to the emptied record. -/
theorem consumed_sameBut {l : List Area} {f : State → State} {w : Word} {s : State} (hread : .readData ∈ l) (hpath : .path ∈ l)
    (h : ∀ u, SameBut l u (f u)) : SameBut l s (setArming none (event f (setArming none (answered w s)))) := by
  refine ((answered_sameBut w s).mono (by simpa using hread)).trans ?_
  refine ((setArming_sameBut none _).mono (by simpa using hpath)).trans ?_
  exact (event_sameBut (h _)).trans ((setArming_sameBut none _).mono (by simpa using hpath))

/-! ## The acknowledgement -/

section
variable {c : Fin 24} {shown : Nat} {s : State}

theorem acknowledge_refused (h : shown ≠ Grade.code (held s.channels[c])) : acknowledge c shown s = s := by
  rw [acknowledge]
  exact if_neg h

theorem acknowledge_air (h : shown = Grade.code (held s.channels[c])) :
    (acknowledge c shown s).channels = modifyAt s.channels c (fun k => { k with latched := k.live })
      ∧ (acknowledge c shown s).rate = s.rate := by
  have changed : (changeChannel c (fun k => { k with latched := k.live }) s).channels
      = modifyAt s.channels c (fun k => { k with latched := k.live })
      ∧ (changeChannel c (fun k => { k with latched := k.live }) s).rate = s.rate := ⟨rfl, rfl⟩
  rw [acknowledge]
  dsimp only
  rw [if_pos h, (airReaders_within _ _ _).1.channels, (postChanged_within _ _).1.channels, (addRecord_within _ _ _ _).1.channels,
    (airReaders_within _ _ _).1.rate, (postChanged_within _ _).1.rate, (addRecord_within _ _ _ _).1.rate]
  split
  · exact changed
  · exact ⟨((addRecord_within _ _ _ _).1.channels).trans changed.1, ((addRecord_within _ _ _ _).1.rate).trans changed.2⟩

theorem acknowledge_rate : (acknowledge c shown s).rate = s.rate := by
  by_cases h : shown = Grade.code (held s.channels[c])
  · exact (acknowledge_air h).2
  · rw [acknowledge_refused h]

end

/-- Settles O24: the acknowledgement by its two cases, and the areas of its event. -/
theorem acknowledgementJudged : Obligations.AcknowledgementJudged := by
  intro c shown s hrun harm
  have hc := c.isLt
  have hexec : exec (.ackWordRead c) s
      = .next (serveRead (fullAccess .controller (settingAddr s (0xF08 + 4 * c.val)) 0) s) := rfl
  have hnamed (u : State) : consumeArming .setting (0xF08 + 4 * c.val) { target := .channel c, shown := shown } u
      = event (acknowledge c shown) u := if_pos rfl
  rw [serveRead_setting hrun (by omega) (by omega), armRead_named _ harm (by simp [inControl]; omega) hnamed] at hexec
  generalize hw : memWord s.mem (settingBase s.strap + (0xF08 + 4 * c.val)) = w at hexec
  have acted := event_sameBut_acted (acknowledge c shown) (setArming none (answered w s))
  have within := (acknowledge_within c shown (beginEvent (setArming none (answered w s)))).1
  obtain ⟨-, hscan, hpatrol, -⟩ := (within.next acted).path
  refine ⟨_, hexec, rfl, ?_, fun hgrade => ?_, fun hgrade => ⟨?_, ?_⟩, ?_, hscan, hpatrol, ?_⟩
  · rw [Nat.add_assoc, hw]
    exact acted.readData.trans within.readData
  · have hset : (setArming none (event (acknowledge c shown) (setArming none (answered w s)))).channels
        = modifyAt s.channels c (fun k => { k with latched := k.live }) :=
      acted.channels.trans (acknowledge_air (s := beginEvent (setArming none (answered w s))) hgrade).1
    rw [hset]
    refine ⟨?_, ?_, fun k hk => modifyAt_other _ _ hk⟩
    · rw [modifyAt_at]
    · rw [modifyAt_at, held, Grade.sup, if_neg (Nat.lt_irrefl _)]
  · rw [acknowledge_refused (s := beginEvent (setArming none (answered w s))) hgrade] at acted
    exact acted.channels
  · refine ((answered_sameBut w s).mono (by simp)).trans (((setArming_sameBut none _).mono (by simp)).trans ?_)
    refine SameBut.trans ?_ ((setArming_sameBut none _).mono (by simp))
    refine event_sameBut ?_
    rw [acknowledge_refused (s := beginEvent (setArming none (answered w s))) hgrade]
    exact SameBut.refl _ _
  · exact acted.rate.trans acknowledge_rate
  · exact consumed_sameBut (by simp) (by simp) (fun u => (acknowledge_within c shown u).1.wide)

/-! ## The release -/

section
variable {shown : Nat} {s : State}

/-- The state in which the log has been emptied. -/
def emptied (s : State) : State := { s with fault := { s.fault with log := none } }

theorem release_refused (h : shown ≠ currentKind s) : release shown s = s := if_neg h

theorem release_accepted (h : shown = currentKind s) : ∃ info, release shown s
    = postAlways [0x660, 0x664, 0x668, 0x66C] (addRecord recFaultReleased 0 info (leaveAlert .latch (emptied s))) :=
  ⟨_, if_pos h⟩

theorem release_works_emptied (h : shown = currentKind s) : Works [.latch] (emptied s) (release shown s) := by
  obtain ⟨info, hr⟩ := release_accepted h
  rw [hr]
  exact ((leaveAlert_works_latch _).next (addRecord_works _ _ _ _)).next (postAlways_works _ (by decide))

theorem release_latch (h : shown = currentKind s) : AlertMember.latch ∉ (release shown s).level.alerts := by
  obtain ⟨info, hr⟩ := release_accepted h
  have hleft : AlertMember.latch ∉ (leaveAlert .latch (emptied s)).level.alerts := fun hm => (mem_leaveAlert.mp hm).1 rfl
  have hw : Works [] (leaveAlert .latch (emptied s)) (release shown s) := by
    rw [hr]
    exact (addRecord_works _ _ _ _).trans (postAlways_works _ (by decide))
  exact fun hm => hleft ((hw.latch (by decide)).mp hm)

/-- The release changes the log and the latch, of which `SameBut` does not speak. -/
theorem release_quiet (shown : Nat) (s : State) : SameBut [] s (release shown s) := by
  by_cases h : shown = currentKind s
  · obtain ⟨info, hr⟩ := release_accepted h
    have hemptied : SameBut [] s (emptied s) := by
      simp [SameBut, SameBase, SameLevel, SameRoad, SameFault, SamePath, emptied]
    rw [hr]
    exact ((hemptied.trans (leaveAlert_quiet _ _ rfl).1).trans (addRecord_within _ _ _ _).1).trans (postAlways_within _ _).1
  · rw [release_refused h]
    exact SameBut.refl _ _

end

/-- Settles O25: the release by its two cases, and the log and the latch at the end of its event. -/
theorem releaseJudged : Obligations.ReleaseJudged := by
  intro shown s hrun harm
  have hexec : exec .releaseWordRead s = .next (serveRead (fullAccess .controller (settingAddr s 0xF68) 0) s) := rfl
  have hnamed (u : State) : consumeArming .setting 0xF68 { target := .log, shown := shown } u = event (release shown) u := rfl
  rw [serveRead_setting hrun (by decide) (by decide), armRead_named _ harm (by decide) hnamed] at hexec
  generalize hw : memWord s.mem (settingBase s.strap + 0xF68) = w at hexec
  have acted := (release_quiet shown (beginEvent (setArming none (answered w s)))).trans
    (event_sameBut_acted (release shown) (setArming none (answered w s)))
  obtain ⟨-, hscan, hpatrol, -⟩ := acted.path
  obtain ⟨htime, hheld, hempty⟩ := event_logKept (release shown) (setArming none (answered w s))
  refine ⟨_, hexec, rfl, acted.readData, fun hkind => ?_, fun hkind hstall hdrop => ?_, fun hkind hlatch => ?_,
    fun hkind e he => ?_, hscan, hpatrol, ?_⟩
  · have hworks := (release_works_emptied (s := beginEvent (setArming none (answered w s))) hkind).log (by decide)
    exact (hworks.trans (event_logKept (release shown) (setArming none (answered w s)))).2.2 rfl
  · refine event_latch_absent ?_ ?_ (release_latch hkind)
    · rw [escalation, (release_quiet shown _).effective]
      exact hstall
    · rw [escalation, (release_quiet shown _).effective]
      exact hdrop
  · refine event_latch_stands ?_
    rw [release_refused (s := beginEvent (setArming none (answered w s))) hkind]
    exact hlatch
  · refine hheld e ?_
    rw [release_refused (s := beginEvent (setArming none (answered w s))) hkind]
    exact he
  · exact consumed_sameBut (by simp) (by simp) (fun u => (release_quiet shown u).mono (by simp))

end Sys2Proof.Machine
end

section
/-! PROOFS. The muster summary at the end of an event (R61): the work of the units comes to rest within a number of things that does not
depend on the state, and at rest the summary gives the roll call. -/

set_option Elab.async false

namespace Sys2Proof.Machine

open Sys2Proof.Config

/-! ## Counting entries -/

theorem countWhere_lt {α : Type} {n : Nat} {v w : Vector α n} {p : α → Bool} (i : Fin n) (hv : p v[i] = true) (hw : p w[i] = false)
    (ho : ∀ j : Fin n, j ≠ i → w[j] = v[j]) : countWhere w p + 1 = countWhere v p := by
  have hset : w = v.set i w[i] := by
    apply Vector.ext
    intro j hj
    by_cases h : i.val = j
    · subst h
      rw [Vector.getElem_set_self]
      rfl
    · rw [Vector.getElem_set_ne _ _ h]
      exact ho ⟨j, hj⟩ fun e => h (congrArg Fin.val e).symm
  have hpos : 0 < v.toList.countP p := List.countP_pos_iff.mpr ⟨v[i], by simp, hv⟩
  have hcount : w.toList.countP p = v.toList.countP p - 1 := by
    have hget : v.toList[i.val]'(by simp) = v[i] := by simp
    rw [hset, Vector.toList_set, List.countP_set (by simp), hget, hv, hw]
    rfl
  unfold countWhere
  omega

theorem countWhere_le {α : Type} {n : Nat} (v : Vector α n) (p : α → Bool) : countWhere v p ≤ n :=
  (List.countP_le_length (p := p)).trans_eq (by simp)

/-! ## One segment changed -/

/-- Segment `i` alone of the road has changed. -/
def At (i : Fin 16) (s t : State) : Prop :=
  (∀ j : Fin 16, j ≠ i → t.road.segments[j] = s.road.segments[j]) ∧ t.road.trucks = s.road.trucks

section
variable {s u t : State} {i : Fin 16}

theorem At.of_road (h : t.road = s.road) : At i s t := ⟨fun _ _ => by rw [h], by rw [h]⟩

theorem At.trans (h : At i s u) (k : At i u t) : At i s t := ⟨fun j hj => (k.1 j hj).trans (h.1 j hj), k.2.trans h.2⟩

theorem changeSegment_at (i : Fin 16) (f : Segment → Segment) (s : State) : At i s (changeSegment i f s) :=
  ⟨(changeSegment_only i f s).others, rfl⟩

theorem revokeWaiter_at (i : Fin 16) (reason : RevokeReason) (truck : Id) (s : State) : At i s (revokeWaiter i reason truck s) := by
  have dropped : At i s (dropWaiter i truck s) := changeSegment_at i _ s
  have told : At i (dropWaiter i truck s) (announceRevoke i truck reason 2 (dropWaiter i truck s)) :=
    .of_road ((announceRevoke_works _ _ _ _ _).roads (by decide))
  exact (dropped.trans told).trans (changeSegment_at i _ _)

theorem grantHead_at (i : Fin 16) (w : Waiter) (rest : List Waiter) (s : State) : At i s (grantHead i w rest s) := by
  refine (changeSegment_at i (fun g => { g with
    queue := rest, direction := headingDirection w.dir,
    holders := g.holders ++ [{ truck := w.truck, dir := w.dir, grant := Timer.start s.effective.segments[i].grantTime }] }) s).trans
    (.of_road ?_)
  exact ((addRecord_works _ _ _ _).trans (requestFrame_works (o := []) _ (by trivial))).roads (by decide)

theorem serveHead_at (h : serveHead i s = some t) : At i s t := by
  unfold serveHead at h
  dsimp only at h
  split at h
  · cases h
  · split at h
    · cases h
      exact revokeWaiter_at _ _ _ _
    · split at h
      · cases h
        exact grantHead_at _ _ _ _
      · cases h

theorem serveHeads_at (n : Nat) (i : Fin 16) (s : State) : At i s (serveHeads n i s) := by
  induction n generalizing s with
  | zero => exact .of_road rfl
  | succ n ih =>
    unfold serveHeads
    split
    · rename_i u hu
      exact (serveHead_at hu).trans (ih u)
    · exact .of_road rfl

theorem serveSegment_at (i : Fin 16) (s : State) : At i s (serveSegment i s) := (serveHeads_at _ i s).trans (changeSegment_at i _ _)

theorem serveSegment_unmarked (i : Fin 16) (s : State) : (serveSegment i s).road.segments[i].marked = false := by
  rw [serveSegment, changeSegment_get]

end

/-! ## The roll call -/

/-- Nothing that the roll call or the queues and trucks to be served are read from has changed. -/
structure SameRoll (s t : State) : Prop where
  road : t.road = s.road
  level : t.level.level = s.level.level
  muster : t.level.muster = s.level.muster
  call : t.call = s.call
  chambers : t.chambers = s.chambers

section
variable {s t : State}

theorem SameRoll.of_works {o : List Opening} (hw : Works o s t) (hs : SameBut [] s t) (hr : .road ∉ o := by decide)
    (hl : .level ∉ o := by decide) : SameRoll s t :=
  ⟨hw.roads hr, (hw.level hl).1, (hw.level hl).2, hs.call, hs.chambers⟩

theorem SameRoll.firstMarked (h : SameRoll s t) : Machine.firstMarked t = Machine.firstMarked s := by
  rw [Machine.firstMarked, Machine.firstMarked, h.road]

theorem SameRoll.firstForgettable (h : SameRoll s t) : Machine.firstForgettable t = Machine.firstForgettable s := by
  unfold Machine.firstForgettable placeless
  rw [h.road]

theorem figures_congr {m : Muster} (hc : t.chambers = s.chambers) (hd : t.call.distress = s.call.distress)
    (hl : lostCount t = lostCount s) : figures t m = figures s m := by
  rw [figures, figures, hc, hd, hl]

theorem SameRoll.figures (h : SameRoll s t) (m : Muster) : Machine.figures t m = Machine.figures s m :=
  figures_congr h.chambers (by rw [h.call]) (by rw [lostCount, lostCount, h.road])

theorem SameRoll.musterStale (h : SameRoll s t) : Machine.musterStale t = Machine.musterStale s := by
  rw [Machine.musterStale, Machine.musterStale, h.level, h.muster, h.figures]

end

/-! ## Coming to rest -/

/-- No queue is marked, no truck is to be forgotten, and the muster summary is up to date. -/
def UnitsRest (s : State) : Prop := firstMarked s = none ∧ firstForgettable s = none ∧ musterStale s = false

/-- How much the units still have to do at most. -/
def workLeft (s : State) : Nat :=
  s.path.followUp.isSome.toNat + countWhere s.road.segments (·.marked) + 2 * countWhere s.road.trucks (·.isSome) + (musterStale s).toNat

theorem workLeft_le (s : State) : workLeft s ≤ 82 := by
  have hm := countWhere_le s.road.segments (·.marked)
  have ht := countWhere_le s.road.trucks (·.isSome)
  have hf := Bool.toNat_le s.path.followUp.isSome
  have hs := Bool.toNat_le (musterStale s)
  unfold workLeft
  omega

/-- Within an evacuation whose cause is `c`; the muster summary has this flag and this entry time. -/
structure Evacuating (c : Cause) (current : Bool) (entry : Time) (s : State) : Prop where
  run : s.run = true
  level : s.level.level = .evacuate
  cause : s.level.cause = some c
  current : s.level.muster.current = current
  entry : s.level.muster.entry = entry

section
variable {c : Cause} {current : Bool} {entry : Time} {s0 s t : State}

theorem Evacuating.not_due (h : Evacuating c current entry s) : levelDue s = false := by
  simp [levelDue, levelOf, h.cause, h.level]

theorem Evacuating.of_roll (h : Evacuating c current entry s) (hr : SameRoll s t) (hs : SameBut [] s t) :
    Evacuating c current entry t where
  run := hs.run.trans h.run
  level := hr.level.trans h.level
  cause := (hs.level.2.2.2.1 (by simp [h.cause])).trans h.cause
  current := by rw [hr.muster, h.current]
  entry := by rw [hr.muster, h.entry]

/-! ### A thing that the end of an event does -/

theorem drainNotice_followUp (n : Fin 16) (s : State) : (drainNotice n s).path.followUp = s.path.followUp := by
  unfold drainNotice
  dsimp only
  split <;> rfl

theorem drainOldest_followUp (s : State) : (drainOldest s).path.followUp = s.path.followUp := by
  unfold drainOldest
  split
  · rfl
  · dsimp only
    split
    · rw [drainNotice_followUp]
    · rfl

theorem enterNew_followUp (w : OwnWrite) (s : State) : (enterNew w s).path.followUp = s.path.followUp := by
  unfold enterNew
  split
  · rfl
  · obtain ⟨-, -, -, hfollow, -⟩ := recordFault_quiet .ownWriteStall (.own unitPath 0 0) (stallEnter w s) (by simp)
    rw [hfollow]
    exact drainOldest_followUp s

theorem enterFollowUp_followUp (s : State) : (enterFollowUp s).path.followUp = none := by
  unfold enterFollowUp
  split
  · rw [enterNew_followUp]
  · assumption

theorem enterFollowUp_roll (s : State) : SameRoll s (enterFollowUp s) :=
  .of_works (o := pathOpenings) (enterFollowUp_works fun u _ => stall_works u) (enterFollowUp_sameBut s)

/-- The work left falls with a follow-up value that enters. -/
theorem workLeft_followUp (h : followUpFree s = true) : workLeft (enterFollowUp s) < workLeft s := by
  have hroll := enterFollowUp_roll s
  have hsome : s.path.followUp.isSome = true := by
    simp only [followUpFree, Bool.and_eq_true] at h
    exact h.1
  unfold workLeft
  rw [hroll.road, hroll.musterStale, enterFollowUp_followUp, hsome]
  simp

theorem workLeft_serve {i : Fin 16} (h : firstMarked s = some i) : workLeft (serveSegment i s) < workLeft s := by
  obtain ⟨hothers, htrucks⟩ := serveSegment_at i s
  obtain ⟨hsame, -, -, hfollow, -⟩ := serveSegment_within i s
  have hw := serveSegment_works i s
  have hmarks := countWhere_lt (p := (·.marked)) i (findIndex_some h).1 (serveSegment_unmarked i s) hothers
  have hstale : musterStale (serveSegment i s) = musterStale s := by
    rw [musterStale, musterStale, (hw.level (by decide)).1, (hw.level (by decide)).2,
      figures_congr hsame.chambers (by rw [hsame.call]) (by rw [lostCount, lostCount, htrucks])]
  unfold workLeft
  rw [hfollow, htrucks, hstale]
  omega

theorem forgetTruck_trucks {p : Fin 32} {k : Truck} (h : s.road.trucks[p] = some k) :
    (forgetTruck p s).road.trucks = s.road.trucks.set p none
      ∧ (forgetTruck p s).road.segments = s.road.segments ∧ (forgetTruck p s).path.followUp = s.path.followUp := by
  have hroad (a b : Nat) (w : Word) : (addRecord a b w s).road = s.road := (addRecord_works a b w s).roads (by decide)
  have hfollow (a b : Nat) (w : Word) : (addRecord a b w s).path.followUp = s.path.followUp := by
    obtain ⟨-, -, -, hf, -⟩ := addRecord_within a b w s
    exact hf
  rw [forgetTruck, h]
  refine ⟨?_, ?_, ?_⟩
  · show (addRecord _ _ _ s).road.trucks.set p none = _
    rw [hroad]
  · show (addRecord _ _ _ s).road.segments = _
    rw [hroad]
  · exact hfollow _ _ _

theorem firstForgettable_isSome {p : Fin 32} (h : firstForgettable s = some p) : ∃ k, s.road.trucks[p] = some k := by
  obtain ⟨hp, -⟩ := findIndex_some h
  cases hk : s.road.trucks[p] with
  | none => rw [hk] at hp; cases hp
  | some k => exact ⟨k, rfl⟩

theorem workLeft_forget {p : Fin 32} (h : firstForgettable s = some p) : workLeft (forgetTruck p s) < workLeft s := by
  obtain ⟨k, hk⟩ := firstForgettable_isSome h
  obtain ⟨htrucks, hsegments, hfollow⟩ := forgetTruck_trucks hk
  have hset : (s.road.trucks.set p none)[p] = none := by rw [set_get, if_pos rfl]
  have hcount := countWhere_lt (v := s.road.trucks) (w := s.road.trucks.set p none) (p := (·.isSome)) p (by rw [hk]; rfl)
    (by rw [hset]; rfl) (fun j hj => by rw [set_get, if_neg hj])
  have hstale := Bool.toNat_le (musterStale (forgetTruck p s))
  unfold workLeft
  rw [htrucks, hsegments, hfollow]
  omega

/-- The muster summary brought up to date is not stale, and keeps its flag and its entry time. -/
theorem setMuster_figures_fresh (s : State) : musterStale (setMuster (figures s s.level.muster) s) = false := by
  have hfigures : figures (setMuster (figures s s.level.muster) s) (figures s s.level.muster) = figures s s.level.muster := rfl
  have hmuster : (setMuster (figures s s.level.muster) s).level.muster = figures s s.level.muster := rfl
  rw [musterStale, hmuster, hfigures]
  simp

theorem workLeft_muster (h : musterStale s = true) : workLeft (setMuster (figures s s.level.muster) s) < workLeft s := by
  have hroad : (setMuster (figures s s.level.muster) s).road = s.road := rfl
  have hfollow : (setMuster (figures s s.level.muster) s).path.followUp = s.path.followUp := rfl
  unfold workLeft
  rw [setMuster_figures_fresh, h, hroad, hfollow]
  simp

/-- Within an evacuation a thing that the end of an event does leaves the units at rest, or leaves less for them to do. -/
theorem Evacuating.step (h : Evacuating c current entry s) (hstep : settleStep s0 s = some t) : Evacuating c current entry t
    ∧ ((SameRoll s t ∧ (UnitsRest s ∨ workLeft t < workLeft s)) ∨ (¬UnitsRest s ∧ workLeft t < workLeft s)) := by
  have hs := settleStep_sameBut hstep
  rcases settleStep_cases hstep with ⟨hfree, rfl⟩ | ⟨-, hu⟩ | ⟨-, hnone, hp⟩
  · exact ⟨h.of_roll (enterFollowUp_roll s) hs, .inl ⟨enterFollowUp_roll s, .inr (workLeft_followUp hfree)⟩⟩
  · obtain ⟨-, ⟨hlevel, -⟩ | ⟨-, i, hi, rfl⟩ | ⟨-, -, p, hp, rfl⟩ | ⟨-, -, -, hstale, rfl⟩ | ⟨-, hmarked, hforget, hstale, f, rest, hf, rfl⟩
      | ⟨-, hmarked, hforget, hstale, -, -, rfl⟩⟩ := settleUnits_cases hu
    · rw [levelFirst, h.not_due] at hlevel
      cases hlevel
    · have hw := serveSegment_works i s
      refine ⟨⟨hw.run.trans h.run, (hw.level (by decide)).1.trans h.level, (hw.cause (by decide)).1.trans h.cause, ?_, ?_⟩,
        .inr ⟨fun hr => ?_, workLeft_serve hi⟩⟩
      · rw [(hw.level (by decide)).2, h.current]
      · rw [(hw.level (by decide)).2, h.entry]
      · rw [hr.1] at hi
        cases hi
    · have hw := forgetTruck_works p s
      refine ⟨⟨hw.run.trans h.run, (hw.level (by decide)).1.trans h.level, (hw.cause (by decide)).1.trans h.cause, ?_, ?_⟩,
        .inr ⟨fun hr => ?_, workLeft_forget hp⟩⟩
      · rw [(hw.level (by decide)).2, h.current]
      · rw [(hw.level (by decide)).2, h.entry]
      · rw [hr.2.1] at hp
        cases hp
    · refine ⟨⟨h.run, h.level, h.cause, h.current, h.entry⟩, .inr ⟨fun hr => ?_, workLeft_muster hstale⟩⟩
      rw [hr.2.2] at hstale
      cases hstale
    · have hroll := SameRoll.of_works (takeRequest_works hf) hs
      exact ⟨h.of_roll hroll hs, .inl ⟨hroll, .inl ⟨hmarked, hforget, hstale⟩⟩⟩
    · have hroll := SameRoll.of_works (buildFrame_works s) hs
      exact ⟨h.of_roll hroll hs, .inl ⟨hroll, .inl ⟨hmarked, hforget, hstale⟩⟩⟩
  · have hroll := SameRoll.of_works (settlePath_works (o := pathOpenings) (by simp) hp fun u _ => stall_works u) hs
    obtain ⟨-, hmarked, hforget, hstale, -, -⟩ := settleUnits_none h.run hnone
    exact ⟨h.of_roll hroll hs, .inl ⟨hroll, .inl ⟨hmarked, hforget, hstale⟩⟩⟩

theorem UnitsRest.of_roll (h : UnitsRest s) (hr : SameRoll s t) : UnitsRest t :=
  ⟨hr.firstMarked.trans h.1, hr.firstForgettable.trans h.2.1, hr.musterStale.trans h.2.2⟩

/-- Within an evacuation the end of an event leaves the units at rest. -/
theorem Evacuating.settle (n : Nat) (h : Evacuating c current entry s) (hn : workLeft s < n) :
    Evacuating c current entry (Machine.settle n s0 s) ∧ UnitsRest (Machine.settle n s0 s) := by
  have rests : ∀ (n : Nat) (s : State), Evacuating c current entry s → UnitsRest s ∨ workLeft s < n →
      Evacuating c current entry (Machine.settle n s0 s) ∧ UnitsRest (Machine.settle n s0 s) := by
    intro n
    induction n with
    | zero => exact fun s h hr => ⟨h, hr.resolve_right (Nat.not_lt_zero _)⟩
    | succ n ih =>
      intro s h hr
      unfold Machine.settle
      split
      · rename_i t ht
        obtain ⟨ht', ⟨hroll, hmore⟩ | ⟨hnot, hless⟩⟩ := h.step ht
        · refine ih t ht' ?_
          rcases hr with hr | hr
          · exact .inl (hr.of_roll hroll)
          · rcases hmore with hmore | hmore
            · exact .inl (hmore.of_roll hroll)
            · exact .inr (by omega)
        · exact ih t ht' (.inr (by have := hr.resolve_left hnot; omega))
      · rename_i hnone
        have hunits : settleUnits s0 s = none := by
          unfold settleStep at hnone
          split at hnone
          · cases hnone
          · split at hnone
            · cases hnone
            · assumption
        obtain ⟨-, hmarked, hforget, hstale, -, -⟩ := settleUnits_none h.run hunits
        exact ⟨h, hmarked, hforget, hstale⟩
  exact rests n s h (.inr hn)

end

end Sys2Proof.Machine
end

section
/-! PROOFS. The level derived at the end of an event, and the muster summary that it takes (R47, R54, R61). -/

set_option Elab.async false

namespace Sys2Proof.Machine

open Sys2Proof.Config

/-! ## The roll call of a summary that is up to date -/

section
variable {s t : State}

theorem figures_shows (s : State) (m : Muster) : MusterShows s (figures s m) :=
  ⟨fun c => mapTable_get chamberCount s.chambers c, rfl, rfl⟩

theorem MusterShows.of_fresh (hlevel : s.level.level = .evacuate) (h : musterStale s = false) : MusterShows s s.level.muster := by
  have hfigures : figures s s.level.muster = s.level.muster := by simpa [musterStale, hlevel] using h
  rw [← hfigures]
  exact figures_shows s _

theorem MusterShows.congr {m : Muster} (h : MusterShows s m) (hc : t.chambers = s.chambers) (hd : t.call = s.call)
    (hl : lostCount t = lostCount s) : MusterShows t m := by
  unfold MusterShows
  rw [hc, hd, hl]
  exact h

end

/-! ## After the end of an event -/

section
variable {c : Cause} {current : Bool} {entry : Time} {f : State → State} {s : State}

/-- Within an evacuation the muster summary gives the roll call after the settled end of an event. -/
theorem Evacuating.ended {t : State} (h : Evacuating c current entry t) (hrest : UnitsRest t) (b : Bool) :
    Evacuating c current entry (driveLines (levelEvents 2 (if b then sweepPut t else t)))
      ∧ MusterShows (driveLines (levelEvents 2 (if b then sweepPut t else t)))
          (driveLines (levelEvents 2 (if b then sweepPut t else t))).level.muster := by
  have swept : Evacuating c current entry (if b then sweepPut t else t) ∧ UnitsRest (if b then sweepPut t else t) := by
    split
    · have hroll := SameRoll.of_works (sweepPut_works t) (sweepPut_sameBut t)
      exact ⟨h.of_roll hroll (sweepPut_sameBut t), hrest.of_roll hroll⟩
    · exact ⟨h, hrest⟩
  obtain ⟨he, hr⟩ := swept
  rw [levelEvents_of_not_due 2 he.not_due]
  have hroll : SameRoll (if b then sweepPut t else t) (driveLines (if b then sweepPut t else t)) := ⟨rfl, rfl, rfl, rfl, rfl⟩
  have hd := he.of_roll hroll (driveLines_sameBut _)
  exact ⟨hd, .of_fresh hd.level (hr.of_roll hroll).2.2⟩

theorem event_eq (f : State → State) (s : State) : event f s
    = driveLines (levelEvents 2 (if (settle settleBound (eventBase (beginEvent s) (f (beginEvent s))) (f (beginEvent s))).run
        && !(beginEvent s).run then sweepPut (settle settleBound (eventBase (beginEvent s) (f (beginEvent s))) (f (beginEvent s)))
      else settle settleBound (eventBase (beginEvent s) (f (beginEvent s))) (f (beginEvent s)))) := rfl

/-- An event that acts within an evacuation leaves the roll call as it then is (R61). -/
theorem event_evacuating (h : Evacuating c current entry (f (beginEvent s))) :
    Evacuating c current entry (event f s) ∧ MusterShows (event f s) (event f s).level.muster := by
  have hleft := workLeft_le (f (beginEvent s))
  have hbound : workLeft (f (beginEvent s)) < settleBound := by
    rw [settleBound_succ]
    omega
  obtain ⟨he, hr⟩ := h.settle (s0 := eventBase (beginEvent s) (f (beginEvent s))) settleBound hbound
  rw [event_eq]
  exact he.ended hr _

end

/-! ## The level derived -/

/-- What a change of the level hands on before the muster summary (R54). -/
def levelHanded (before after : Level) (s : State) : State :=
  let u := changeRecord before after s
  let v := reportChanged [0x110] (tellReaders before after { u with level := { u.level with level := after, taken := [] } })
  postChanged levelWords
    (if after = .evacuate then requestEvacuate v else if before = .evacuate then withdrawEvacuate v else v)

section
variable {s : State}

theorem deriveLevel_eq (h : levelOf s.level ≠ s.level.level) : deriveLevel s =
    s.level.taken.tail.foldl (fun s c => laterRecord c s)
      (if levelOf s.level = .evacuate then musterEntry (levelHanded s.level.level (levelOf s.level) s)
        else if s.level.level = .evacuate then musterExit (levelHanded s.level.level (levelOf s.level) s)
        else levelHanded s.level.level (levelOf s.level) s) := if_neg h

theorem laterRecords_works (l : List TakenCause) (s : State) : Works [] s (l.foldl (fun s c => laterRecord c s) s) :=
  foldl_works (fun c u => laterRecord_works c u) l s

theorem laterRecords_sameBut (l : List TakenCause) (s : State) : SameBut [] s (l.foldl (fun s c => laterRecord c s) s) :=
  (foldl_within (fun c u => laterRecord_within c u) l s).1

/-- The state of a changed level, its record handed on. -/
def leveled (before after : Level) (s : State) : State :=
  { changeRecord before after s with level := { (changeRecord before after s).level with level := after, taken := [] } }

theorem levelHanded_eq (before after : Level) (s : State) : levelHanded before after s = postChanged levelWords
    (if after = .evacuate then requestEvacuate (reportChanged [0x110] (tellReaders before after (leveled before after s)))
      else if before = .evacuate then withdrawEvacuate (reportChanged [0x110] (tellReaders before after (leveled before after s)))
      else reportChanged [0x110] (tellReaders before after (leveled before after s))) := rfl

/-- What a change of the level hands on leaves the level, the cause and the muster summary. -/
theorem levelHanded_works (before after : Level) (s : State) :
    Works [.road, .reeval, .evacuates] (leveled before after s) (levelHanded before after s) := by
  have told : Works [.road, .reeval, .evacuates] (leveled before after s)
      (reportChanged [0x110] (tellReaders before after (leveled before after s))) :=
    (tellReaders_works before after _).wide.next (reportChanged_works _ (by decide))
  rw [levelHanded_eq]
  refine Works.next ?_ (postChanged_works _ (by decide))
  split
  · exact told.next (requestEvacuate_works _)
  · split
    · exact told.next (withdrawEvacuate_works _)
    · exact told

theorem leveled_level (before after : Level) (s : State) : (leveled before after s).level.level = after
    ∧ (leveled before after s).level.muster = s.level.muster ∧ (leveled before after s).level.cause = s.level.cause
    ∧ (leveled before after s).level.ownSeq = s.level.ownSeq := by
  have hw := changeRecord_works before after s
  exact ⟨rfl, (hw.level (by decide)).2, (hw.cause (by decide)).1, (hw.cause (by decide)).2⟩

theorem leveled_sameBut (before after : Level) (s : State) : SameBut [] s (leveled before after s) := by
  refine (changeRecord_within before after s).1.trans ?_
  simp [SameBut, SameBase, SameLevel, SameRoad, SameFault, SamePath, leveled]

theorem levelHanded_sameBut (before after : Level) (s : State) : SameBut [] s (levelHanded before after s) := by
  have told : SameBut [] s (reportChanged [0x110] (tellReaders before after (leveled before after s))) :=
    ((leveled_sameBut before after s).trans (tellReaders_within before after _).1).trans (reportChanged_within _ _).1
  rw [levelHanded_eq]
  refine SameBut.trans ?_ (postChanged_within _ _).1
  split
  · exact told.trans (requestEvacuate_within _).1
  · split
    · exact told.trans (withdrawEvacuate_within _).1
    · exact told

theorem levelHanded_level (before after : Level) (s : State) : (levelHanded before after s).level.level = after
    ∧ (levelHanded before after s).level.muster = s.level.muster ∧ (levelHanded before after s).level.cause = s.level.cause
    ∧ (levelHanded before after s).level.ownSeq = s.level.ownSeq := by
  have hw := levelHanded_works before after s
  obtain ⟨hl, hm, hc, hq⟩ := leveled_level before after s
  exact ⟨(hw.level (by decide)).1.trans hl, (hw.level (by decide)).2.trans hm, (hw.cause (by decide)).1.trans hc,
    (hw.cause (by decide)).2.trans hq⟩

theorem levelOf_of_cause {l : LevelUnit} {c : Cause} (h : l.cause = some c) : levelOf l = .evacuate := by
  rw [levelOf, h]
  rfl

theorem levelOf_of_no_cause {l : LevelUnit} (h : l.cause = none) : levelOf l ≠ .evacuate := by
  rw [levelOf, h]
  cases l.alerts.isEmpty <;> decide

/-- The entry into EVACUATE (R54, R61). -/
theorem deriveLevel_entry {c : Cause} (hrun : s.run = true) (hcause : s.level.cause = some c) (hlevel : s.level.level ≠ .evacuate) :
    Evacuating c true s.time (deriveLevel s) := by
  have hof := levelOf_of_cause hcause
  obtain ⟨hl, -, hc, -⟩ := levelHanded_level s.level.level (levelOf s.level) s
  have hsame := levelHanded_sameBut s.level.level (levelOf s.level) s
  rw [deriveLevel_eq (by rw [hof]; exact hlevel.symm), if_pos hof]
  generalize levelHanded s.level.level (levelOf s.level) s = u at hl hc hsame
  have hw := laterRecords_works s.level.taken.tail (musterEntry u)
  have entered : Evacuating c true s.time (musterEntry u) :=
    ⟨hsame.run.trans hrun, hl.trans hof, hc.trans hcause, rfl, hsame.time⟩
  exact ⟨hw.run.trans entered.run, (hw.level (by decide)).1.trans entered.level, (hw.cause (by decide)).1.trans entered.cause,
    by rw [(hw.level (by decide)).2, entered.current], by rw [(hw.level (by decide)).2, entered.entry]⟩

end

/-! ## The entry into EVACUATE -/

section
variable {c : Cause} {f : State → State} {s0 s : State}

theorem settleStep_derive (hrun : s.run = true) (hfree : followUpFree s = false) (hfirst : levelFirst s0 s = true) :
    settleStep s0 s = some (deriveLevel s) := by
  simp only [settleStep, settleUnits, hfree, hrun, hfirst, Bool.not_true, Bool.false_eq_true, if_false, if_true]

theorem settleStep_followUp (hfree : followUpFree s = true) : settleStep s0 s = some (enterFollowUp s) := by
  rw [settleStep, if_pos hfree]

theorem enterFollowUp_not_free (s : State) : followUpFree (enterFollowUp s) = false := by
  rw [followUpFree, enterFollowUp_followUp]
  rfl

/-- The end of an event derives a due level after a follow-up value at most (R47, R71). -/
theorem settle_derives {n : Nat} (hrun : s.run = true) (hdue : levelOf s.level ≠ s.level.level) (hfirst : s.level.level = s0.level.level)
    (hkept : levelOf (enterFollowUp s).level ≠ s.level.level) :
    ∃ u m, (u = s ∨ u = enterFollowUp s) ∧ n ≤ m ∧ settle (n + 2) s0 s = settle m s0 (deriveLevel u) := by
  have first (u : State) (hr : u.run = true) (hd : levelOf u.level ≠ u.level.level) (hl : u.level.level = s0.level.level) :
      levelFirst s0 u = true := by
    have hd' : levelOf u.level ≠ s0.level.level := hl ▸ hd
    simp [levelFirst, levelDue, hr, hl, hd']
  rcases Bool.eq_false_or_eq_true (followUpFree s) with hfree | hfree
  · have hroll := enterFollowUp_roll s
    have hrun' : (enterFollowUp s).run = true := (enterFollowUp_sameBut s).run.trans hrun
    refine ⟨_, n, .inr rfl, Nat.le_refl n, ?_⟩
    rw [settle_of_step (settleStep_followUp hfree), settle_of_step (settleStep_derive hrun' (enterFollowUp_not_free s)
      (first _ hrun' (by rw [hroll.level]; exact hkept) (hroll.level.trans hfirst)))]
  · exact ⟨_, n + 1, .inl rfl, by omega, settle_of_step (settleStep_derive hrun hfree (first _ hrun hdue hfirst))⟩

theorem settle_entry (hrun : s.run = true) (hcause : s.level.cause = some c) (hlevel : s.level.level ≠ .evacuate)
    (hfirst : s.level.level = s0.level.level) :
    Evacuating c true s.time (settle settleBound s0 s) ∧ UnitsRest (settle settleBound s0 s) := by
  have hcause' : (enterFollowUp s).level.cause = some c :=
    ((enterFollowUp_sameBut s).level.2.2.2.1 (by simp [hcause])).trans hcause
  have hof := levelOf_of_cause hcause
  obtain ⟨u, m, hu, hm, hsettle⟩ := settle_derives (n := 19998) hrun (by rw [hof]; exact hlevel.symm) hfirst
    (by rw [levelOf_of_cause hcause']; exact hlevel.symm)
  have hbound : settleBound = 19998 + 2 := rfl
  rw [hbound, hsettle]
  have entered : Evacuating c true s.time (deriveLevel u) := by
    rcases hu with rfl | rfl
    · exact deriveLevel_entry hrun hcause hlevel
    · have hsame := enterFollowUp_sameBut s
      exact hsame.time ▸ deriveLevel_entry (hsame.run.trans hrun) hcause' (by rw [(enterFollowUp_roll s).level]; exact hlevel)
  have hleft := workLeft_le (deriveLevel u)
  exact entered.settle m (by omega)

/-- An event whose action gives a cause enters EVACUATE (R51, R54, R61). -/
theorem event_entry (hrun : s.run = true) (hacted : (f (beginEvent s)).run = true) (hcause : (f (beginEvent s)).level.cause = some c)
    (hlevel : (f (beginEvent s)).level.level ≠ .evacuate) (hfirst : (f (beginEvent s)).level.level = s.level.level) :
    Evacuating c true (f (beginEvent s)).time (event f s) ∧ MusterShows (event f s) (event f s).level.muster := by
  have hbase : eventBase (beginEvent s) (f (beginEvent s)) = beginEvent s := by
    have hr : (beginEvent s).run = true := hrun
    rw [eventBase, hr]
    simp
  obtain ⟨he, hr⟩ := settle_entry (s0 := eventBase (beginEvent s) (f (beginEvent s))) hacted hcause hlevel (by rw [hbase]; exact hfirst)
  rw [event_eq]
  exact he.ended hr _

end

/-! ## Below EVACUATE -/

/-- No cause is in force and the end of an event gives none; the level is below EVACUATE, the muster summary is `m`, and the own
sequence is `q`. -/
structure Below (m : Muster) (q : BitVec 8) (s : State) : Prop where
  noCause : NoEndCause s
  cause : s.level.cause = none
  level : s.level.level ≠ .evacuate
  muster : s.level.muster = m
  ownSeq : s.level.ownSeq = q

section
variable {m : Muster} {q : BitVec 8} {o : List Opening} {s0 s t : State}

theorem NoEndCause.congr (h : NoEndCause s) (he : t.effective = s.effective) : NoEndCause t := by
  unfold NoEndCause escalation at *
  rw [he]
  exact h

theorem Below.works (h : Below m q s) (hw : Works o s t) (hl : .level ∉ o := by decide) (hc : .cause ∉ o := by decide) : Below m q t :=
  ⟨h.noCause.congr hw.effective, (hw.cause hc).1.trans h.cause, by rw [(hw.level hl).1]; exact h.level, by rw [(hw.level hl).2, h.muster],
    by rw [(hw.cause hc).2, h.ownSeq]⟩

theorem Below.recordFault (h : Below m q s) {k : FaultKind} (d : FaultId) (hk : k = .ownWriteStall ∨ k = .frameDropped) :
    Below m q (recordFault k d s) := by
  have hesc : escalation s k ≠ .evacuate := by
    rcases hk with rfl | rfl
    · exact h.noCause.1
    · exact h.noCause.2
  exact h.works (recordFault_works_latch (hk.imp id .inr) d s hesc)

theorem Below.deriveLevel (h : Below m q s) : Below m q (deriveLevel s) := by
  by_cases hdue : levelOf s.level = s.level.level
  · rw [deriveLevel_of_same hdue]
    exact h
  · have hof := levelOf_of_no_cause h.cause
    obtain ⟨hl, hm, hc, hq⟩ := levelHanded_level s.level.level (levelOf s.level) s
    rw [deriveLevel_eq hdue, if_neg hof, if_neg h.level]
    have handed : Below m q (levelHanded s.level.level (levelOf s.level) s) :=
      ⟨h.noCause.congr (levelHanded_sameBut _ _ s).effective, hc.trans h.cause, by rw [hl]; exact hof, hm.trans h.muster,
        hq.trans h.ownSeq⟩
    exact handed.works (laterRecords_works _ _)

theorem Below.step (h : Below m q s) (hstep : settleStep s0 s = some t) : Below m q t := by
  rcases settleStep_endStep hstep with ⟨-, rfl⟩ | ⟨hstale, -⟩ | ⟨u, v, hu, huv, hv⟩
  · exact h.deriveLevel
  · simp [musterStale, h.level] at hstale
  · refine Below.works ?_ hv
    rcases huv with rfl | ⟨k, d, hk, rfl⟩
    · exact h.works hu
    · exact (h.works hu).recordFault d hk

theorem event_below {f : State → State} (h : Below m q (f (beginEvent s))) : Below m q (event f s) :=
  event_keeps (fun _ _ _ h hstep => h.step hstep) (fun u h => h.works (sweepPut_works u))
    (fun _ h => h.works (o := []) .of_same) h

end

/-! ## The exit from EVACUATE -/

section
variable {s0 s : State}

theorem markRoads_trucks (s : State) : (markRoads s).road.trucks = s.road.trucks := by
  have kept := forEach_keeps (f := fun (i : Fin 16) (u : State) => if controlled u i then markSegment i u else u)
    (fun u => u.road.trucks = s.road.trucks) (fun i u hu => ?_) s rfl
  · unfold markRoads
    with_reducible exact kept
  · split
    · exact hu
    · exact hu

theorem levelHanded_trucks {after : Level} (h : after ≠ .evacuate) (s : State) :
    (levelHanded .evacuate after s).road.trucks = s.road.trucks := by
  have hrecord : (leveled .evacuate after s).road = s.road := (changeRecord_works .evacuate after s).roads (by decide)
  have htold : (tellReaders .evacuate after (leveled .evacuate after s)).road.trucks = s.road.trucks := by
    have htold : tellReaders .evacuate after (leveled .evacuate after s)
        = { markRoads (leveled .evacuate after s) with reevalDue := true } := by
      rw [tellReaders, if_neg h, if_pos rfl]
    have hmarked : (tellReaders .evacuate after (leveled .evacuate after s)).road.trucks
        = (markRoads (leveled .evacuate after s)).road.trucks := by rw [htold]
    rw [hmarked, markRoads_trucks, hrecord]
  rw [levelHanded_eq, if_neg h, if_pos rfl]
  exact htold

/-- The exit from EVACUATE (R54, R58, R61). -/
theorem deriveLevel_exit (hno : NoEndCause s) (hcause : s.level.cause = none) (hlevel : s.level.level = .evacuate) :
    ∃ m, Below m s.level.ownSeq (deriveLevel s) ∧ m.current = false ∧ m.entry = s.level.muster.entry ∧ MusterShows s m := by
  have hof := levelOf_of_no_cause hcause
  obtain ⟨hl, hm, hc, hq⟩ := levelHanded_level .evacuate (levelOf s.level) s
  have hsame := levelHanded_sameBut .evacuate (levelOf s.level) s
  have htrucks := levelHanded_trucks hof s
  rw [deriveLevel_eq (by rw [hlevel]; exact hof), if_neg hof, if_pos hlevel, hlevel]
  generalize levelHanded .evacuate (levelOf s.level) s = u at hl hm hc hq hsame htrucks
  refine ⟨figures u { u.level.muster with current := false }, ?_, rfl, by rw [← hm]; rfl, ?_⟩
  · have left : Below (figures u { u.level.muster with current := false }) s.level.ownSeq (musterExit u) :=
      ⟨hno.congr hsame.effective, hc.trans hcause, by rw [← hl] at hof; exact hof, rfl, hq⟩
    exact left.works (laterRecords_works _ _)
  · exact (figures_shows u _).congr hsame.chambers.symm hsame.call.symm (by rw [lostCount, lostCount, htrucks])

/-- An event that ends the cause in force leaves EVACUATE (R58, R61). -/
theorem event_exit {f : State → State} (hrun : s.run = true) (hacted : (f (beginEvent s)).run = true)
    (hno : NoEndCause (f (beginEvent s))) (hcause : (f (beginEvent s)).level.cause = none)
    (hlevel : (f (beginEvent s)).level.level = .evacuate) (hfirst : (f (beginEvent s)).level.level = s.level.level) :
    ∃ m, Below m (f (beginEvent s)).level.ownSeq (event f s) ∧ m.current = false ∧ m.entry = (f (beginEvent s)).level.muster.entry
      ∧ MusterShows (f (beginEvent s)) m := by
  have hbase : eventBase (beginEvent s) (f (beginEvent s)) = beginEvent s := by
    have hr : (beginEvent s).run = true := hrun
    rw [eventBase, hr]
    simp
  have hof := levelOf_of_no_cause hcause
  have hw : Works [.latch] (f (beginEvent s)) (enterFollowUp (f (beginEvent s))) :=
    enterFollowUp_works fun u he => recordFault_works_latch (.inl rfl) _ u (hno.congr he).1
  have hroll := enterFollowUp_roll (f (beginEvent s))
  have hcause' : (enterFollowUp (f (beginEvent s))).level.cause = none := (hw.cause (by decide)).1.trans hcause
  obtain ⟨u, n, hu, -, hsettle⟩ := settle_derives (n := 19998) (s0 := eventBase (beginEvent s) (f (beginEvent s))) hacted
    (by rw [hlevel]; exact hof) (by rw [hbase]; exact hfirst) (by rw [hlevel]; exact levelOf_of_no_cause hcause')
  have exited : ∃ m, Below m (f (beginEvent s)).level.ownSeq (deriveLevel u) ∧ m.current = false ∧ m.entry = (f (beginEvent s)).level.muster.entry
      ∧ MusterShows (f (beginEvent s)) m := by
    rcases hu with rfl | rfl
    · exact deriveLevel_exit hno hcause hlevel
    · obtain ⟨m, hb, hcurrent, hentry, hshows⟩ := deriveLevel_exit (hno.congr hw.effective) hcause' (hroll.level.trans hlevel)
      rw [(hw.cause (by decide)).2] at hb
      exact ⟨m, hb, hcurrent, by rw [hentry, hroll.muster],
        hshows.congr hroll.chambers.symm hroll.call.symm (by rw [lostCount, lostCount, hroll.road])⟩
  obtain ⟨m, hb, hrest⟩ := exited
  refine ⟨m, ?_, hrest⟩
  have settled : Below m (f (beginEvent s)).level.ownSeq (settle settleBound (eventBase (beginEvent s) (f (beginEvent s))) (f (beginEvent s))) := by
    have hbound : settleBound = 19998 + 2 := rfl
    rw [hbound, hsettle]
    exact settle_keeps (fun _ _ h hstep => h.step hstep) n hb
  rw [event_eq]
  refine Below.works (o := []) (levelEvents_keeps (fun _ h => settle_keeps (fun _ _ h hstep => h.step hstep) _ h) 2 ?_) .of_same
  split
  · exact settled.works (sweepPut_works _)
  · exact settled

end

end Sys2Proof.Machine
end

section
/-! PROOFS. The requests that are DONE: EVACUATE, END_EVACUATION, RESET_CELL and APPLY_ADJUSTMENT (R40, R57, R58, R169). -/

set_option Elab.async false

namespace Sys2Proof.Machine

open Sys2Proof.Config

/-! ## A local cause, and the own sequence -/

section
variable {s : State} {kind : CauseKind} {reason : BitVec 4} {fault : Nat}

/-- The cause that a local cause fills the record with (R51). -/
def localRecord (kind : CauseKind) (reason : BitVec 4) (s : State) : Cause :=
  { kind := kind, node := s.effective.node.nodeId, seq := s.level.ownSeq + 1, hop := some s.effective.node.hop, reason := reason,
    time := s.time }

theorem localCause_of_none (h : s.level.cause = none) : localCause kind reason fault s = { s with level := { s.level with
    ownSeq := s.level.ownSeq + 1, cause := some (localRecord kind reason s),
    taken := [{ cause := localRecord kind reason s, fault := fault }] } } := by
  have hsome : s.level.cause.isSome = false := by rw [h]; rfl
  rw [localCause]
  simp only [hsome, Bool.false_eq_true, if_false]
  exact takeCause_of_none h

/-- A later cause leaves the record, the own sequence, the level and the muster summary. -/
theorem localCause_later {c : Cause} (h : s.level.cause = some c) :
    (localCause kind reason fault s).level.cause = some c ∧ (localCause kind reason fault s).level.ownSeq = s.level.ownSeq := by
  have hsome : s.level.cause.isSome = true := by rw [h]; rfl
  rw [localCause]
  simp only [hsome, if_true]
  by_cases hlevel : s.level.level = .evacuate
  · rw [takeCause_of_evacuate h hlevel]
    exact ⟨((laterRecord_works _ _).cause (by decide)).1.trans h, ((laterRecord_works _ _).cause (by decide)).2⟩
  · rw [takeCause_of_waiting h hlevel]
    exact ⟨h, rfl⟩

/-- The end of an event leaves the own sequence where a cause is in force. -/
theorem event_ownSeq {f : State → State} {s : State} (h : (f (beginEvent s)).level.cause.isSome = true) :
    (event f s).level.ownSeq = (f (beginEvent s)).level.ownSeq := by
  refine (event_keeps_ends (P := fun u => u.level.cause.isSome = true ∧ u.level.ownSeq = (f (beginEvent s)).level.ownSeq)
    (fun u v hu hw => ?_) (fun k d u hu _ => ?_) ⟨h, rfl⟩).2
  · rw [(hw.cause (by decide)).1, (hw.cause (by decide)).2]
    exact hu
  · have later (v : State) (hv : v.level.cause.isSome = true ∧ v.level.ownSeq = (f (beginEvent s)).level.ownSeq) :
        (localCause .fault 4 (FaultKind.code k) v).level.cause.isSome = true
          ∧ (localCause .fault 4 (FaultKind.code k) v).level.ownSeq = (f (beginEvent s)).level.ownSeq := by
      obtain ⟨c, hc⟩ := Option.isSome_iff_exists.mp hv.1
      obtain ⟨hcause, hseq⟩ := localCause_later (kind := .fault) (reason := 4) (fault := FaultKind.code k) hc
      exact ⟨by rw [hcause]; rfl, hseq.trans hv.2⟩
    have joined (v : State) (hv : v.level.cause.isSome = true ∧ v.level.ownSeq = (f (beginEvent s)).level.ownSeq) :
        (joinAlert .latch v).level.cause.isSome = true
          ∧ (joinAlert .latch v).level.ownSeq = (f (beginEvent s)).level.ownSeq := by
      rw [((joinAlert_works_latch v).cause (by decide)).1, ((joinAlert_works_latch v).cause (by decide)).2]
      exact hv
    unfold recordFault
    split
    · exact hu
    · dsimp only
      rw [postFault, postChanged_level]
      split
      · exact joined _ hu
      · exact later _ hu
      · exact hu
      · exact hu

end

/-! ## The event of a request that is done -/

/-- The state in which the event of a request begins. -/
def begun (w : Word) (s : State) : State := beginEvent (requested w s)

section
variable {s : State} {w : Word} {g : State → State}

theorem begun_sameBut (w : Word) (s : State) : SameBut [] s (begun w s) :=
  (requested_sameBut w s).trans (beginEvent_sameBut _)

/-- The action of the request `w` that acts as `g` does. -/
def doneAction (w : Word) (g : State → State) (v : State) : State := withOutcome (some (outcomeWord w outDone 0)) (g v)

/-- The event of the request `w` that acts as `g` does. -/
def doneEvent (w : Word) (g : State → State) (s : State) : State := event (doneAction w g) (requested w s)

theorem doneEvent_acted : SameBut [] (g (begun w s)) (doneEvent w g s) :=
  (withOutcome_sameBut _ _).trans (event_sameBut_acted _ _)

theorem doneEvent_sameBut {l : List Area} (h : SameBut l (begun w s) (g (begun w s))) : SameBut l s (doneEvent w g s) :=
  ((begun_sameBut w s).mono (by simp)).trans (h.trans (doneEvent_acted.mono (by simp)))

/-- A request that is done is its event. -/
theorem event_of_done (h : judgeRequest s.strap w (begun w s) = Reply.done (g (begun w s))) :
    event (executeRequest s.strap w) (requested w s) = doneEvent w g s := by
  refine event_congr ?_
  exact executeRequest_done s.strap h

theorem doneEvent_evacuating {c : Cause} {current : Bool} {entry : Time} (h : Evacuating c current entry (g (begun w s))) :
    Evacuating c current entry (doneEvent w g s) ∧ MusterShows (doneEvent w g s) (doneEvent w g s).level.muster :=
  event_evacuating (f := doneAction w g) (s := requested w s) ⟨h.run, h.level, h.cause, h.current, h.entry⟩

theorem doneEvent_below {m : Muster} {q : BitVec 8} (h : Below m q (g (begun w s))) : Below m q (doneEvent w g s) :=
  event_below (f := doneAction w g) (s := requested w s) ⟨h.noCause, h.cause, h.level, h.muster, h.ownSeq⟩

theorem doneEvent_entry {c : Cause} (hrun : s.run = true) (hacted : (g (begun w s)).run = true)
    (hcause : (g (begun w s)).level.cause = some c) (hlevel : s.level.level ≠ .evacuate)
    (hsame : (g (begun w s)).level.level = s.level.level) :
    Evacuating c true (g (begun w s)).time (doneEvent w g s) ∧ MusterShows (doneEvent w g s) (doneEvent w g s).level.muster :=
  event_entry (f := doneAction w g) (s := requested w s) hrun hacted hcause (fun h => hlevel (hsame.symm.trans h)) hsame

theorem doneEvent_exit (hrun : s.run = true) (hacted : (g (begun w s)).run = true) (hno : NoEndCause (g (begun w s)))
    (hcause : (g (begun w s)).level.cause = none) (hlevel : s.level.level = .evacuate)
    (hsame : (g (begun w s)).level.level = s.level.level) :
    ∃ m, Below m (g (begun w s)).level.ownSeq (doneEvent w g s) ∧ m.current = false
      ∧ m.entry = (g (begun w s)).level.muster.entry ∧ MusterShows (g (begun w s)) m :=
  event_exit (f := doneAction w g) (s := requested w s) hrun hacted hno hcause (hsame.trans hlevel) hsame

theorem doneEvent_ownSeq (h : (g (begun w s)).level.cause.isSome = true) :
    (doneEvent w g s).level.ownSeq = (g (begun w s)).level.ownSeq :=
  event_ownSeq (f := doneAction w g) (s := requested w s) h

theorem musterGoesOn_of {t : State}
    (hevac : ∀ c, s.level.level = .evacuate → s.level.cause = some c →
      Evacuating c s.level.muster.current s.level.muster.entry t ∧ MusterShows t t.level.muster)
    (hbelow : s.level.level ≠ .evacuate → s.level.cause = none → NoEndCause s → Below s.level.muster s.level.ownSeq t) :
    MusterGoesOn s t := by
  refine ⟨fun hl hc => ?_, fun hl hc hno => (hbelow hl hc hno).muster⟩
  obtain ⟨c, hc⟩ := Option.ne_none_iff_exists'.mp hc
  obtain ⟨he, hm⟩ := hevac c hl hc
  exact ⟨he.current, he.entry, hm⟩

/-- An action that leaves the level, the cause and the muster summary lets the summary go on (R61). -/
theorem doneEvent_musterGoesOn {o : List Opening} (hrun : s.run = true) (hw : Works o (begun w s) (g (begun w s)))
    (hl : .level ∉ o := by decide) (hc : .cause ∉ o := by decide) : MusterGoesOn s (doneEvent w g s) := by
  refine musterGoesOn_of (fun c hlevel hcause => doneEvent_evacuating ?_) (fun hlevel hcause hno => doneEvent_below ?_)
  · exact ⟨hw.run.trans hrun, (hw.level hl).1.trans hlevel, (hw.cause hc).1.trans hcause, by rw [(hw.level hl).2]; rfl,
      by rw [(hw.level hl).2]; rfl⟩
  · have began : Below s.level.muster s.level.ownSeq (begun w s) := ⟨hno, hcause, hlevel, rfl, rfl⟩
    exact began.works hw hl hc

end

/-! ## EVACUATE -/

section
variable {s : State}

/-- The request EVACUATE with a reason of 8 to 15. -/
theorem judge_evacuate (tag : BitVec 8) {arg : BitVec 16} {u : State} (hrun : u.run = true) (hlow : 8 ≤ arg.toNat)
    (hhigh : arg.toNat ≤ 15) (strap : BitVec 2) : judgeRequest strap (requestWord 4 tag arg) u
      = Reply.done (localCause .request (BitVec.ofNat 4 arg.toNat) 0 u) := by
  have hcode := requestCode_requestWord 4 tag arg (by decide)
  rw [judgeRequest_running strap hrun (by rw [hcode]; decide) (by rw [hcode]; decide)]
  simp only [hcode, requestArg_requestWord]
  exact if_pos ⟨hlow, hhigh⟩

end

/-- Settles O8: the cause fills an absent record and the event enters EVACUATE; a cause in force stays. -/
theorem evacuateRequestTaken : Obligations.EvacuateRequestTaken := by
  intro tag arg s hrun hlow hhigh
  have hexec : exec (.evacuate tag arg) s = .next (serveWrite s.strap (requestAccess s 4 tag arg) s) := rfl
  have hjudge := judge_evacuate tag (u := begun (requestWord 4 tag arg) s) hrun hlow hhigh s.strap
  rw [serveWrite_request, event_of_done hjudge] at hexec
  generalize requestWord 4 tag arg = w at hexec
  have acted := doneEvent_acted (s := s) (w := w) (g := localCause .request (BitVec.ofNat 4 arg.toNat) 0)
  refine ⟨_, hexec, fun hcause => ?_, fun c hcause => ?_, doneEvent_sameBut (localCause_within _ _ _ _).1⟩
  · have hg := localCause_of_none (kind := .request) (reason := BitVec.ofNat 4 arg.toNat) (fault := 0) (s := begun w s) hcause
    have hsome : (localCause .request (BitVec.ofNat 4 arg.toNat) 0 (begun w s)).level.cause
        = some (localRecord .request (BitVec.ofNat 4 arg.toNat) s) := by rw [hg]; rfl
    have hseq : (localCause .request (BitVec.ofNat 4 arg.toNat) 0 (begun w s)).level.ownSeq = s.level.ownSeq + 1 := by rw [hg]; rfl
    have hrun' : (localCause .request (BitVec.ofNat 4 arg.toNat) 0 (begun w s)).run = true := by rw [hg]; exact hrun
    have hsame : (localCause .request (BitVec.ofNat 4 arg.toNat) 0 (begun w s)).level.level = s.level.level := by rw [hg]; rfl
    have htime : (localCause .request (BitVec.ofNat 4 arg.toNat) 0 (begun w s)).time = s.time := by rw [hg]; rfl
    have hown := (doneEvent_ownSeq (g := localCause .request (BitVec.ofNat 4 arg.toNat) 0) (by rw [hsome]; rfl)).trans hseq
    by_cases hlevel : s.level.level = .evacuate
    · have goes := (doneEvent_evacuating (g := localCause .request (BitVec.ofNat 4 arg.toNat) 0)
        ⟨hrun', hsame.trans hlevel, hsome, rfl, rfl⟩).1
      exact ⟨goes.cause, hown, goes.level, fun hn => absurd hlevel hn⟩
    · obtain ⟨entered, hmuster⟩ := doneEvent_entry (g := localCause .request (BitVec.ofNat 4 arg.toNat) 0) hrun hrun' hsome hlevel hsame
      exact ⟨entered.cause, hown, entered.level, fun _ => ⟨entered.current, entered.entry.trans htime, hmuster⟩⟩
  · obtain ⟨hsome, hseq⟩ := localCause_later (kind := .request) (reason := BitVec.ofNat 4 arg.toNat) (fault := 0)
      (s := begun w s) hcause
    have hw := localCause_works .request (BitVec.ofNat 4 arg.toNat) 0 (begun w s)
    refine ⟨((acted.level).2.2.2.1 (by rw [hsome]; rfl)).trans hsome, ?_, ?_⟩
    · exact (doneEvent_ownSeq (by rw [hsome]; rfl)).trans hseq
    · refine musterGoesOn_of (fun d hlevel hd => doneEvent_evacuating ?_) fun _ hnone => ?_
      · rw [hcause] at hd
        cases hd
        exact ⟨hw.run.trans hrun, (hw.level (by decide)).1.trans hlevel, hsome, by rw [(hw.level (by decide)).2]; rfl,
          by rw [(hw.level (by decide)).2]; rfl⟩
      · rw [hcause] at hnone
        cases hnone

/-! ## END_EVACUATION -/

section
variable {s : State}

theorem endEvacuation_none (h : s.level.cause = none) : endEvacuation s = s := by
  rw [endEvacuation, h]

theorem endEvacuation_some {c : Cause} (h : s.level.cause = some c) : endEvacuation s
    = reportChanged levelWords { s with level := { s.level with cause := none, ended := some (c.node, c.seq) } } := by
  rw [endEvacuation, h]

theorem judge_end (tag : BitVec 8) (arg : BitVec 16) (hrun : s.run = true) (hcells : cellsTripped s = false)
    (hair : alertingHeld s = false) (strap : BitVec 2) :
    judgeRequest strap (requestWord 5 tag arg) s = Reply.done (endEvacuation s) := by
  have hcode := requestCode_requestWord 5 tag arg (by decide)
  rw [judgeRequest_running strap hrun (by rw [hcode]; decide) (by rw [hcode]; decide)]
  simp only [hcode, requestEnd, hcells, hair, Bool.false_eq_true, if_false]

end

/-- Settles O9: the cause in force ends, and the event leaves EVACUATE. -/
theorem endEvacuationAccepted : Obligations.EndEvacuationAccepted := by
  intro tag arg s hrun hcells hair hno
  have hexec : exec (.endEvacuation tag arg) s = .next (serveWrite s.strap (requestAccess s 5 tag arg) s) := rfl
  have hjudge := judge_end tag arg (s := begun (requestWord 5 tag arg) s) hrun hcells hair s.strap
  rw [serveWrite_request, event_of_done hjudge] at hexec
  generalize requestWord 5 tag arg = w at hexec
  have acted := doneEvent_acted (s := s) (w := w) (g := endEvacuation)
  refine ⟨_, hexec, fun c hcause => ?_, fun hcause => ?_, doneEvent_sameBut (endEvacuation_within _).1⟩
  · have hg := endEvacuation_some (s := begun w s) hcause
    obtain ⟨hremote, hrepeat, hended, -, halerts⟩ := acted.level
    have hnone : (endEvacuation (begun w s)).level.cause = none := by rw [hg]; rfl
    have hsame : (endEvacuation (begun w s)).level.level = s.level.level := by rw [hg]; rfl
    have hrun' : (endEvacuation (begun w s)).run = true := by rw [hg]; exact hrun
    have hno' : NoEndCause (endEvacuation (begun w s)) := hno.congr (by rw [hg]; rfl)
    have hseq : (endEvacuation (begun w s)).level.ownSeq = s.level.ownSeq := by rw [hg]; rfl
    have left : ∃ m, Below m s.level.ownSeq (doneEvent w endEvacuation s) ∧ (s.level.level = .evacuate →
        m.current = false ∧ m.entry = s.level.muster.entry ∧ MusterShows s m) := by
      by_cases hlevel : s.level.level = .evacuate
      · obtain ⟨m, hb, hcurrent, hentry, hshows⟩ := doneEvent_exit hrun hrun' hno' hnone hlevel hsame
        rw [hseq] at hb
        refine ⟨m, hb, fun _ => ⟨hcurrent, hentry.trans (by rw [hg]; rfl), ?_⟩⟩
        rw [hg] at hshows
        exact hshows
      · exact ⟨_, doneEvent_below (m := (endEvacuation (begun w s)).level.muster) ⟨hno', hnone, by rw [hsame]; exact hlevel, rfl, hseq⟩,
          fun h => absurd h hlevel⟩
    obtain ⟨m, hb, hmuster⟩ := left
    rw [hg] at hremote hrepeat hended halerts
    refine ⟨hb.cause, hended, hb.level, hb.ownSeq, hremote, hrepeat, halerts, fun hlevel => ?_⟩
    obtain ⟨hcurrent, hentry, hshows⟩ := hmuster hlevel
    rw [hb.muster]
    exact ⟨hcurrent, hentry, hshows⟩
  · have hg := endEvacuation_none (s := begun w s) hcause
    rw [hg] at acted
    have began : SameLevel s (doneEvent w endEvacuation s) := ((begun_sameBut w s).trans acted).level
    have left : ∃ m, Below m s.level.ownSeq (doneEvent w endEvacuation s) ∧ (s.level.level ≠ .evacuate → m = s.level.muster) := by
      by_cases hlevel : s.level.level = .evacuate
      · obtain ⟨m, hb, -⟩ := doneEvent_exit (g := endEvacuation) (w := w) hrun (by rw [hg]; exact hrun) (hno.congr (by rw [hg]; rfl))
          (by rw [hg]; exact hcause) hlevel (by rw [hg]; rfl)
        rw [hg] at hb
        exact ⟨m, hb, fun h => absurd hlevel h⟩
      · refine ⟨s.level.muster, doneEvent_below ?_, fun _ => rfl⟩
        rw [hg]
        exact ⟨hno, hcause, hlevel, rfl, rfl⟩
    obtain ⟨m, hb, hmuster⟩ := left
    refine ⟨hb.cause, hb.ownSeq, began, musterGoesOn_of (fun c _ hc => ?_) fun hlevel _ _ => hmuster hlevel ▸ hb⟩
    rw [hcause] at hc
    cases hc

end Sys2Proof.Machine
end

section
/-! PROOFS. RESET_CELL and APPLY_ADJUSTMENT that are DONE (R40, R169). -/

set_option Elab.async false

namespace Sys2Proof.Machine

open Sys2Proof.Config

/-! ## RESET_CELL -/

section
variable {i : Fin 4} {s : State}

/-- What a returned cell hands on leaves the air, the cells and every settled ALERT member but the cell's own. -/
theorem resetCell_handed (i : Fin 4) (s : State) :
    SameBut [] (changeCell i (fun c => { c with state := .ready, confirm := .off }) s)
      (postCell i (cellStateRecord i s.cells[i].state .ready (changeCell i (fun c => { c with state := .ready, confirm := .off }) s))) :=
  (cellStateRecord_within _ _ _ _).1.trans (postCell_within i _).1

theorem resetCell_eq (i : Fin 4) (s : State) : resetCell i s = leaveAlert (.cell i)
    (postCell i (cellStateRecord i s.cells[i].state .ready (changeCell i (fun c => { c with state := .ready, confirm := .off }) s))) :=
  rfl

theorem resetCell_cells (i : Fin 4) (s : State) :
    (resetCell i s).cells = modifyAt s.cells i (fun c => { c with state := .ready, confirm := .off })
      ∧ (resetCell i s).sampled = s.sampled := by
  rw [resetCell_eq, (leaveAlert_within _ _).1.cells, (leaveAlert_within _ _).1.sampled, (resetCell_handed i s).cells,
    (resetCell_handed i s).sampled]
  exact ⟨rfl, rfl⟩

theorem resetCell_alerts {m : AlertMember} (hm : AlertMember.settled m = true) :
    m ∈ (resetCell i s).level.alerts ↔ m ≠ .cell i ∧ m ∈ s.level.alerts := by
  obtain ⟨-, -, -, -, halerts⟩ := (resetCell_handed i s).level
  rw [resetCell_eq, mem_leaveAlert, halerts m hm]
  rfl

theorem judge_resetCell (tag : BitVec 8) {arg : BitVec 16} (hrun : s.run = true) (harg : arg.toNat = i.val)
    (hactive : tripActive s.cells[i] = true) (hdemand : s.cells[i].demand = false) (strap : BitVec 2) :
    judgeRequest strap (requestWord 3 tag arg) s = Reply.done (resetCell i s) := by
  have hi := i.isLt
  have hcode := requestCode_requestWord 3 tag arg (by decide)
  have hindex : Fin.ofNat 4 i.val = i := Fin.ext (Nat.mod_eq_of_lt hi)
  rw [judgeRequest_running strap hrun (by rw [hcode]; decide) (by rw [hcode]; decide)]
  simp only [hcode, requestArg_requestWord, harg, requestResetCell, if_neg (show ¬3 < i.val by omega), hindex, hactive, hdemand,
    Bool.not_true, Bool.false_eq_true, if_false]

end

/-- Settles O10: the cell's own change, the settled ALERT members and the lines. -/
theorem resetCellDone : Obligations.ResetCellDone := by
  intro tag arg i s hrun harg hactive hdemand
  have hexec : exec (.resetCell tag arg) s = .next (serveWrite s.strap (requestAccess s 3 tag arg) s) := rfl
  have hjudge := judge_resetCell tag (s := begun (requestWord 3 tag arg) s) hrun harg hactive hdemand s.strap
  rw [serveWrite_request, event_of_done hjudge] at hexec
  generalize requestWord 3 tag arg = w at hexec
  have acted := doneEvent_acted (s := s) (w := w) (g := resetCell i)
  obtain ⟨-, -, -, -, halerts⟩ := acted.level
  obtain ⟨hcells, hsampled⟩ := resetCell_cells i (begun w s)
  have hcells : (doneEvent w (resetCell i) s).cells = modifyAt s.cells i (fun c => { c with state := .ready, confirm := .off }) :=
    acted.cells.trans hcells
  refine ⟨_, hexec, ?_, fun j hj => ?_, acted.sampled.trans hsampled, fun hm => ?_, fun m hm hne => ?_, event_drive _ _,
    doneEvent_sameBut ?_⟩
  · rw [hcells, modifyAt_at]
  · rw [hcells]
    exact modifyAt_other _ _ hj
  · rw [halerts (.cell i) rfl, resetCell_alerts rfl] at hm
    exact hm.1 rfl
  · rw [halerts m hm, resetCell_alerts hm]
    exact ⟨fun h => h.2, fun h => ⟨hne, h⟩⟩
  · exact (resetCell_within i _).1.wide

/-! ## APPLY_ADJUSTMENT -/

section
variable {s : State}

theorem judge_adjust (tag : BitVec 8) (arg : BitVec 16) (hrun : s.run = true) (strap : BitVec 2) :
    judgeRequest strap (requestWord 6 tag arg) s = requestAdjust arg.toNat s := by
  have hcode := requestCode_requestWord 6 tag arg (by decide)
  rw [judgeRequest_running strap hrun (by rw [hcode]; decide) (by rw [hcode]; decide)]
  simp only [hcode, requestArg_requestWord]

/-- The staged thresholds of a channel put in waiting (R169). -/
def adjustChannel (i : Fin 24) (s : State) : State :=
  adjustmentRecord i.val [(16, s.staged.channels[i].t1), (16, s.staged.channels[i].t2), (16, s.staged.channels[i].t3)]
    (changeChannel i (fun c => { c with waiting := some s.staged.channels[i] }) s)

/-- The staged periods given to their timers (R169). -/
def adjustPeriods (s : State) : State :=
  adjustmentRecord 0xFF [] { s with
    rate := PeriodTimer.apply s.staged.rateWindow s.rate
    level := { s.level with repeatTimer := PeriodTimer.apply s.staged.repeatPeriod s.level.repeatTimer }
    fault := { s.fault with patrol := PeriodTimer.apply s.staged.patrol s.fault.patrol } }

theorem requestAdjust_channel {i : Fin 24} (hused : s.effective.channels[i].source ≠ .off) (hlevel : s.level.level ≠ .evacuate)
    (hheld : Grade.atLeastAlarm (held s.channels[i]) = false)
    (horder : thresholdsOrdered s.effective.channels[i] s.staged.channels[i] = true) :
    requestAdjust i.val s = Reply.done (adjustChannel i s) := by
  have hi := i.isLt
  have hindex : Fin.ofNat 24 i.val = i := Fin.ext (Nat.mod_eq_of_lt hi)
  rw [requestAdjust, if_neg (by omega), if_neg (by omega)]
  simp only [hindex, channelSet, hused, hlevel, hheld, horder, Bool.not_true, Bool.false_eq_true, if_false]
  rfl

theorem requestAdjust_periods (hlevel : s.level.level ≠ .evacuate) : requestAdjust 0xFF s = Reply.done (adjustPeriods s) := by
  rw [requestAdjust, if_pos rfl, if_neg hlevel]
  rfl

end

/-- Settles O11: the staged set of one channel, and the staged periods. -/
theorem adjustmentApplied : Obligations.AdjustmentApplied := by
  refine ⟨?_, ?_⟩
  · intro tag arg i s hrun harg hused hlevel hheld horder
    have hexec : exec (.applyAdjustment tag arg) s = .next (serveWrite s.strap (requestAccess s 6 tag arg) s) := rfl
    have hjudge := (judge_adjust tag arg (s := begun (requestWord 6 tag arg) s) hrun s.strap).trans
      ((congrArg (requestAdjust · _) harg).trans
        (requestAdjust_channel (s := begun (requestWord 6 tag arg) s) (i := i) hused hlevel hheld horder))
    rw [serveWrite_request, event_of_done hjudge] at hexec
    generalize requestWord 6 tag arg = w at hexec
    have acted := doneEvent_acted (s := s) (w := w) (g := adjustChannel i)
    have changed : SameBut [] (changeChannel i (fun c => { c with waiting := some s.staged.channels[i] }) (begun w s))
        (doneEvent w (adjustChannel i) s) := (adjustmentRecord_within _ _ _).1.trans acted
    have hchannels : (doneEvent w (adjustChannel i) s).channels
        = modifyAt s.channels i (fun c => { c with waiting := some s.staged.channels[i] }) := changed.channels
    refine ⟨_, hexec, ?_, fun j hj => ?_, changed.rate, doneEvent_sameBut ?_⟩
    · rw [hchannels, modifyAt_at]
    · rw [hchannels]
      exact modifyAt_other _ _ hj
    · exact (changeChannel_within i _ _).1.trans (adjustmentRecord_within _ _ _).1.wide
  · intro tag s hrun hlevel
    have hexec : exec (.applyAdjustment tag 0xFF) s = .next (serveWrite s.strap (requestAccess s 6 tag 0xFF) s) := rfl
    have hjudge := (judge_adjust tag 0xFF (s := begun (requestWord 6 tag 0xFF) s) hrun s.strap).trans
      (requestAdjust_periods (s := begun (requestWord 6 tag 0xFF) s) hlevel)
    rw [serveWrite_request, event_of_done hjudge] at hexec
    generalize requestWord 6 tag 0xFF = w at hexec
    have acted := (adjustmentRecord_within 0xFF [] _).1.trans (doneEvent_acted (s := s) (w := w) (g := adjustPeriods))
    obtain ⟨hremote, hrepeat, hended, hcause, halerts⟩ := acted.level
    obtain ⟨hconsume, hpatrol, hcounters⟩ := acted.fault
    refine ⟨_, hexec, acted.rate, hrepeat, hpatrol, acted.channels, hremote, hended, hcause, halerts, hconsume, hcounters,
      doneEvent_sameBut ?_⟩
    refine SameBut.trans ?_ (adjustmentRecord_within 0xFF [] _).1.wide
    simp [SameBut, SameBase, SameLevel, SameRoad, SameFault, SamePath]

end Sys2Proof.Machine
end

section
/-! PROOFS. The call unit: a call closed, opened, refreshed, pre-empted and silent, and the distress list (R115 to R128). -/

set_option Elab.async false

namespace Sys2Proof.Machine

open Sys2Proof.Config

/-! ## A frame's event and a timer's event -/

section
variable {s : State} {f : State → State}

/-- What every turn of a loop keeps, and what each index's own turn brings and the others keep, holds of every index at the end. -/
theorem forEach_each_of {σ : Type} {n : Nat} {f : Fin n → σ → σ} {P : σ → Prop} (Q : Fin n → σ → Prop)
    (hkept : ∀ i s, P s → P (f i s)) (hone : ∀ i s, P s → Q i (f i s)) (hkeep : ∀ i j s, P s → Q j s → Q j (f i s)) (s : σ)
    (h : P s) (j : Fin n) : Q j (forEach n f s) := by
  have hmem : j ∈ List.finRange n := List.mem_finRange j
  unfold forEach
  revert s h hmem
  generalize List.finRange n = l
  intro s h hmem
  induction l generalizing s with
  | nil => cases hmem
  | cons i rest ih =>
    rcases List.mem_cons.mp hmem with rfl | hrest
    · exact (foldl_keeps (fun t => P t ∧ Q j t) (fun s i ht => ⟨hkept i s ht.1, hkeep i j s ht.1 ht.2⟩) rest _
        ⟨hkept j s h, hone j s h⟩).2
    · exact ih _ (hkept i s h) hrest

/-- An action that leaves the level, the cause and the muster summary lets the summary go on (R61). -/
theorem event_musterGoesOn {o : List Opening} (hrun : s.run = true) (hw : Works o (beginEvent s) (f (beginEvent s)))
    (hl : .level ∉ o := by decide) (hc : .cause ∉ o := by decide) : MusterGoesOn s (event f s) := by
  refine musterGoesOn_of (fun c hlevel hcause => event_evacuating ?_) (fun hlevel hcause hno => event_below ?_)
  · exact ⟨hw.run.trans hrun, (hw.level hl).1.trans hlevel, (hw.cause hc).1.trans hcause, by rw [(hw.level hl).2]; rfl,
      by rw [(hw.level hl).2]; rfl⟩
  · have began : Below s.level.muster s.level.ownSeq (beginEvent s) := ⟨hno, hcause, hlevel, rfl, rfl⟩
    exact began.works hw hl hc

/-- The state in which a receiving unit takes the frame `f`. -/
def handed (f : Frame) (s : State) : State := beginEvent (clearHandover f s)

theorem clearHandover_beginEvent (f : Frame) (s : State) : clearHandover f (beginEvent s) = handed f s := by
  unfold handed clearHandover
  rw [beginEvent_frame]
  split
  · rfl
  · rfl

theorem handed_sameBut (f : Frame) (s : State) : SameBut [] (clearHandover f s) (handed f s) := beginEvent_sameBut _

theorem handed_of (f : Frame) (s : State) : SameBut [.frame] s (handed f s) :=
  (clearHandover_within f s).1.next (handed_sameBut f s)

theorem handed_works (f : Frame) (s : State) : Works [] (beginEvent s) (handed f s) := by
  rw [← clearHandover_beginEvent]
  exact clearHandover_works f _

/-- The ring unit, the level unit and the roads, as a frame's unit finds them. -/
theorem handed_units (f : Frame) (s : State) : (handed f s).ring = { s.ring with requests := [] }
    ∧ (handed f s).level = (beginEvent s).level ∧ (handed f s).road = (beginEvent s).road ∧ (handed f s).fault = (beginEvent s).fault := by
  rw [← clearHandover_beginEvent]
  unfold clearHandover
  split
  · exact ⟨rfl, rfl, rfl, rfl⟩
  · exact ⟨rfl, rfl, rfl, rfl⟩

theorem handed_eq (f : Frame) (s : State) : ∃ u, handed f s = { beginEvent s with frame := u } := by
  rw [← clearHandover_beginEvent]
  unfold clearHandover
  split
  · exact ⟨_, rfl⟩
  · exact ⟨_, rfl⟩

/-- The event in which the unit of the frame `f` takes it. -/
def frameTaken (f : Frame) (s : State) : State := event (fun u => takeFrame f (clearHandover f u)) s

theorem frameEvent_defined {f : Frame} (hrun : s.run = true) (hdef : Frame.defined f = true) : frameEvent f s = frameTaken f s := by
  unfold frameEvent runEvent frameTaken
  rw [if_pos hrun]
  exact event_congr (if_pos hdef)

theorem frameTaken_acted (f : Frame) (s : State) : SameBut [] (takeFrame f (handed f s)) (frameTaken f s) := by
  rw [← clearHandover_beginEvent]
  exact event_sameBut_acted _ s

theorem frameTaken_sameBut {f : Frame} {l : List Area} (h : SameBut l (handed f s) (takeFrame f (handed f s))) :
    SameBut l (clearHandover f s) (frameTaken f s) :=
  ((handed_sameBut f s).mono (by simp)).trans (h.trans ((frameTaken_acted f s).mono (by simp)))

theorem frameTaken_musterGoesOn {f : Frame} {o : List Opening} (hrun : s.run = true)
    (hw : Works o (handed f s) (takeFrame f (handed f s))) (hl : .level ∉ o := by decide) (hc : .cause ∉ o := by decide) :
    MusterGoesOn s (frameTaken f s) := by
  refine event_musterGoesOn (o := o) hrun ?_ hl hc
  rw [clearHandover_beginEvent]
  exact (handed_works f s).wide (by simp) |>.trans hw

end

/-! ## A call that leaves the table -/

section
variable {s : State} {p : Fin 8} {c : Call} {id : CallId}

theorem callPosition_some (h : callPosition s id = some p) : ∃ c, s.call.table[p] = some c ∧ c.id = id := by
  have hid := (findIndex_some h).1
  cases hc : s.call.table[p] with
  | none =>
    rw [hc] at hid
    cases hid
  | some c =>
    rw [hc] at hid
    exact ⟨c, rfl, eq_of_beq hid⟩

/-- The call unit without the call at a position. -/
def withoutCall (p : Fin 8) (u : CallUnit) : CallUnit := { u with table := u.table.set p none, order := u.order.filter (· ≠ p) }

theorem freeCall_call (p : Fin 8) (id : CallId) (s : State) : (freeCall p id s).call = withoutCall p s.call := rfl

theorem freeCall_departs (p : Fin 8) (id : CallId) (s : State) : FramesDepart id s (freeCall p id s) :=
  fun n => tabulate_get (fun n => s.ring.departed[n] || callInFlight s id n) n

theorem closeCall_some (hp : s.call.table[p] = some c) (reason : Nat) :
    SameBut [] (freeCall p c.id s) (closeCall p reason s) := by
  unfold closeCall
  simp only [hp]
  exact (addRecord_within _ _ _ _).1

theorem closeCall_call (hp : s.call.table[p] = some c) (reason : Nat) :
    (closeCall p reason s).call = withoutCall p s.call := (closeCall_some hp reason).call

theorem FramesDepart.congr {t u : State} (h : FramesDepart id s t) (hdep : u.ring.departed = t.ring.departed) :
    FramesDepart id s u := by
  intro n
  rw [hdep]
  exact h n

/-- The frames that depart are those that the state before the event's beginning has in flight. -/
theorem FramesDepart.of_ring {r t : State} (h : FramesDepart id r t) (hdep : r.ring.departed = s.ring.departed)
    (hshadows : r.ring.shadows = s.ring.shadows) : FramesDepart id s t := by
  intro n
  have hn := h n
  rw [hdep] at hn
  unfold callInFlight at hn ⊢
  rw [hshadows] at hn
  exact hn

theorem closeCall_departs (hp : s.call.table[p] = some c) (reason : Nat) : FramesDepart c.id s (closeCall p reason s) :=
  (freeCall_departs p c.id s).congr (closeCall_some hp reason).departed

theorem countCall_eq (g : CallUnit → CallUnit) (s : State) :
    (countCall g s).call = g s.call ∧ (countCall g s).ring = s.ring := ⟨rfl, rfl⟩

/-! ## An activity, and a call admitted -/

theorem callActivity_some (hp : s.call.table[p] = some c) :
    callActivity p s = setCall p (some { c with last := s.time, silence := silenceStart s }) s := by
  unfold callActivity
  simp only [hp]

/-- The entry of a call newly admitted (R118). -/
def newCall (id : CallId) (miner : Id) (origin : CallOrigin) (priority : Priority) (s : State) : Call :=
  { id := id, miner := miner, origin := origin, priority := priority, opened := s.time, last := s.time, silence := silenceStart s }

theorem admitCall_call (p : Fin 8) (id : CallId) (m : Id) (o : CallOrigin) (q : Priority) (s : State) :
    (admitCall p id m o q s).call
        = { s.call with table := s.call.table.set p (some (newCall id m o q s)), order := s.call.order ++ [p] }
      ∧ (admitCall p id m o q s).ring = s.ring := ⟨rfl, rfl⟩

/-! ## Priorities derived again -/

/-- A call with its priority as R116 gives it: a fall from DISTRESS restarts the silence timer (R120). -/
def rederived (s : State) (c : Call) : Call :=
  { c with
    priority := priorityOf s c.id c.miner c.origin
    silence := if c.priority = .distress ∧ priorityOf s c.id c.miner c.origin ≠ .distress then silenceStart s else c.silence }

theorem rederived_of_same (h : priorityOf s c.id c.miner c.origin = c.priority) : rederived s c = c := by
  have hno : ¬(c.priority = .distress ∧ c.priority ≠ .distress) := fun hc => hc.2 hc.1
  unfold rederived
  rw [h, if_neg hno]

theorem rederived_rederived (s : State) (c : Call) : rederived s (rederived s c) = rederived s c :=
  rederived_of_same (c := rederived s c) rfl

theorem rederived_twice (s : State) (o : Option Call) : (o.map (rederived s)).map (rederived s) = o.map (rederived s) := by
  rw [Option.map_map]
  exact congrArg (Option.map · o) (funext (rederived_rederived s))

/-- `t` follows from `s` by priorities derived again: each call stands as it was or as R116 gives it. -/
structure Rederives (s t : State) : Prop where
  call : t.call = { s.call with table := t.call.table }
  same : t.effective = s.effective
  departed : t.ring.departed = s.ring.departed
  each : ∀ q : Fin 8, t.call.table[q] = s.call.table[q] ∨ t.call.table[q] = s.call.table[q].map (rederived s)

theorem Rederives.refl (s : State) : Rederives s s := ⟨rfl, rfl, rfl, fun _ => .inl rfl⟩

theorem Rederives.priority {t : State} (h : Rederives s t) (i : CallId) (m : Id) (o : CallOrigin) :
    priorityOf t i m o = priorityOf s i m o := by
  have hdistress : t.call.distress = s.call.distress := by rw [h.call]
  unfold priorityOf
  rw [hdistress]

theorem Rederives.alike {t : State} (h : Rederives s t) : rederived t = rederived s := by
  funext c
  unfold rederived silenceStart
  rw [h.priority, h.same]

/-- One call derived again: the others stay. -/
theorem rederivePriority_at (p : Fin 8) (s : State) :
    (rederivePriority p s).call = { s.call with table := (rederivePriority p s).call.table }
      ∧ (rederivePriority p s).effective = s.effective ∧ (rederivePriority p s).ring.departed = s.ring.departed
      ∧ ∀ q : Fin 8, (rederivePriority p s).call.table[q] = if q = p then s.call.table[q].map (rederived s) else s.call.table[q] := by
  unfold rederivePriority
  split
  · rename_i hp
    refine ⟨rfl, rfl, rfl, fun q => ?_⟩
    split
    · rename_i hq
      rw [hq, hp]
      rfl
    · rfl
  · rename_i c hp
    dsimp only
    split
    · rename_i hsame
      refine ⟨rfl, rfl, rfl, fun q => ?_⟩
      split
      · rename_i hq
        rw [hq, hp, Option.map_some, rederived_of_same hsame]
      · rfl
    · rename_i hnew
      have recorded (k n : Nat) (w : Word) := (addRecord_within k n w s).1
      refine ⟨?_, (recorded _ _ _).effective, (recorded _ _ _).departed, fun q => ?_⟩
      · rw [setCall_call, (recorded _ _ _).call]
      · simp only [setCall_call, (recorded _ _ _).call]
        rw [set_get]
        split
        · rename_i hq
          rw [hq, hp, Option.map_some]
          refine congrArg some ?_
          have hfall : (c.priority = .distress ∧ priorityOf s c.id c.miner c.origin ≠ .distress) ↔ c.priority = .distress :=
            ⟨And.left, fun hd => ⟨hd, fun hn => hnew (hn.trans hd.symm)⟩⟩
          unfold rederived
          simp only [hfall]
        · rfl

theorem Rederives.step {t : State} (h : Rederives s t) (i : Fin 8) : Rederives s (rederivePriority i t) := by
  obtain ⟨hcall, heff, hdep, htable⟩ := rederivePriority_at i t
  have hbefore := h.call
  refine ⟨?_, heff.trans h.same, hdep.trans h.departed, fun q => ?_⟩
  · rw [hcall, hbefore]
  · rw [htable, h.alike]
    split
    · refine .inr ?_
      rcases h.each q with heq | heq
      · rw [heq]
      · rw [heq, rederived_twice]
    · exact h.each q

/-- A call derived again: its own entry stands as R116 gives it. -/
theorem Rederives.own {t : State} (h : Rederives s t) (i : Fin 8) :
    (rederivePriority i t).call.table[i] = s.call.table[i].map (rederived s) := by
  obtain ⟨-, -, -, htable⟩ := rederivePriority_at i t
  rw [htable, if_pos rfl, h.alike]
  rcases h.each i with heq | heq
  · rw [heq]
  · rw [heq, rederived_twice]

theorem Rederives.stays {t : State} (h : Rederives s t) (i j : Fin 8) (hj : t.call.table[j] = s.call.table[j].map (rederived s)) :
    (rederivePriority i t).call.table[j] = s.call.table[j].map (rederived s) := by
  obtain ⟨-, -, -, htable⟩ := rederivePriority_at i t
  rw [htable, h.alike, hj, rederived_twice, ite_self]

/-- Every call derived again (R116). -/
theorem rederivePriorities_rederives (s : State) : Rederives s (rederivePriorities s) :=
  forEach_keeps (Rederives s) (fun i _ h => h.step i) s (.refl s)

theorem rederivePriorities_table (s : State) (q : Fin 8) :
    (rederivePriorities s).call.table[q] = s.call.table[q].map (rederived s) := by
  unfold rederivePriorities
  exact forEach_each_of (f := rederivePriority) (P := Rederives s) (fun j t => t.call.table[j] = s.call.table[j].map (rederived s))
    (fun i _ h => h.step i) (fun i _ h => h.own i) (fun i j _ h hj => h.stays i j hj) s (.refl s) q

theorem rederived_frame (s : State) (c : Call) : (rederived s c).id = c.id ∧ (rederived s c).miner = c.miner
    ∧ (rederived s c).last = c.last := ⟨rfl, rfl, rfl⟩

end

/-! ## A silent call -/

/-- Settles O40: a DISTRESS call's timer expires, any other call closes. -/
theorem callSilenceExpires : Obligations.CallSilenceExpires := by
  intro p c s hrun hp hdue
  have hsilent : silenceDue s p = true := by
    unfold silenceDue
    rw [hp]
    exact hdue
  have hexec : exec (.callSilenceExpiry p) s = .next (expiryEvent (silenceDue s p) (callSilence p) s) := rfl
  rw [expiryEvent_due hrun hsilent] at hexec
  have acted := event_sameBut_acted (callSilence p) s
  have hbegun : (beginEvent s).call.table[p] = some c := hp
  refine ⟨_, hexec, fun hdistress => ?_, fun hother => ?_, ?_⟩
  · have hact : callSilence p (beginEvent s) = setCall p (some { c with silence := .expired }) (beginEvent s) := by
      unfold callSilence
      simp only [hbegun, hdistress, if_true]
    rw [hact] at acted
    exact ⟨acted.call, acted.departed⟩
  · have hact : callSilence p (beginEvent s) = countCall (fun u => { u with silenceCloses := saturate countTop u.silenceCloses })
        (closeCall p 2 (beginEvent s)) := by
      unfold callSilence
      simp only [hbegun, hother, if_false]
    rw [hact] at acted
    refine ⟨?_, ((closeCall_departs hbegun 2).congr acted.departed).of_ring rfl rfl⟩
    rw [acted.call, (countCall_eq _ _).1, closeCall_call hbegun]
    rfl
  · exact (beginEvent_sameBut s).wide.trans ((callSilence_within p _).1.trans acted.wide)

/-! ## The call that a new one pre-empts -/

/-- The least of a bound and the values of a list: below them all, and one of them. -/
theorem foldl_min_spec {α : Type} (g : α → Nat) (l : List α) (k : Nat) :
    (∀ a ∈ l, l.foldl (fun k a => min k (g a)) k ≤ g a) ∧ l.foldl (fun k a => min k (g a)) k ≤ k
      ∧ (l.foldl (fun k a => min k (g a)) k = k ∨ ∃ a ∈ l, g a = l.foldl (fun k a => min k (g a)) k) := by
  induction l generalizing k with
  | nil => exact ⟨by simp, le_refl k, .inl rfl⟩
  | cons b rest ih =>
    obtain ⟨hall, hbound, hone⟩ := ih (min k (g b))
    simp only [List.foldl_cons]
    refine ⟨fun a ha => ?_, hbound.trans (min_le_left k (g b)), ?_⟩
    · rcases List.mem_cons.mp ha with rfl | ha
      · exact hbound.trans (min_le_right k (g a))
      · exact hall a ha
    · rcases hone with hmin | ⟨a, ha, heq⟩
      · rcases min_choice k (g b) with hk | hb
        · exact .inl (hmin.trans hk)
        · exact .inr ⟨b, List.mem_cons_self, (hmin.trans hb).symm⟩
      · exact .inr ⟨a, List.mem_cons_of_mem b ha, heq⟩

section
variable {s : State} {p : Fin 8} {c : Call} {id : CallId} {m : Id} {o : CallOrigin} {priority : Priority}

/-- The lowest priority of a listed call, DISTRESS where none is lower. -/
def lowestPriority (s : State) : Nat :=
  s.call.order.foldl (fun k p => min k (Priority.code (positionPriority s p))) (Priority.code .distress)

theorem lowestPriority_le {q : Fin 8} (hq : q ∈ s.call.order) : lowestPriority s ≤ Priority.code (positionPriority s q) :=
  (foldl_min_spec (fun p => Priority.code (positionPriority s p)) _ _).1 q hq

theorem preemptable_eq (s : State) (priority : Priority) : preemptable s priority
    = if lowestPriority s < Priority.code priority then
        s.call.order.find? (fun p => Priority.code (positionPriority s p) == lowestPriority s)
      else none := rfl

/-- The position pre-empted is the earliest of the lowest priority, which is below the new call's (R118). -/
theorem preemptable_some (h : preemptable s priority = some p) :
    Priority.code (positionPriority s p) < Priority.code priority
      ∧ (∀ q ∈ s.call.order, Priority.code (positionPriority s p) ≤ Priority.code (positionPriority s q))
      ∧ ∃ earlier later, s.call.order = earlier ++ p :: later
        ∧ ∀ q ∈ earlier, Priority.code (positionPriority s p) < Priority.code (positionPriority s q) := by
  rw [preemptable_eq] at h
  split at h
  · rename_i hlow
    obtain ⟨hp, earlier, later, horder, hearlier⟩ := List.find?_eq_some_iff_append.mp h
    have hp : Priority.code (positionPriority s p) = lowestPriority s := eq_of_beq hp
    rw [hp]
    refine ⟨hlow, fun q hq => lowestPriority_le hq, earlier, later, horder, fun q hq => ?_⟩
    have hne : Priority.code (positionPriority s q) ≠ lowestPriority s := by simpa using hearlier q hq
    have hle := lowestPriority_le (s := s) (q := q) (by rw [horder]; exact List.mem_append_left _ hq)
    omega
  · cases h

theorem priority_code_le (q : Priority) : Priority.code q ≤ Priority.code .distress := by cases q <;> decide

/-- Where no position may be pre-empted, no listed call is below the new one's priority (R118). -/
theorem preemptable_none (h : preemptable s priority = none) :
    ∀ q ∈ s.call.order, Priority.code priority ≤ Priority.code (positionPriority s q) := by
  rw [preemptable_eq] at h
  split at h
  · rename_i hlow
    obtain ⟨-, -, hone⟩ := foldl_min_spec (fun p => Priority.code (positionPriority s p)) s.call.order (Priority.code .distress)
    rcases hone with hmax | ⟨q, hq, heq⟩
    · have hle := priority_code_le priority
      have hmax : lowestPriority s = Priority.code .distress := hmax
      omega
    · have heq : Priority.code (positionPriority s q) = lowestPriority s := heq
      exact absurd heq (by simpa using List.find?_eq_none.mp h q hq)
  · exact fun q hq => by
      have hle := lowestPriority_le hq
      omega

theorem preemptable_listed (h : preemptable s priority = some p) : ∃ c, s.call.table[p] = some c := by
  obtain ⟨hlow, -⟩ := preemptable_some h
  have hle := priority_code_le priority
  cases hc : s.call.table[p] with
  | some c => exact ⟨c, rfl⟩
  | none =>
    have hfree : positionPriority s p = .distress := by
      unfold positionPriority
      rw [hc]
    rw [hfree] at hlow
    omega

/-! ## A CALL_OPEN frame -/

/-- A refresh: the call's own entry, and every other as R116 gives it (R117). -/
theorem callOpen_refresh (hp : callPosition s id = some p) (hc : s.call.table[p] = some c) :
    (callOpen id m o s).call = { s.call with table := (callOpen id m o s).call.table }
      ∧ (callOpen id m o s).ring.departed = s.ring.departed
      ∧ ∀ q : Fin 8, (callOpen id m o s).call.table[q] = if q = p
          then some { c with miner := m, origin := o, priority := priorityOf s id m o, last := s.time, silence := silenceStart s }
          else s.call.table[q].map (rederived s) := by
  obtain ⟨d, hd, hid⟩ := callPosition_some hp
  rw [hc] at hd
  cases hd
  have renewed : ∃ u, u = setCall p (some { c with miner := m, origin := o }) s := ⟨_, rfl⟩
  obtain ⟨u, hu⟩ := renewed
  have hopen : callOpen id m o s = callActivity p (rederivePriorities u) := by
    unfold callOpen
    rw [hu]
    simp only [hp, hc]
  have hutable (q : Fin 8) : u.call.table[q] = if q = p then some { c with miner := m, origin := o } else s.call.table[q] := by
    rw [hu]
    exact set_get _ p q _
  have alike : rederived u = rederived s := by
    rw [hu]
    rfl
  have derived := rederivePriorities_rederives u
  have htable (q : Fin 8) : (rederivePriorities u).call.table[q] = u.call.table[q].map (rederived s) := by
    rw [rederivePriorities_table, alike]
  have htime : (rederivePriorities u).time = s.time := ((rederivePriorities_within u).1.time).trans (by rw [hu]; rfl)
  have hown : (rederivePriorities u).call.table[p] = some (rederived s { c with miner := m, origin := o }) := by
    rw [htable, hutable, if_pos rfl]
    rfl
  have hstart : silenceStart (rederivePriorities u) = silenceStart s := by
    unfold silenceStart
    rw [derived.same, hu]
    rfl
  rw [hopen, callActivity_some hown, htime, hstart]
  refine ⟨?_, ?_, fun q => ?_⟩
  · rw [setCall_call, derived.call, hu]
    rfl
  · rw [setCall_ring, derived.departed, hu]
    rfl
  · rw [setCall_call, set_get]
    split
    · rw [← hid]
      rfl
    · rename_i hq
      rw [htable, hutable, if_neg hq]

theorem callOpen_free (hnone : callPosition s id = none) (hp : findIndex s.call.table (fun c => c.isNone) = some p) :
    callOpen id m o s = admitCall p id m o (priorityOf s id m o) s := by
  unfold callOpen
  simp only [hnone, hp]

theorem callOpen_preempts (hnone : callPosition s id = none) (hfull : findIndex s.call.table (fun c => c.isNone) = none)
    (hp : preemptable s (priorityOf s id m o) = some p) :
    callOpen id m o s = admitCall p id m o (priorityOf s id m o) (preemptCall p id s) := by
  unfold callOpen
  simp only [hnone, hfull, hp]

/-- A call refused counts and changes no other part of the call unit (R118). -/
theorem callOpen_refused (hnone : callPosition s id = none) (hfull : findIndex s.call.table (fun c => c.isNone) = none)
    (hp : preemptable s (priorityOf s id m o) = none) :
    (callOpen id m o s).call = { s.call with refused := saturate countTop s.call.refused }
      ∧ (callOpen id m o s).ring.departed = s.ring.departed := by
  have recorded := (addRecord_within recCallRefused id.toNat (detail [detailId m.toNat, (2, Priority.code (priorityOf s id m o))]) s).1
  have hopen : callOpen id m o s = countCall (fun u => { u with refused := saturate countTop u.refused })
      (addRecord recCallRefused id.toNat (detail [detailId m.toNat, (2, Priority.code (priorityOf s id m o))]) s) := by
    unfold callOpen
    simp only [hnone, hfull, hp]
  obtain ⟨hcall, hring⟩ := countCall_eq (fun u => { u with refused := saturate countTop u.refused })
    (addRecord recCallRefused id.toNat (detail [detailId m.toNat, (2, Priority.code (priorityOf s id m o))]) s)
  rw [hopen, hcall, hring, recorded.call]
  exact ⟨rfl, recorded.departed⟩

/-- The pre-empted call leaves its position, which the count says (R118). -/
theorem preemptCall_some (hc : s.call.table[p] = some c) :
    (preemptCall p id s).call = { withoutCall p s.call with preempted := saturate countTop s.call.preempted }
      ∧ FramesDepart c.id s (preemptCall p id s) ∧ (preemptCall p id s).time = s.time
      ∧ (preemptCall p id s).effective = s.effective := by
  have hpre : preemptCall p id s = countCall (fun u => { u with preempted := saturate countTop u.preempted })
      (addRecord recCallPreempted c.id.toNat (detail [(2, Priority.code c.priority), detailTime c.opened, detailId id.toNat])
        (freeCall p c.id s)) := by
    unfold preemptCall
    simp only [hc]
  have freed := (addRecord_within recCallPreempted c.id.toNat
    (detail [(2, Priority.code c.priority), detailTime c.opened, detailId id.toNat]) (freeCall p c.id s)).1
  have whole := (preemptCall_within p id s).1
  refine ⟨?_, ?_, whole.time, whole.effective⟩
  · rw [hpre, (countCall_eq _ _).1, freed.call]
    rfl
  · rw [hpre]
    exact (freeCall_departs p c.id s).congr freed.departed

/-- A call that pre-empts takes the position and stands last in the admission order (R118). -/
theorem callOpen_preempts_call (hnone : callPosition s id = none) (hfull : findIndex s.call.table (fun c => c.isNone) = none)
    (hp : preemptable s (priorityOf s id m o) = some p) (hc : s.call.table[p] = some c) :
    (callOpen id m o s).call = { s.call with
        table := s.call.table.set p (some (newCall id m o (priorityOf s id m o) s)), order := s.call.order.filter (· ≠ p) ++ [p],
        preempted := saturate countTop s.call.preempted }
      ∧ FramesDepart c.id s (callOpen id m o s) := by
  obtain ⟨hcall, hdepart, htime, heff⟩ := preemptCall_some (id := id) hc
  rw [callOpen_preempts hnone hfull hp]
  obtain ⟨hadmit, hring⟩ := admitCall_call p id m o (priorityOf s id m o) (preemptCall p id s)
  refine ⟨?_, hdepart.congr (by rw [hring])⟩
  have hentry : newCall id m o (priorityOf s id m o) (preemptCall p id s) = newCall id m o (priorityOf s id m o) s := by
    unfold newCall silenceStart
    rw [htime, heff]
  rw [hadmit, hcall, hentry]
  unfold withoutCall
  simp only [Vector.set_set]

/-! ## CALL_CLOSE and VOICE frames -/

theorem callClose_some (hp : callPosition s id = some p) :
    (callClose id s).call = withoutCall p s.call ∧ FramesDepart id s (callClose id s) := by
  obtain ⟨c, hc, rfl⟩ := callPosition_some hp
  have hclose : callClose c.id s = closeCall p 1 s := by
    unfold callClose
    simp only [hp]
  rw [hclose]
  exact ⟨closeCall_call hc 1, closeCall_departs hc 1⟩

theorem callClose_none (hp : callPosition s id = none) : callClose id s = s := by
  unfold callClose
  simp only [hp]

theorem callVoice_some (hp : callPosition s id = some p) (hc : s.call.table[p] = some c) :
    callVoice id s = setCall p (some { c with last := s.time, silence := silenceStart s }) s := by
  unfold callVoice
  simp only [hp, callActivity_some hc]

theorem callVoice_none (hp : callPosition s id = none) : callVoice id s = s := by
  unfold callVoice
  simp only [hp]

theorem callVoice_departed (id : CallId) (s : State) : (callVoice id s).ring.departed = s.ring.departed := by
  cases hp : callPosition s id with
  | none => rw [callVoice_none hp]
  | some p =>
    obtain ⟨c, hc, -⟩ := callPosition_some hp
    rw [callVoice_some hp hc]
    rfl

end

/-- Settles O45: each case of a CALL_OPEN, and what a CALL_CLOSE and a VOICE leave. -/
theorem callFramesTaken : Obligations.CallFramesTaken := by
  refine ⟨?_, ?_, ?_⟩
  · intro call miner origin s hrun hdef
    have hexec : exec (.callOpen call miner origin) s = .next (frameEvent (.callOpen call miner origin) s) := rfl
    rw [frameEvent_defined hrun hdef] at hexec
    have acted := frameTaken_acted (.callOpen call miner origin) s
    have rest := frameTaken_sameBut (callOpen_within call miner origin (handed (.callOpen call miner origin) s)).1
    obtain ⟨u, hu⟩ := handed_eq (.callOpen call miner origin) s
    generalize frameTaken (.callOpen call miner origin) s = t at hexec acted rest
    rw [hu] at acted
    have acted : SameBut [] (callOpen call miner origin { beginEvent s with frame := u }) t := acted
    refine ⟨t, hexec, ⟨fun p c hp hc => ?_, fun p hnone hp => ?_, fun p hnone hfull hp => ?_, fun hnone hfull hp => ?_⟩, fun h => ?_,
      rest⟩
    · obtain ⟨hcall, -, htable⟩ := callOpen_refresh (s := { beginEvent s with frame := u }) (m := miner) (o := origin) hp hc
      rw [← acted.call] at hcall htable
      refine ⟨hcall, (htable p).trans (if_pos rfl), fun q hq => (htable q).trans ((if_neg hq).trans rfl)⟩
    · rw [callOpen_free (s := { beginEvent s with frame := u }) hnone hp] at acted
      exact acted.call
    · obtain ⟨c, hc⟩ := preemptable_listed hp
      obtain ⟨hcall, hdepart⟩ := callOpen_preempts_call (s := { beginEvent s with frame := u }) hnone hfull hp hc
      obtain ⟨hlow, hleast, hfirst⟩ := preemptable_some hp
      refine ⟨hlow, hleast, hfirst, acted.call.trans hcall, fun d hd => ?_⟩
      rw [hc] at hd
      cases hd
      exact (hdepart.congr acted.departed).of_ring rfl rfl
    · obtain ⟨hcall, -⟩ := callOpen_refused (s := { beginEvent s with frame := u }) hnone hfull hp
      exact ⟨preemptable_none hp, acted.call.trans hcall⟩
    · refine acted.departed.trans ?_
      cases hp : callPosition s call with
      | some p =>
        obtain ⟨c, hc, -⟩ := callPosition_some hp
        exact (callOpen_refresh (s := { beginEvent s with frame := u }) (m := miner) (o := origin) hp hc).2.1
      | none =>
        cases hfree : findIndex s.call.table (fun c => c.isNone) with
        | some p =>
          rw [callOpen_free (s := { beginEvent s with frame := u }) hp hfree]
          rfl
        | none =>
          have hrefused : preemptable s (priorityOf s call miner origin) = none :=
            (h.resolve_left (fun hn => hn hp)).resolve_left (fun hn => hn hfree)
          exact (callOpen_refused (s := { beginEvent s with frame := u }) hp hfree hrefused).2
  · intro call s hrun hcall
    have hexec : exec (.callClose call) s = .next (frameEvent (.callClose call) s) := rfl
    rw [frameEvent_defined hrun (by simpa [Frame.defined] using hcall)] at hexec
    have acted := frameTaken_acted (.callClose call) s
    have rest := frameTaken_sameBut (callClose_within call (handed (.callClose call) s)).1
    obtain ⟨u, hu⟩ := handed_eq (.callClose call) s
    generalize frameTaken (.callClose call) s = t at hexec acted rest
    rw [hu] at acted
    have acted : SameBut [] (callClose call { beginEvent s with frame := u }) t := acted
    refine ⟨t, hexec, fun p hp => ?_, fun hp => ?_, rest⟩
    · obtain ⟨hclosed, hdepart⟩ := callClose_some (s := { beginEvent s with frame := u }) hp
      exact ⟨acted.call.trans hclosed, (hdepart.congr acted.departed).of_ring rfl rfl⟩
    · rw [callClose_none (s := { beginEvent s with frame := u }) hp] at acted
      exact ⟨acted.call, acted.departed⟩
  · intro call s hrun hcall
    have hexec : exec (.voice call) s = .next (frameEvent (.voice call) s) := rfl
    rw [frameEvent_defined hrun (by simpa [Frame.defined] using hcall)] at hexec
    have acted := frameTaken_acted (.voice call) s
    have rest := frameTaken_sameBut (callVoice_within call (handed (.voice call) s)).1
    obtain ⟨u, hu⟩ := handed_eq (.voice call) s
    generalize frameTaken (.voice call) s = t at hexec acted rest
    rw [hu] at acted
    have acted : SameBut [] (callVoice call { beginEvent s with frame := u }) t := acted
    refine ⟨t, hexec, fun p c hp hc => ?_, fun hp => ?_, acted.departed.trans (callVoice_departed _ _), rest⟩
    · rw [callVoice_some (s := { beginEvent s with frame := u }) hp hc] at acted
      exact acted.call
    · rw [callVoice_none (s := { beginEvent s with frame := u }) hp] at acted
      exact acted.call

/-! ## The distress list -/

section
variable {s : State} {m : Id} {id : CallId} {n : NodeId}

/-- A listed miner's entry refreshed (R125). -/
def refreshed (m : Id) (id : CallId) (d : Distress) (now : Time) (e : Distress) : Distress :=
  if e.miner = m then { e with last := now, call := if id = 0 then d.call else some id } else e

theorem refreshDistress_eq (m : Id) (id : CallId) (d : Distress) (s : State) : refreshDistress m id d s
    = if (if id = 0 then d.call else some id) = d.call then setDistress (s.call.distress.map (refreshed m id d s.time)) s
      else rederivePriorities (setDistress (s.call.distress.map (refreshed m id d s.time)) s) := rfl

/-- `t` is `s` but for the distress list `l`, the priorities and the silence timers. -/
structure Lists (l : List Distress) (s t : State) : Prop where
  call : t.call = { s.call with distress := l, table := t.call.table }
  callers : ∀ p : Fin 8, t.call.table[p].map (fun c => (c.id, c.miner, c.last)) = s.call.table[p].map (fun c => (c.id, c.miner, c.last))
  departed : t.ring.departed = s.ring.departed

theorem Lists.then_same {l : List Distress} {t u : State} (h : Lists l s t) (hu : SameBut [] t u) : Lists l s u := by
  refine ⟨?_, fun p => ?_, hu.departed.trans h.departed⟩
  · rw [hu.call]
    exact h.call
  · rw [hu.call]
    exact h.callers p

theorem Lists.then_leveled {l : List Distress} {t u : State} (h : Lists l s t) (hu : SameBut [.level] t u) : Lists l s u := by
  refine ⟨?_, fun p => ?_, hu.departed.trans h.departed⟩
  · rw [hu.call]
    exact h.call
  · rw [hu.call]
    exact h.callers p

theorem Lists.rederived {l : List Distress} {t : State} (h : Lists l s t) : Lists l s (rederivePriorities t) := by
  have derived := rederivePriorities_rederives t
  have hbefore := h.call
  refine ⟨?_, fun p => ?_, derived.departed.trans h.departed⟩
  · rw [derived.call, hbefore]
  · rw [rederivePriorities_table, Option.map_map]
    exact h.callers p

theorem setDistress_lists (l : List Distress) (s : State) : Lists l s (setDistress l s) := ⟨rfl, fun _ => rfl, rfl⟩

theorem removeDistress_lists (m : Id) (s : State) :
    Lists (s.call.distress.filter (fun e => e.miner != m)) s (removeDistress m s) := ⟨rfl, fun _ => rfl, rfl⟩

theorem refreshDistress_lists (m : Id) (id : CallId) (d : Distress) (s : State) :
    Lists (s.call.distress.map (refreshed m id d s.time)) s (refreshDistress m id d s) := by
  have listed := setDistress_lists (s.call.distress.map (refreshed m id d s.time)) s
  rw [refreshDistress_eq]
  by_cases hsame : (if id = 0 then d.call else some id) = d.call
  · rw [if_pos hsame]
    exact listed
  · rw [if_neg hsame]
    exact listed.rederived

/-- The entry of a miner newly listed (R125). -/
def newDistress (m : Id) (id : CallId) (n : NodeId) (now : Time) : Distress :=
  { miner := m, node := n, first := now, last := now, call := callField id }

/-- A miner newly listed stands last, and brings the distress member where it is the first (R125). -/
theorem addDistress_lists (m : Id) (id : CallId) (n : NodeId) (s : State) :
    Lists (s.call.distress ++ [newDistress m id n s.time]) s (addDistress m id n s)
      ∧ (s.call.distress = [] → AlertMember.distress ∈ (addDistress m id n s).level.alerts) := by
  have listed := ((setDistress_lists (s.call.distress ++ [newDistress m id n s.time]) s).then_same
    (addRecord_within recDistressAdded m.toNat (distressDetail n id) _).1).rederived
  have hadd (t : State) (ht : t = rederivePriorities (addRecord recDistressAdded m.toNat (distressDetail n id)
      (setDistress (s.call.distress ++ [newDistress m id n s.time]) s))) :
      addDistress m id n s = requestRelay m s.time n (if s.call.distress.isEmpty then joinAlert .distress t else t) := by
    rw [ht]
    rfl
  rw [hadd _ rfl]
  generalize rederivePriorities (addRecord recDistressAdded m.toNat (distressDetail n id)
    (setDistress (s.call.distress ++ [newDistress m id n s.time]) s)) = t at listed
  refine ⟨Lists.then_same ?_ (requestFrame_within _ _).1, fun hempty => ?_⟩
  · split
    · exact listed.then_leveled (joinAlert_within _ _).1
    · exact listed
  · rw [hempty, List.isEmpty_nil, if_pos rfl, requestRelay, requestFrame_level]
    exact mem_joinAlert.mpr (.inl rfl)

theorem overflowDistress_call (m : Id) (id : CallId) (n : NodeId) (s : State) :
    (overflowDistress m id n s).call = { s.call with overflow := saturate countTop s.call.overflow }
      ∧ (overflowDistress m id n s).ring.departed = s.ring.departed := by
  have recorded := (addRecord_within recDistressOverflow m.toNat (distressDetail n id) s).1
  unfold overflowDistress
  dsimp only
  rw [requestRelay, (requestFrame_within _ _).1.call, (requestFrame_within _ _).1.departed, reportChanged_call, reportChanged_ring]
  rw [recorded.call]
  exact ⟨rfl, recorded.departed⟩

theorem distressOf_none_iff : distressOf s m = none ↔ ∀ d ∈ s.call.distress, d.miner ≠ m := by
  simp [distressOf, List.find?_eq_none]

theorem callDistress_listed {d : Distress} (h : distressOf s m = some d) : callDistress m id n s = refreshDistress m id d s := by
  unfold callDistress
  simp only [h]

theorem callDistress_added (h : distressOf s m = none) (hroom : s.call.distress.length < 8) :
    callDistress m id n s = addDistress m id n s := by
  unfold callDistress
  simp only [h]
  exact if_pos hroom

theorem callDistress_full (h : distressOf s m = none) (hfull : 8 ≤ s.call.distress.length) :
    callDistress m id n s = overflowDistress m id n s := by
  unfold callDistress
  simp only [h]
  exact if_neg (not_lt.mpr hfull)

/-- A DISTRESS frame leaves the callers, the admission order and which frames have departed. -/
theorem callDistress_callers (m : Id) (id : CallId) (n : NodeId) (s : State) :
    (∀ p : Fin 8, (callDistress m id n s).call.table[p].map (fun c => (c.id, c.miner, c.last))
        = s.call.table[p].map (fun c => (c.id, c.miner, c.last)))
      ∧ (callDistress m id n s).call.order = s.call.order ∧ (callDistress m id n s).ring.departed = s.ring.departed := by
  have of_lists {l : List Distress} {t : State} (h : Lists l s t) :
      (∀ p : Fin 8, t.call.table[p].map (fun c => (c.id, c.miner, c.last)) = s.call.table[p].map (fun c => (c.id, c.miner, c.last)))
        ∧ t.call.order = s.call.order ∧ t.ring.departed = s.ring.departed :=
    ⟨h.callers, by rw [h.call], h.departed⟩
  cases hd : distressOf s m with
  | some d =>
    rw [callDistress_listed hd]
    exact of_lists (refreshDistress_lists m id d s)
  | none =>
    by_cases hroom : s.call.distress.length < 8
    · rw [callDistress_added hd hroom]
      exact of_lists (addDistress_lists m id n s).1
    · rw [callDistress_full hd (not_lt.mp hroom)]
      obtain ⟨hcall, hdep⟩ := overflowDistress_call m id n s
      rw [hcall]
      exact ⟨fun _ => rfl, rfl, hdep⟩

/-- A cleared entry leaves the list, and the distress member with the last one (R128). -/
theorem clearDistress_lists (d : Distress) (s : State) :
    Lists (s.call.distress.filter (fun e => e.miner != d.miner)) s (clearDistress d s)
      ∧ (s.call.distress.filter (fun e => e.miner != d.miner) = [] → AlertMember.distress ∉ (clearDistress d s).level.alerts) := by
  have listed := (((removeDistress_lists d.miner s).then_same
    (addRecord_within recDistressCleared d.miner.toNat (detail [detailTime d.first]) _).1).then_same
    (withdrawFrames_within (PartFrame.relays d.miner) _).1).rederived
  have hclear (t : State) (ht : t = rederivePriorities (withdrawFrames (PartFrame.relays d.miner)
      (addRecord recDistressCleared d.miner.toNat (detail [detailTime d.first]) (removeDistress d.miner s)))) :
      clearDistress d s = if t.call.distress.isEmpty then leaveAlert .distress t else t := by
    rw [ht]
    rfl
  rw [hclear _ rfl]
  generalize rederivePriorities (withdrawFrames (PartFrame.relays d.miner)
    (addRecord recDistressCleared d.miner.toNat (detail [detailTime d.first]) (removeDistress d.miner s))) = t at listed
  have hlist : t.call.distress = s.call.distress.filter (fun e => e.miner != d.miner) := by rw [listed.call]
  rw [hlist]
  refine ⟨?_, fun hempty => ?_⟩
  · split
    · exact listed.then_leveled (leaveAlert_within _ _).1
    · exact listed
  · rw [hempty, List.isEmpty_nil, if_pos rfl]
    exact fun hm => (mem_leaveAlert.mp hm).1 rfl

end

/-- Settles O46: the three cases of a DISTRESS frame. -/
theorem distressTaken : Obligations.DistressTaken := by
  intro miner call node s hrun hminer hnode
  have hdef : Frame.defined (.distress miner call node) = true := by
    unfold Frame.defined
    simp only [hnode, Bool.and_true, bne_iff_ne, ne_eq]
    exact hminer
  have hexec : exec (.distress miner call node) s = .next (frameEvent (.distress miner call node) s) := rfl
  rw [frameEvent_defined hrun hdef] at hexec
  have acted := frameTaken_acted (.distress miner call node) s
  have rest := frameTaken_sameBut (callDistress_within miner call node (handed (.distress miner call node) s)).1
  have muster := frameTaken_musterGoesOn (f := .distress miner call node) (o := [.relays]) hrun
    (callDistress_works miner call node (handed (.distress miner call node) s))
  obtain ⟨u, hu⟩ := handed_eq (.distress miner call node) s
  generalize frameTaken (.distress miner call node) s = t at hexec acted rest muster
  rw [hu] at acted
  have acted : SameBut [] (callDistress miner call node { beginEvent s with frame := u }) t := acted
  obtain ⟨hcallers, horder, hdeparted⟩ := callDistress_callers miner call node { beginEvent s with frame := u }
  have hcall := acted.call
  refine ⟨t, hexec, fun hlisted => ?_, fun hnew hroom => ?_, fun hnew hfull => ?_, fun p => ?_, ?_, acted.departed.trans hdeparted,
    muster, rest⟩
  · obtain ⟨d, hd⟩ : ∃ d, distressOf s miner = some d := by
      refine Option.ne_none_iff_exists'.mp fun hnone => ?_
      obtain ⟨e, he, hm⟩ := hlisted
      exact distressOf_none_iff.mp hnone e he hm
    have hdm : d.miner = miner := by simpa using List.find?_some (p := fun d : Distress => d.miner == miner) hd
    rw [callDistress_listed (s := { beginEvent s with frame := u }) hd,
      (refreshDistress_lists miner call d { beginEvent s with frame := u }).call] at hcall
    have hlist : t.call.distress = s.call.distress.map (refreshed miner call d s.time) := by rw [hcall]; rfl
    have hover : t.call.overflow = s.call.overflow := by rw [hcall]; rfl
    refine ⟨hover, by rw [hlist, List.length_map], fun k e he hm => ?_, fun k e he hfound => ?_⟩
    · rw [hlist, List.getElem?_map, he, Option.map_some, refreshed, if_neg hm]
    · rw [hd] at hfound
      cases hfound
      rw [hlist, List.getElem?_map, he, Option.map_some, refreshed, if_pos hdm]
  · have hnone := distressOf_none_iff.mpr hnew
    obtain ⟨lists, halert⟩ := addDistress_lists miner call node { beginEvent s with frame := u }
    rw [callDistress_added (s := { beginEvent s with frame := u }) hnone hroom] at acted hcall
    rw [lists.call] at hcall
    obtain ⟨-, -, -, -, hsettled⟩ := acted.level
    exact ⟨by rw [hcall]; rfl, by rw [hcall]; rfl, fun hempty => (hsettled _ rfl).mpr (halert hempty)⟩
  · have hnone := distressOf_none_iff.mpr hnew
    rw [callDistress_full (s := { beginEvent s with frame := u }) hnone hfull, (overflowDistress_call _ _ _ _).1] at hcall
    exact hcall
  · rw [hcall]
    exact hcallers p
  · rw [hcall]
    exact horder

end Sys2Proof.Machine
end

section
/-! PROOFS. The refuge unit: check-in, check-out and the timers of a chamber (R154 to R162); and the requests that take something
listed away (R122, R128, R156). -/

set_option Elab.async false

namespace Sys2Proof.Machine

open Sys2Proof.Config

/-! ## What a derivation changes in the chambers -/

section
variable {s : State} {c : Fin 4}

/-- The alarm and the reasons of a chamber as R161 gives them. -/
def alarmed (s : State) (c : Fin 4) (h : Chamber) : Chamber :=
  { h with alarm := occupied s.chambers[c] && anyReason (standingReasons s c), reasons := standingReasons s c }

theorem alarmed_congr {t : State} (hair : t.channels = s.channels) (heff : t.effective = s.effective)
    (hchambers : t.chambers = s.chambers) : alarmed t c = alarmed s c := by
  funext h
  unfold alarmed standingReasons channelAlarms
  simp only [hair, heff, hchambers]

theorem deriveAlarm_chambers (c : Fin 4) (s : State) :
    (deriveAlarm c s).chambers = if chamberId s c = 0 then s.chambers else modifyAt s.chambers c (alarmed s c) := by
  unfold deriveAlarm
  dsimp only
  split
  · rfl
  · split
    · rw [requestFrame_chambers, (joinAlert_within _ _).1.chambers, (addRecord_within _ _ _ _).1.chambers]
      rfl
    · split
      · rw [(leaveAlert_within _ _).1.chambers, (addRecord_within _ _ _ _).1.chambers]
        rfl
      · rfl

theorem deriveAlarm_other {d : Fin 4} (h : d ≠ c) : (deriveAlarm c s).chambers[d] = s.chambers[d] := by
  simp only [deriveAlarm_chambers]
  split
  · rfl
  · exact modifyAt_other _ _ h

theorem deriveAlarm_own (h : s.effective.chambers[c].id ≠ 0) : (deriveAlarm c s).chambers[c] = alarmed s c s.chambers[c] := by
  simp only [deriveAlarm_chambers, if_neg (show chamberId s c ≠ 0 from h)]
  rw [modifyAt_at]

/-- The count mismatch flag of a chamber as R158 gives it. -/
def mismatchOf (h : Chamber) : Bool :=
  match h.headcount with | some n => n.toNat != chamberCount h | none => false

theorem deriveMismatch_at (c d : Fin 4) (s : State) : (deriveMismatch c s).chambers[d]
    = if d = c then { s.chambers[c] with mismatch := mismatchOf s.chambers[c] } else s.chambers[d] := by
  have hflag : deriveMismatch c s = if mismatchOf s.chambers[c] = s.chambers[c].mismatch then s else
      addRecord recCountMismatch (chamberId s c).toNat (detail [(1, (mismatchOf s.chambers[c]).toNat),
        (16, match s.chambers[c].headcount with | some n => n.toNat | none => 0), (16, chamberCount s.chambers[c])])
        (changeChamber c (fun h => { h with mismatch := mismatchOf s.chambers[c] }) s) := rfl
  by_cases hsame : mismatchOf s.chambers[c] = s.chambers[c].mismatch
  · rw [hflag, if_pos hsame]
    split
    · rename_i hd
      rw [hd, hsame]
    · rfl
  · simp only [hflag, if_neg hsame, (addRecord_within _ _ _ _).1.chambers, changeChamber_chambers]
    rw [modifyAt_get]

/-- `t` lists whom `s` lists in every chamber, and only the chambers `cs` have changed otherwise. -/
def ListsAlike (cs : List (Fin 4)) (s t : State) : Prop :=
  ∀ d : Fin 4, t.chambers[d].occupants = s.chambers[d].occupants ∧ t.chambers[d].overflow = s.chambers[d].overflow
    ∧ t.chambers[d].headcount = s.chambers[d].headcount ∧ (d ∉ cs → t.chambers[d] = s.chambers[d])

theorem ListsAlike.refl (cs : List (Fin 4)) (s : State) : ListsAlike cs s s := fun _ => ⟨rfl, rfl, rfl, fun _ => rfl⟩

theorem ListsAlike.trans {cs : List (Fin 4)} {t u : State} (h : ListsAlike cs s t) (k : ListsAlike cs t u) : ListsAlike cs s u := by
  intro d
  obtain ⟨h1, h2, h3, h4⟩ := h d
  obtain ⟨k1, k2, k3, k4⟩ := k d
  exact ⟨k1.trans h1, k2.trans h2, k3.trans h3, fun hd => (k4 hd).trans (h4 hd)⟩

theorem ListsAlike.of_same {l : List Area} {t : State} (cs : List (Fin 4)) (h : SameBut l s t) (hl : .refuge ∉ l := by decide) :
    ListsAlike cs s t := by
  intro d
  rw [h.chambers hl]
  exact ⟨rfl, rfl, rfl, fun _ => rfl⟩

theorem deriveMismatch_alike {cs : List (Fin 4)} (hc : c ∈ cs) (s : State) : ListsAlike cs s (deriveMismatch c s) := by
  intro d
  rw [deriveMismatch_at]
  split
  · rename_i hd
    rw [hd]
    exact ⟨rfl, rfl, rfl, fun hn => absurd hc hn⟩
  · exact ⟨rfl, rfl, rfl, fun _ => rfl⟩

theorem deriveAlarm_alike {cs : List (Fin 4)} (hc : c ∈ cs) (s : State) : ListsAlike cs s (deriveAlarm c s) := by
  intro d
  by_cases hd : d = c
  · by_cases hused : s.effective.chambers[c].id = 0
    · simp only [deriveAlarm_chambers, if_pos (show chamberId s c = 0 from hused)]
      exact ⟨trivial, trivial, trivial, fun _ => trivial⟩
    · rw [hd, deriveAlarm_own hused]
      exact ⟨rfl, rfl, rfl, fun hn => absurd hc hn⟩
  · rw [deriveAlarm_other hd]
    exact ⟨rfl, rfl, rfl, fun _ => rfl⟩

theorem deriveChambers_one (c : Fin 4) (s : State) : ListsAlike [c] s (deriveChambers [c] s) :=
  (deriveMismatch_alike (List.mem_singleton_self c) s).trans (deriveAlarm_alike (List.mem_singleton_self c) _)

theorem deriveChambers_two (b c : Fin 4) (s : State) : ListsAlike [b, c] s (deriveChambers [b, c] s) := by
  have hb : b ∈ [b, c] := by simp
  have hc : c ∈ [b, c] := by simp
  have hderive : deriveChambers [b, c] s = deriveAlarm c (deriveAlarm b (deriveMismatch c (deriveMismatch b s))) := by
    unfold deriveChambers
    simp only [List.foldl_cons, List.foldl_nil]
  have first := (deriveMismatch_alike hb s).trans (deriveMismatch_alike hc _)
  rw [hderive]
  generalize deriveMismatch c (deriveMismatch b s) = u at first
  exact first.trans ((deriveAlarm_alike hb u).trans (deriveAlarm_alike hc _))

/-! ## Listing and removing a miner -/

/-- A chamber that a miner joins, or counts in its overflow (R154). -/
def joined (capacity : Nat) (m : Id) (h : Chamber) : Chamber :=
  if h.occupants.length < capacity then { h with occupants := h.occupants ++ [m] }
  else { h with overflow := saturate 255 h.overflow }

theorem joined_room {capacity : Nat} {m : Id} {h : Chamber} (hroom : h.occupants.length < capacity) :
    (joined capacity m h).occupants = h.occupants ++ [m] ∧ (joined capacity m h).overflow = h.overflow := by
  rw [joined, if_pos hroom]
  exact ⟨rfl, rfl⟩

theorem joined_full {capacity : Nat} {m : Id} {h : Chamber} (hfull : ¬h.occupants.length < capacity) :
    (joined capacity m h).occupants = h.occupants ∧ (joined capacity m h).overflow = saturate 255 h.overflow := by
  rw [joined, if_neg hfull]
  exact ⟨rfl, rfl⟩

theorem joinChamber_at (c : Fin 4) (m : Id) (recorded : Bool) (d : Fin 4) (s : State) : (joinChamber c m recorded s).chambers[d]
    = if d = c then joined s.effective.chambers[c].capacity m s.chambers[c] else s.chambers[d] := by
  unfold joinChamber joined
  dsimp only
  by_cases hroom : s.chambers[c].occupants.length < s.effective.chambers[c].capacity
  · simp only [if_pos hroom]
    split
    · simp only [changeChamber_chambers]
      rw [modifyAt_get]
    · simp only [(addRecord_within _ _ _ _).1.chambers, changeChamber_chambers]
      rw [modifyAt_get]
  · simp only [if_neg hroom, (addRecord_within _ _ _ _).1.chambers, changeChamber_chambers]
    rw [modifyAt_get]

/-- A chamber without a miner. -/
def without (m : Id) (h : Chamber) : Chamber := { h with occupants := h.occupants.filter (· ≠ m) }

theorem removeMiner_at (c : Fin 4) (m : Id) (d : Fin 4) (s : State) : (removeMiner c m s).chambers[d]
    = if d = c then without m s.chambers[c] else s.chambers[d] := modifyAt_get s.chambers c d (without m)

theorem filter_ne_of_not_mem {m : Id} {l : List Id} (h : m ∉ l) : l.filter (· ≠ m) = l := by
  refine List.filter_eq_self.mpr fun a ha => ?_
  simp only [ne_eq, decide_eq_true_eq]
  exact fun heq => h (heq ▸ ha)

theorem listedIn_some {m : Id} (h : listedIn s m = some c) : m ∈ s.chambers[c].occupants := by
  simpa using (findIndex_some h).1

theorem listedIn_none {m : Id} (h : listedIn s m = none) (d : Fin 4) : m ∉ s.chambers[d].occupants := by
  simpa using findIndex_none.mp h d

/-! ## Check-in -/

/-- What a check-in leaves of each chamber, for a miner listed at most once (R154). -/
structure CheckedIn (c : Fin 4) (m : Id) (s t : State) : Prop where
  stays : m ∈ s.chambers[c].occupants → t.chambers = s.chambers
  joins : m ∉ s.chambers[c].occupants →
    t.chambers[c].occupants = (joined s.effective.chambers[c].capacity m s.chambers[c]).occupants
      ∧ t.chambers[c].overflow = (joined s.effective.chambers[c].capacity m s.chambers[c]).overflow
  others : ∀ d : Fin 4, d ≠ c → t.chambers[d].occupants = s.chambers[d].occupants.filter (· ≠ m)
    ∧ t.chambers[d].overflow = s.chambers[d].overflow ∧ (m ∉ s.chambers[d].occupants → t.chambers[d] = s.chambers[d])

theorem CheckedIn.then_same {m : Id} {t u : State} (h : CheckedIn c m s t) (hu : SameBut [] t u) : CheckedIn c m s u := by
  obtain ⟨hstays, hjoins, hothers⟩ := h
  constructor <;> rw [hu.chambers] <;> assumption

theorem checkIn_new {m : Id} (h : listedIn s m = none) : CheckedIn c m s (checkIn c m s) := by
  have hin : checkIn c m s = deriveChambers [c] (joinChamber c m false s) := by
    unfold checkIn
    simp only [h]
  rw [hin]
  have alike := deriveChambers_one c (joinChamber c m false s)
  refine ⟨fun hm => absurd hm (listedIn_none h c), fun _ => ?_, fun d hd => ?_⟩
  · obtain ⟨hocc, hover, -⟩ := alike c
    rw [hocc, hover, joinChamber_at, if_pos rfl]
    exact ⟨rfl, rfl⟩
  · obtain ⟨-, -, -, hsame⟩ := alike d
    rw [hsame (by simpa using hd), joinChamber_at, if_neg hd, filter_ne_of_not_mem (listedIn_none h d)]
    exact ⟨rfl, rfl, fun _ => rfl⟩

/-- A miner listed in another chamber moves (R154). -/
theorem checkIn_moved {m : Id} {b : Fin 4} (hkept : ChambersKept s) (h : listedIn s m = some b) (hb : b ≠ c) :
    CheckedIn c m s (checkIn c m s) := by
  obtain ⟨-, honce, -⟩ := hkept
  have hlisted := listedIn_some h
  have left (ids : Word) : ∃ v, v = addRecord recMinerMoved m.toNat ids (removeMiner b m s) ∧ v.chambers = (removeMiner b m s).chambers
      ∧ v.effective = s.effective :=
    ⟨_, rfl, (addRecord_within _ _ _ _).1.chambers, (addRecord_within _ _ _ _).1.effective⟩
  obtain ⟨v, hv, hchambers, heff⟩ := left (detail [detailId (chamberId s b).toNat, detailId (chamberId s c).toNat])
  have hin : checkIn c m s = deriveChambers [b, c] (joinChamber c m true v) := by
    unfold checkIn
    simp only [h, if_neg hb]
    rw [hv]
  rw [hin]
  have alike := deriveChambers_two b c (joinChamber c m true v)
  have hat (d : Fin 4) : v.chambers[d] = if d = b then without m s.chambers[b] else s.chambers[d] := by
    simp only [hchambers]
    exact removeMiner_at b m d s
  refine ⟨fun hm => absurd hm (honce b c hb m hlisted), fun _ => ?_, fun d hd => ?_⟩
  · obtain ⟨hocc, hover, -⟩ := alike c
    rw [hocc, hover, joinChamber_at, if_pos rfl, hat, if_neg (Ne.symm hb), heff]
    exact ⟨rfl, rfl⟩
  · obtain ⟨hocc, hover, -, hsame⟩ := alike d
    rw [joinChamber_at, if_neg hd, hat] at hocc hover hsame
    by_cases hdb : d = b
    · rw [if_pos hdb] at hocc hover
      rw [hocc, hover, hdb]
      exact ⟨rfl, rfl, fun hn => absurd hlisted hn⟩
    · rw [if_neg hdb] at hsame
      rw [hsame (by simp [hd, hdb]), filter_ne_of_not_mem (honce b d (Ne.symm hdb) m hlisted)]
      exact ⟨rfl, rfl, fun _ => rfl⟩

theorem checkIn_checked {m : Id} (hkept : ChambersKept s) (c : Fin 4) : CheckedIn c m s (checkIn c m s) := by
  cases h : listedIn s m with
  | none => exact checkIn_new h
  | some b =>
    by_cases hb : b = c
    · subst hb
      have hin : checkIn b m s = s := by
        unfold checkIn
        simp only [h, if_true]
      rw [hin]
      obtain ⟨-, honce, -⟩ := hkept
      have hlisted := listedIn_some h
      refine ⟨fun _ => rfl, fun hn => absurd hlisted hn, fun d hd => ?_⟩
      rw [filter_ne_of_not_mem (honce b d (Ne.symm hd) m hlisted)]
      exact ⟨rfl, rfl, fun _ => rfl⟩
    · exact checkIn_moved hkept h hb

/-! ## Check-out -/

/-- A miner leaves a chamber's list, or one its overflow (R155). -/
structure CheckedOut (c : Fin 4) (occupants : List Id) (overflow : Nat) (s t : State) : Prop where
  occupants : t.chambers[c].occupants = occupants
  overflow : t.chambers[c].overflow = overflow
  others : ∀ d : Fin 4, d ≠ c → t.chambers[d] = s.chambers[d]

theorem CheckedOut.then_same {l : List Id} {n : Nat} {t u : State} (h : CheckedOut c l n s t) (hu : SameBut [] t u) :
    CheckedOut c l n s u := by
  obtain ⟨hocc, hover, hothers⟩ := h
  constructor <;> simp only [hu.chambers] <;> assumption

/-- A chamber's change of whom it lists, handed on. -/
theorem CheckedOut.of_change {f : Chamber → Chamber} {k n : Nat} {w : Word} : CheckedOut c (f s.chambers[c]).occupants (f s.chambers[c]).overflow s
    (deriveChambers [c] (addRecord k n w (changeChamber c f s))) := by
  have alike := (ListsAlike.of_same [c] (addRecord_within k n w (changeChamber c f s)).1).trans (deriveChambers_one c _)
  obtain ⟨hocc, hover, -⟩ := alike c
  refine ⟨?_, ?_, fun d hd => ?_⟩
  · rw [hocc]
    simp only [changeChamber_chambers]
    rw [modifyAt_at]
  · rw [hover]
    simp only [changeChamber_chambers]
    rw [modifyAt_at]
  · obtain ⟨-, -, -, hsame⟩ := alike d
    rw [hsame (by simpa using hd)]
    exact modifyAt_other _ _ hd

theorem checkOut_listed {m : Id} (h : m ∈ s.chambers[c].occupants) :
    CheckedOut c (s.chambers[c].occupants.filter (· ≠ m)) s.chambers[c].overflow s (checkOut c m s) := by
  have hlisted : s.chambers[c].occupants.contains m = true := by simpa using h
  unfold checkOut
  simp only [hlisted, if_true]
  exact CheckedOut.of_change (f := without m)

theorem checkOut_overflow {m : Id} (h : m ∉ s.chambers[c].occupants) (hover : 0 < s.chambers[c].overflow) :
    CheckedOut c s.chambers[c].occupants (s.chambers[c].overflow - 1) s (checkOut c m s) := by
  have hlisted : s.chambers[c].occupants.contains m = false := by simpa using h
  unfold checkOut
  simp only [hlisted, Bool.false_eq_true, if_false, if_neg (Nat.pos_iff_ne_zero.mp hover)]
  exact CheckedOut.of_change (f := fun h => { h with overflow := h.overflow - 1 })

theorem checkOut_none {m : Id} (h : m ∉ s.chambers[c].occupants) (hover : s.chambers[c].overflow = 0) : checkOut c m s = s := by
  have hlisted : s.chambers[c].occupants.contains m = false := by simpa using h
  unfold checkOut
  simp only [hlisted, Bool.false_eq_true, if_false, hover, if_true]

theorem checkOutByRequest_out (c : Fin 4) (m : Id) (s : State) :
    CheckedOut c (s.chambers[c].occupants.filter (· ≠ m)) s.chambers[c].overflow s (checkOutByRequest c m s) :=
  CheckedOut.of_change (f := without m)

end

/-- Settles O47: where the miner is listed, and the roll call that follows. -/
theorem checkInAndOut : Obligations.CheckInAndOut := by
  refine ⟨?_, ?_⟩
  · intro c miner s hrun hused hminer hkept
    have hdef : Frame.defined (.checkIn c miner) = true := by
      unfold Frame.defined
      simpa using hminer
    have hexec : exec (.checkIn c miner) s = .next (frameEvent (.checkIn c miner) s) := rfl
    rw [frameEvent_defined hrun hdef] at hexec
    have acted := frameTaken_acted (.checkIn c miner) s
    obtain ⟨u, hu⟩ := handed_eq (.checkIn c miner) s
    have htake (v : State) (hv : v.effective = s.effective) : takeFrame (.checkIn c miner) v = checkIn c miner v := by
      have hchamber : usedChamber v c = true := by simpa [usedChamber, chamberId, hv] using hused
      exact if_pos hchamber
    have heff : (handed (.checkIn c miner) s).effective = s.effective := by rw [hu]; rfl
    have rest := frameTaken_sameBut (f := .checkIn c miner) (s := s) (l := [.refuge, .level])
      (by rw [htake _ heff]; exact (checkIn_within c miner _).1)
    have muster := frameTaken_musterGoesOn (f := .checkIn c miner) (o := []) hrun
      (by rw [htake _ heff]; exact checkIn_works c miner _)
    generalize frameTaken (.checkIn c miner) s = t at hexec acted rest muster
    rw [htake _ heff, hu] at acted
    obtain ⟨hstays, hjoins, hothers⟩ := (checkIn_checked (s := { beginEvent s with frame := u }) hkept c).then_same acted
    refine ⟨t, hexec, ⟨hstays, fun hm hroom => ?_, fun hm hfull => ?_, hothers⟩, muster, rest⟩
    · obtain ⟨hocc, hover⟩ := hjoins hm
      obtain ⟨hocc', hover'⟩ := joined_room (m := miner) hroom
      exact ⟨hocc.trans hocc', hover.trans hover'⟩
    · obtain ⟨hocc, hover⟩ := hjoins hm
      obtain ⟨hocc', hover'⟩ := joined_full (m := miner) hfull
      exact ⟨hocc.trans hocc', hover.trans hover'⟩
  · intro c miner s hrun hused hminer
    have hdef : Frame.defined (.checkOut c miner) = true := by
      unfold Frame.defined
      simpa using hminer
    have hexec : exec (.checkOut c miner) s = .next (frameEvent (.checkOut c miner) s) := rfl
    rw [frameEvent_defined hrun hdef] at hexec
    have acted := frameTaken_acted (.checkOut c miner) s
    obtain ⟨u, hu⟩ := handed_eq (.checkOut c miner) s
    have htake (v : State) (hv : v.effective = s.effective) : takeFrame (.checkOut c miner) v = checkOut c miner v := by
      have hchamber : usedChamber v c = true := by simpa [usedChamber, chamberId, hv] using hused
      exact if_pos hchamber
    have heff : (handed (.checkOut c miner) s).effective = s.effective := by rw [hu]; rfl
    have rest := frameTaken_sameBut (f := .checkOut c miner) (s := s) (l := [.refuge, .level])
      (by rw [htake _ heff]; exact (checkOut_within c miner _).1)
    have muster := frameTaken_musterGoesOn (f := .checkOut c miner) (o := []) hrun
      (by rw [htake _ heff]; exact checkOut_works c miner _)
    generalize frameTaken (.checkOut c miner) s = t at hexec acted rest muster
    rw [htake _ heff, hu] at acted
    have outOf {l : List Id} {n : Nat} (h : CheckedOut c l n { beginEvent s with frame := u }
        (checkOut c miner { beginEvent s with frame := u })) := h.then_same acted
    refine ⟨t, hexec, ⟨fun hm => ?_, fun hm hover => ?_, fun hm hover => ?_, fun d hd => ?_⟩, muster, rest⟩
    · obtain ⟨hocc, hover, -⟩ := outOf (checkOut_listed hm)
      exact ⟨hocc, hover⟩
    · obtain ⟨hocc, hover, -⟩ := outOf (checkOut_overflow hm hover)
      exact ⟨hocc, hover⟩
    · rw [checkOut_none (s := { beginEvent s with frame := u }) hm hover] at acted
      exact acted.chambers
    · by_cases hm : miner ∈ s.chambers[c].occupants
      · exact (outOf (checkOut_listed hm)).others d hd
      · by_cases hover : s.chambers[c].overflow = 0
        · rw [checkOut_none (s := { beginEvent s with frame := u }) hm hover] at acted
          simp only [acted.chambers]
          rfl
        · exact (outOf (checkOut_overflow hm (Nat.pos_of_ne_zero hover))).others d hd

/-! ## The timers of a chamber -/

section
variable {s : State} {c : Fin 4}

/-- A flag of a chamber set, its record, and the alarm that follows. -/
theorem alarm_after_flag {f : Chamber → Chamber} {k : Nat} {v : Bool} (hused : s.effective.chambers[c].id ≠ 0) :
    (∀ d : Fin 4, d ≠ c → (deriveAlarm c (flagRecord c k v (changeChamber c f s))).chambers[d] = s.chambers[d])
      ∧ (deriveAlarm c (flagRecord c k v (changeChamber c f s))).chambers[c]
          = alarmed (changeChamber c f s) c (f s.chambers[c]) := by
  have flagged := (flagRecord_within c k v (changeChamber c f s)).1
  have hchambers := flagged.chambers
  refine ⟨fun d hd => ?_, ?_⟩
  · rw [deriveAlarm_other hd]
    simp only [hchambers, changeChamber_chambers]
    exact modifyAt_other _ _ hd
  · have hused' : (flagRecord c k v (changeChamber c f s)).effective.chambers[c].id ≠ 0 := by
      rw [flagged.effective]
      exact hused
    rw [deriveAlarm_own hused']
    rw [alarmed_congr flagged.channels flagged.effective hchambers]
    simp only [hchambers, changeChamber_chambers]
    rw [modifyAt_at]

/-- The alarm of a chamber whose silent flag stands is on exactly while it is OCCUPIED (R161). -/
theorem alarmed_silent {h : Chamber} (hc : s.chambers[c].silent = true) : (alarmed s c h).alarm = occupied s.chambers[c]
    ∧ (alarmed s c h).reasons.silent = true ∧ (alarmed s c h).reasons.airlock = s.chambers[c].airlockLong := by
  have hany : anyReason (standingReasons s c) = true := by simp only [anyReason, standingReasons, hc, Bool.or_true, Bool.true_or]
  unfold alarmed
  rw [hany, Bool.and_true]
  exact ⟨rfl, hc, rfl⟩

/-- The alarm of a chamber whose airlock flag stands is on exactly while it is OCCUPIED (R161). -/
theorem alarmed_airlock {h : Chamber} (hc : s.chambers[c].airlockLong = true) : (alarmed s c h).alarm = occupied s.chambers[c]
    ∧ (alarmed s c h).reasons.airlock = true ∧ (alarmed s c h).reasons.silent = s.chambers[c].silent := by
  have hany : anyReason (standingReasons s c) = true := by simp only [anyReason, standingReasons, hc, Bool.or_true]
  unfold alarmed
  rw [hany, Bool.and_true]
  exact ⟨rfl, hc, rfl⟩

end

/-- Settles O42: the flag that a timer sets, and the alarm that stands for it. -/
theorem chamberTimersExpire : Obligations.ChamberTimersExpire := by
  refine ⟨?_, ?_⟩
  · intro c s hrun hused hdue
    have hexec : exec (.chamberSilenceExpiry c) s
        = .next (expiryEvent (Timer.due s.chambers[c].silenceTimer) (chamberSilence c) s) := rfl
    rw [expiryEvent_due hrun hdue] at hexec
    have acted := event_sameBut_acted (chamberSilence c) s
    have rest := (beginEvent_sameBut s).wide.trans ((chamberSilence_within c (beginEvent s)).1.trans acted.wide)
    obtain ⟨hothers, hown⟩ := alarm_after_flag (s := beginEvent s) (c := c) (k := 1) (v := true)
      (f := fun h => { h with silent := true, silenceTimer := .expired }) hused
    have hchanged : (changeChamber c (fun h => { h with silent := true, silenceTimer := .expired }) (beginEvent s)).chambers[c]
        = { s.chambers[c] with silent := true, silenceTimer := .expired } := modifyAt_at _ c _
    obtain ⟨halarm, hsilent, hairlock⟩ := alarmed_silent (h := { s.chambers[c] with silent := true, silenceTimer := .expired })
      (c := c) (congrArg Chamber.silent hchanged)
    rw [hchanged] at halarm hairlock
    refine ⟨_, hexec, ?_, rest⟩
    have hchambers := acted.chambers
    generalize event (chamberSilence c) s = t at hchambers
    have hown : t.chambers[c] = _ := (congrArg (·[c]) hchambers).trans hown
    dsimp only
    rw [hown]
    refine ⟨rfl, rfl, halarm, hsilent, hairlock, rfl, rfl, rfl, rfl, rfl, rfl, rfl, rfl, fun d hd => ?_⟩
    exact (congrArg (·[d]) hchambers).trans (hothers d hd)
  · intro c s hrun hused hdue
    have hexec : exec (.airlockTimerExpiry c) s
        = .next (expiryEvent (Timer.due s.chambers[c].airlockTimer) (airlockExpiry c) s) := rfl
    rw [expiryEvent_due hrun hdue] at hexec
    have acted := event_sameBut_acted (airlockExpiry c) s
    have rest := (beginEvent_sameBut s).wide.trans ((airlockExpiry_within c (beginEvent s)).1.trans acted.wide)
    obtain ⟨hothers, hown⟩ := alarm_after_flag (s := beginEvent s) (c := c) (k := 2) (v := true)
      (f := fun h => { h with airlockLong := true, airlockTimer := .expired }) hused
    have hchanged : (changeChamber c (fun h => { h with airlockLong := true, airlockTimer := .expired }) (beginEvent s)).chambers[c]
        = { s.chambers[c] with airlockLong := true, airlockTimer := .expired } := modifyAt_at _ c _
    obtain ⟨halarm, hairlock, hsilent⟩ := alarmed_airlock (h := { s.chambers[c] with airlockLong := true, airlockTimer := .expired })
      (c := c) (congrArg Chamber.airlockLong hchanged)
    rw [hchanged] at halarm hsilent
    refine ⟨_, hexec, ?_, rest⟩
    have hchambers := acted.chambers
    generalize event (airlockExpiry c) s = t at hchambers
    have hown : t.chambers[c] = _ := (congrArg (·[c]) hchambers).trans hown
    dsimp only
    rw [hown]
    refine ⟨rfl, rfl, halarm, hairlock, hsilent, rfl, rfl, rfl, rfl, rfl, rfl, rfl, rfl, fun d hd => ?_⟩
    exact (congrArg (·[d]) hchambers).trans (hothers d hd)

/-! ## CLEAR_DISTRESS, CLOSE_CALL and CHECK_OUT_MINER -/

section
variable {s : State}

theorem judge_clearDistress (tag : BitVec 8) {arg : BitVec 16} {d : Distress} (hrun : s.run = true) (harg : arg ≠ 0)
    (hd : distressOf s arg = some d) (strap : BitVec 2) :
    judgeRequest strap (requestWord 7 tag arg) s = Reply.done (clearDistress d s) := by
  have hcode := requestCode_requestWord 7 tag arg (by decide)
  rw [judgeRequest_running strap hrun (by rw [hcode]; decide) (by rw [hcode]; decide)]
  simp only [hcode, requestArg_requestWord, requestClearDistress, BitVec.ofNat_toNat, BitVec.setWidth_eq, hd]
  exact if_neg (fun h => harg (BitVec.eq_of_toNat_eq h))

theorem judge_closeCall (tag : BitVec 8) {arg : BitVec 16} {p : Fin 8} (hrun : s.run = true) (harg : arg ≠ 0)
    (hsmall : arg.toNat ≤ 255) (hp : callPosition s (arg.setWidth 8) = some p) (strap : BitVec 2) :
    judgeRequest strap (requestWord 8 tag arg) s = Reply.done (closeCall p 3 s) := by
  have hcode := requestCode_requestWord 8 tag arg (by decide)
  rw [judgeRequest_running strap hrun (by rw [hcode]; decide) (by rw [hcode]; decide)]
  simp only [hcode, requestArg_requestWord, requestCloseCall, BitVec.ofNat_toNat, hp]
  exact if_neg (fun h => h.elim (fun h => harg (BitVec.eq_of_toNat_eq h)) (fun h => absurd hsmall (not_le.mpr h)))

theorem judge_checkOut (tag : BitVec 8) {arg : BitVec 16} {c : Fin 4} (hrun : s.run = true) (harg : arg ≠ 0)
    (hc : listedIn s arg = some c) (strap : BitVec 2) :
    judgeRequest strap (requestWord 10 tag arg) s = Reply.done (checkOutByRequest c arg s) := by
  have hcode := requestCode_requestWord 10 tag arg (by decide)
  rw [judgeRequest_running strap hrun (by rw [hcode]; decide) (by rw [hcode])]
  simp only [hcode, requestArg_requestWord, requestCheckOut, BitVec.ofNat_toNat, BitVec.setWidth_eq, hc]
  exact if_neg (fun h => harg (BitVec.eq_of_toNat_eq h))

end

/-- Settles O12: the entry, the call and the miner that leave. -/
theorem listedThingsAreRemoved : Obligations.ListedThingsAreRemoved := by
  refine ⟨?_, ?_, ?_⟩
  · intro tag arg d s hrun harg hd
    have hexec : exec (.clearDistress tag arg) s = .next (serveWrite s.strap (requestAccess s 7 tag arg) s) := rfl
    have hjudge := judge_clearDistress tag (s := begun (requestWord 7 tag arg) s) hrun harg hd s.strap
    rw [serveWrite_request, event_of_done hjudge] at hexec
    generalize requestWord 7 tag arg = w at hexec
    have acted := doneEvent_acted (s := s) (w := w) (g := clearDistress d)
    obtain ⟨lists, hlast⟩ := clearDistress_lists d (begun w s)
    have lists := lists.then_same acted
    have hm : d.miner = arg := by simpa using List.find?_some (p := fun d : Distress => d.miner == arg) hd
    rw [hm] at lists hlast
    have hcall := lists.call
    have hlist : (doneEvent w (clearDistress d) s).call.distress = s.call.distress.filter (fun e => e.miner != arg) := by
      rw [hcall]
      rfl
    obtain ⟨-, -, -, -, halerts⟩ := acted.level
    refine ⟨_, hexec, hlist, fun hempty hmem => ?_, fun p => ?_, by rw [hcall]; rfl, lists.departed, ?_, ?_⟩
    · exact hlast (hlist.symm.trans hempty) ((halerts _ rfl).mp hmem)
    · have hcallers := congrArg (Option.map (·.1)) (lists.callers p)
      rw [Option.map_map, Option.map_map] at hcallers
      exact hcallers
    · exact doneEvent_musterGoesOn hrun (clearDistress_works_words d (begun w s))
    · exact doneEvent_sameBut (clearDistress_within d _).1
  · intro tag arg p s hrun harg hsmall hp
    have hexec : exec (.closeCall tag arg) s = .next (serveWrite s.strap (requestAccess s 8 tag arg) s) := rfl
    have hjudge := judge_closeCall tag (s := begun (requestWord 8 tag arg) s) hrun harg hsmall hp s.strap
    rw [serveWrite_request, event_of_done hjudge] at hexec
    generalize requestWord 8 tag arg = w at hexec
    have acted := doneEvent_acted (s := s) (w := w) (g := closeCall p 3)
    obtain ⟨c, hc, hid⟩ := callPosition_some hp
    have hc' : (begun w s).call.table[p] = some c := hc
    refine ⟨_, hexec, acted.call.trans (closeCall_call hc' 3), ?_, doneEvent_sameBut (closeCall_within p 3 _).1⟩
    rw [← hid]
    exact ((closeCall_departs hc' 3).congr acted.departed).of_ring rfl rfl
  · intro tag arg c s hrun harg hc
    have hexec : exec (.checkOutMiner tag arg) s = .next (serveWrite s.strap (requestAccess s 10 tag arg) s) := rfl
    have hjudge := judge_checkOut tag (s := begun (requestWord 10 tag arg) s) hrun harg hc s.strap
    rw [serveWrite_request, event_of_done hjudge] at hexec
    generalize requestWord 10 tag arg = w at hexec
    have acted := doneEvent_acted (s := s) (w := w) (g := checkOutByRequest c arg)
    obtain ⟨hocc, hover, hothers⟩ := (checkOutByRequest_out c arg (begun w s)).then_same acted
    refine ⟨_, hexec, hocc, hover, hothers, ?_, doneEvent_sameBut (checkOutByRequest_within c arg _).1⟩
    exact doneEvent_musterGoesOn hrun (checkOutByRequest_works c arg (begun w s))

end Sys2Proof.Machine
end

section
/-! PROOFS. The air unit: readings, partner agreement, the grades, a chamber's status (R5 to R10, R15, R16, R23, R157). -/

set_option Elab.async false

namespace Sys2Proof.Machine

open Sys2Proof.Config

/-! ## The live and the latched grade -/

theorem code_sup (a b : Grade) : Grade.code (Grade.sup a b) = max (Grade.code a) (Grade.code b) := by
  unfold Grade.sup
  split
  · omega
  · omega

theorem recomputeLive_live (set : ChannelSet) (c : Channel) : Grade.code (recomputeLive set c).live
    = max (Grade.code c.computed) (max (if c.rising then 1 else 0) (if hasFault c.faults then Grade.code set.faultGrade else 0)) := by
  unfold recomputeLive
  dsimp only
  rw [code_sup, code_sup, max_assoc]
  cases c.rising <;> cases hasFault c.faults <;> rfl

theorem recomputeLive_latched (set : ChannelSet) (c : Channel) : Grade.code (recomputeLive set c).latched
    = max (Grade.code c.latched) (Grade.code (recomputeLive set c).live) := code_sup _ _

/-- A channel whose live grade is recomputed keeps everything but its live and its latched grade. -/
theorem recomputeLive_eq (set : ChannelSet) (c : Channel) : recomputeLive set c
    = { c with live := (recomputeLive set c).live, latched := (recomputeLive set c).latched } := rfl

theorem recomputeLive_twice (set : ChannelSet) (c : Channel) : recomputeLive set (recomputeLive set c) = recomputeLive set c := by
  have hlive : (recomputeLive set (recomputeLive set c)).live = (recomputeLive set c).live := rfl
  have hlatched : Grade.sup (recomputeLive set c).latched (recomputeLive set c).live = (recomputeLive set c).latched := by
    have hcode := recomputeLive_latched set c
    unfold Grade.sup
    rw [if_neg (by omega)]
  calc recomputeLive set (recomputeLive set c)
      = { c with live := (recomputeLive set c).live, latched := Grade.sup (recomputeLive set c).latched (recomputeLive set c).live } := rfl
    _ = recomputeLive set c := by rw [hlatched]; rfl

/-! ## Partner agreement -/

section
variable {s : State} {i j k : Fin 24} {set : ChannelSet} {now : Time} {a b : Channel}

/-- Two channels are judged against each other: both averages seen and neither STALE (R23). -/
def judgedTogether (a b : Channel) : Bool := (a.seen && b.seen) && !a.faults.stale && !b.faults.stale

/-- How far two channels' averages lie apart. -/
def apart (a b : Channel) : Nat := max (average a) (average b) - min (average a) (average b)

/-- The start of a disagreement: the one that stands, or now (R23). -/
def disagreeSince (now : Time) (a : Channel) : Time := a.disagreeStart.getD now

/-- The disagreement has lasted for the agreement time (R23). -/
def disagreesLate (set : ChannelSet) (now : Time) (a : Channel) : Bool :=
  decide (set.agreeTime * 1000 ≤ (now - disagreeSince now a).toNat)

/-- A channel of two that agree or disagree, `a` being the one read (R23). -/
def agreed (set : ChannelSet) (now : Time) (a b c : Channel) : Channel :=
  if judgedTogether a b = false then c
  else if set.agreeLimit < apart a b then setAgreement (some (disagreeSince now a)) (disagreesLate set now a || c.faults.disagree) c
  else setAgreement none false c

/-- Only the agreement of a channel changes. -/
theorem agreed_eq (set : ChannelSet) (now : Time) (a b c : Channel) :
    agreed set now a b c = setAgreement (agreed set now a b c).disagreeStart (agreed set now a b c).faults.disagree c := by
  unfold agreed
  split
  · rfl
  · split
    · rfl
    · rfl

theorem modifyAt_id {α : Type} {n : Nat} (v : Vector α n) (i : Fin n) {f : α → α} (h : ∀ x, f x = x) : modifyAt v i f = v := by
  unfold modifyAt
  rw [h]
  exact Vector.set_getElem_self i.isLt

/-- An evaluation of partner agreement changes both channels' agreement (R23). -/
theorem evaluateAgreement_eq (i j : Fin 24) (s : State) : evaluateAgreement i j s
    = changeChannel j (agreed (channelSet s i) s.time s.channels[i] s.channels[j])
        (changeChannel i (agreed (channelSet s i) s.time s.channels[i] s.channels[j]) s) := by
  have hjudged : (!(s.channels[i].seen && s.channels[j].seen) || s.channels[i].faults.stale || s.channels[j].faults.stale)
      = !judgedTogether s.channels[i] s.channels[j] := by
    unfold judgedTogether
    simp only [Bool.not_and, Bool.not_not]
  unfold evaluateAgreement
  dsimp only
  rw [hjudged]
  by_cases h : judgedTogether s.channels[i] s.channels[j] = false
  · have hsame (c : Channel) : agreed (channelSet s i) s.time s.channels[i] s.channels[j] c = c := if_pos h
    rw [h, Bool.not_false, if_pos rfl]
    unfold changeChannel
    simp only [modifyAt_id _ _ hsame]
  · have htrue : judgedTogether s.channels[i] s.channels[j] = true := by simpa using h
    have hagreed : agreed (channelSet s i) s.time s.channels[i] s.channels[j]
        = if (channelSet s i).agreeLimit < apart s.channels[i] s.channels[j]
          then (fun c => setAgreement (some (disagreeSince s.time s.channels[i]))
            (disagreesLate (channelSet s i) s.time s.channels[i] || c.faults.disagree) c)
          else setAgreement none false := by
      funext c
      unfold agreed
      rw [if_neg h]
      split
      · rfl
      · rfl
    rw [htrue, Bool.not_true, if_neg Bool.false_ne_true, hagreed]
    split
    · rename_i hfar
      have hfar : (channelSet s i).agreeLimit < apart s.channels[i] s.channels[j] := hfar
      rw [if_pos hfar]
      rfl
    · rename_i hnear
      have hnear : ¬(channelSet s i).agreeLimit < apart s.channels[i] s.channels[j] := hnear
      rw [if_neg hnear]

/-! ## An arrival -/

/-- The state that an arrival leaves before anything is handed on (R17, R23). -/
def arrived (i : Fin 24) (graded : Bool) (f : Channel → Channel) (s : State) : State :=
  match (if graded then partnerOf s i else none) with
  | none => recomputeChannel i (changeChannel i f s)
  | some j =>
    let u := recomputeChannel i (evaluateAgreement i j (changeChannel i f s))
    if u.channels[j].faults.disagree = (changeChannel i f s).channels[j].faults.disagree then u else recomputeChannel j u

/-- What an arrival hands on leaves the channels. -/
theorem arrival_arrived (i : Fin 24) (graded : Bool) (f : Channel → Channel) (s : State) :
    SameBut [.fault] (arrived i graded f s) (arrival i graded f s) := by
  have hpartner : partnerOf (changeChannel i f s) i = partnerOf s i := rfl
  unfold arrival arrived
  dsimp only
  rw [hpartner]
  generalize (if graded then partnerOf s i else none) = partner
  cases partner with
  | none => exact (handOn_within _ _ _).1
  | some j =>
    dsimp only
    split
    · exact (handOn_within _ _ _).1
    · exact ((handOn_within _ _ _).trans (handOn_within _ _ _)).1

theorem arrived_alone {f : Channel → Channel} {graded : Bool} (h : (if graded then partnerOf s i else none) = none) :
    arrived i graded f s = recomputeChannel i (changeChannel i f s) := by
  unfold arrived
  rw [h]

/-- An arrival that is judged against no partner changes its own channel alone. -/
theorem arrived_alone_at {f : Channel → Channel} {graded : Bool} (h : (if graded then partnerOf s i else none) = none) (k : Fin 24) :
    (arrived i graded f s).channels[k] = if k = i then recomputeLive (channelSet s i) (f s.channels[i]) else s.channels[k] := by
  have hchannels : (arrived i graded f s).channels = modifyAt (modifyAt s.channels i f) i (recomputeLive (channelSet s i)) := by
    rw [arrived_alone h]
    rfl
  simp only [hchannels]
  rw [modifyAt_get, modifyAt_at]
  split
  · rfl
  · rename_i hk
    exact modifyAt_other _ _ hk

/-- An arrival judged against another channel: both channels agreed, the one read derived again, and the other where its DISAGREE
has changed (R23). -/
theorem arrived_judged_at {f : Channel → Channel} (h : partnerOf s i = some j) (hij : j ≠ i) (k : Fin 24) :
    (arrived i true f s).channels[k]
      = if k = i then recomputeLive (channelSet s i) (agreed (channelSet s i) s.time (f s.channels[i]) s.channels[j] (f s.channels[i]))
        else if k = j then
          (let q := agreed (channelSet s i) s.time (f s.channels[i]) s.channels[j] s.channels[j]
           if q.faults.disagree = s.channels[j].faults.disagree then q else recomputeLive (channelSet s j) q)
        else s.channels[k] := by
  have htook : (changeChannel i f s).channels[i] = f s.channels[i] := modifyAt_at _ i f
  have hother : (changeChannel i f s).channels[j] = s.channels[j] := modifyAt_other _ f hij
  have heval := evaluateAgreement_eq i j (changeChannel i f s)
  rw [htook, hother] at heval
  have hu : ∃ u, u = recomputeChannel i (evaluateAgreement i j (changeChannel i f s)) := ⟨_, rfl⟩
  obtain ⟨u, hu⟩ := hu
  have harrived : arrived i true f s = if u.channels[j].faults.disagree = s.channels[j].faults.disagree then u
      else recomputeChannel j u := by
    unfold arrived
    simp only [if_true, h, hother]
    rw [hu]
  have hchannels : u.channels = modifyAt (modifyAt (modifyAt (modifyAt s.channels i f) i
      (agreed (channelSet s i) s.time (f s.channels[i]) s.channels[j])) j
      (agreed (channelSet s i) s.time (f s.channels[i]) s.channels[j])) i (recomputeLive (channelSet s i)) := by
    rw [hu, heval]
    rfl
  have hset : channelSet u = channelSet s := by
    rw [hu, heval]
    rfl
  have hui : u.channels[i]
      = recomputeLive (channelSet s i) (agreed (channelSet s i) s.time (f s.channels[i]) s.channels[j] (f s.channels[i])) := by
    simp only [hchannels]
    rw [modifyAt_at, modifyAt_other _ _ (Ne.symm hij), modifyAt_at, modifyAt_at]
  have huj : u.channels[j] = agreed (channelSet s i) s.time (f s.channels[i]) s.channels[j] s.channels[j] := by
    simp only [hchannels]
    rw [modifyAt_other _ _ hij, modifyAt_at, modifyAt_other _ _ hij, modifyAt_other _ _ hij]
  have huk (hki : k ≠ i) (hkj : k ≠ j) : u.channels[k] = s.channels[k] := by
    simp only [hchannels]
    rw [modifyAt_other _ _ hki, modifyAt_other _ _ hkj, modifyAt_other _ _ hki, modifyAt_other _ _ hki]
  rw [harrived, ← huj]
  by_cases hki : k = i
  · rw [if_pos hki, hki]
    split
    · exact hui
    · exact (modifyAt_other u.channels (recomputeLive (channelSet u j)) (Ne.symm hij)).trans hui
  · rw [if_neg hki]
    by_cases hkj : k = j
    · rw [if_pos hkj, hkj]
      dsimp only
      split
      · rfl
      · rw [← hset]
        exact modifyAt_at _ _ _
    · rw [if_neg hkj]
      split
      · exact huk hki hkj
      · exact (modifyAt_other u.channels (recomputeLive (channelSet u j)) hkj).trans (huk hki hkj)

/-- A channel that is its own partner: its own channel alone changes. -/
theorem arrived_self_at {f : Channel → Channel} (h : partnerOf s i = some i) : ∃ start disagree,
    ∀ k : Fin 24, (arrived i true f s).channels[k] = if k = i then
      recomputeLive (channelSet s i) (setAgreement start disagree (f s.channels[i])) else s.channels[k] := by
  have htook : (changeChannel i f s).channels[i] = f s.channels[i] := modifyAt_at _ i f
  have heval := evaluateAgreement_eq i i (changeChannel i f s)
  rw [htook] at heval
  obtain ⟨u, hu⟩ : ∃ u, u = recomputeChannel i (evaluateAgreement i i (changeChannel i f s)) := ⟨_, rfl⟩
  have harrived : arrived i true f s = if u.channels[i].faults.disagree = (f s.channels[i]).faults.disagree then u
      else recomputeChannel i u := by
    unfold arrived
    simp only [if_true, h, htook]
    rw [hu]
  generalize hx : agreed (channelSet s i) s.time (f s.channels[i]) (f s.channels[i]) (f s.channels[i]) = x
  generalize hy : agreed (channelSet s i) s.time (f s.channels[i]) (f s.channels[i]) x = y
  have hxe := agreed_eq (channelSet s i) s.time (f s.channels[i]) (f s.channels[i]) (f s.channels[i])
  have hye := agreed_eq (channelSet s i) s.time (f s.channels[i]) (f s.channels[i]) x
  rw [hx] at hxe
  rw [hy, hxe] at hye
  have hy' : y = setAgreement y.disagreeStart y.faults.disagree (f s.channels[i]) := hye
  have hset : channelSet u = channelSet s := by
    rw [hu, heval]
    rfl
  have hchannels : u.channels = modifyAt (modifyAt (modifyAt (modifyAt s.channels i f) i
      (agreed (channelSet s i) s.time (f s.channels[i]) (f s.channels[i]))) i
      (agreed (channelSet s i) s.time (f s.channels[i]) (f s.channels[i]))) i (recomputeLive (channelSet s i)) := by
    rw [hu, heval]
    rfl
  have hui : u.channels[i] = recomputeLive (channelSet s i) y := by
    simp only [hchannels]
    rw [modifyAt_at, modifyAt_at, modifyAt_at, modifyAt_at, hx, hy]
  refine ⟨y.disagreeStart, y.faults.disagree, fun k => ?_⟩
  rw [← hy', harrived]
  split
  · split
    · rename_i hk
      rw [hk, hui]
    · rename_i hk
      simp only [hchannels]
      rw [modifyAt_other _ _ hk, modifyAt_other _ _ hk, modifyAt_other _ _ hk, modifyAt_other _ _ hk]
  · split
    · rename_i hk
      rw [hk]
      have hown : (recomputeChannel i u).channels[i] = recomputeLive (channelSet s i) u.channels[i] := by
        rw [← hset]
        exact modifyAt_at _ _ _
      rw [hown, hui, recomputeLive_twice]
    · rename_i hk
      refine (modifyAt_other u.channels (recomputeLive (channelSet u i)) hk).trans ?_
      simp only [hchannels]
      rw [modifyAt_other _ _ hk, modifyAt_other _ _ hk, modifyAt_other _ _ hk, modifyAt_other _ _ hk]

/-- In every case an arrival's own channel is derived again from what it takes, but for its agreement; of the others only the partner
changes, in its agreement and its grades. -/
theorem arrived_own (i : Fin 24) (graded : Bool) (f : Channel → Channel) (s : State) : ∃ start disagree,
    (arrived i graded f s).channels[i] = recomputeLive (channelSet s i) (setAgreement start disagree (f s.channels[i])) := by
  cases hp : (if graded then partnerOf s i else none) with
  | none =>
    refine ⟨(f s.channels[i]).disagreeStart, (f s.channels[i]).faults.disagree, ?_⟩
    rw [arrived_alone_at hp, if_pos rfl]
    rfl
  | some j =>
    have hgraded : graded = true := by
      cases graded
      · cases hp
      · rfl
    subst hgraded
    have hp : partnerOf s i = some j := hp
    by_cases hij : j = i
    · subst hij
      obtain ⟨start, disagree, hall⟩ := arrived_self_at (f := f) hp
      exact ⟨start, disagree, (hall j).trans (if_pos rfl)⟩
    · have hat := (arrived_judged_at (f := f) hp hij i).trans (if_pos rfl)
      rw [agreed_eq] at hat
      exact ⟨_, _, hat⟩

/-- Another channel changes in its agreement and its grades alone. -/
theorem arrived_other {f : Channel → Channel} {graded : Bool} (hk : k ≠ i) : ∃ start disagree live latched,
    (arrived i graded f s).channels[k] = { setAgreement start disagree s.channels[k] with live := live, latched := latched } := by
  have same (h : (arrived i graded f s).channels[k] = s.channels[k]) : ∃ start disagree live latched,
      (arrived i graded f s).channels[k] = { setAgreement start disagree s.channels[k] with live := live, latched := latched } :=
    ⟨s.channels[k].disagreeStart, s.channels[k].faults.disagree, s.channels[k].live, s.channels[k].latched, h⟩
  cases hp : (if graded then partnerOf s i else none) with
  | none =>
    refine same ?_
    rw [arrived_alone_at hp, if_neg hk]
  | some j =>
    have hgraded : graded = true := by
      cases graded
      · cases hp
      · rfl
    subst hgraded
    have hp : partnerOf s i = some j := hp
    by_cases hij : j = i
    · subst hij
      obtain ⟨start, disagree, hall⟩ := arrived_self_at (f := f) hp
      exact same ((hall k).trans (if_neg hk))
    · have hat := arrived_judged_at (f := f) hp hij k
      rw [if_neg hk] at hat
      by_cases hkj : k = j
      · rw [if_pos hkj] at hat
        subst hkj
        have heq := agreed_eq (channelSet s i) s.time (f s.channels[i]) s.channels[k] s.channels[k]
        generalize agreed (channelSet s i) s.time (f s.channels[i]) s.channels[k] s.channels[k] = q at heq hat
        dsimp only at hat
        split at hat
        · refine ⟨q.disagreeStart, q.faults.disagree, q.live, q.latched, hat.trans ?_⟩
          rw [heq]
          rfl
        · refine ⟨q.disagreeStart, q.faults.disagree, (recomputeLive (channelSet s k) q).live,
            (recomputeLive (channelSet s k) q).latched, hat.trans ?_⟩
          rw [recomputeLive_eq, heq]
          rfl
      · rw [if_neg hkj] at hat
        exact same hat

/-- `t` is `s` but for the channels. -/
def OnlyChannels (s t : State) : Prop := ∃ v, t = { s with channels := v }

theorem OnlyChannels.trans {t u : State} (h : OnlyChannels s t) (k : OnlyChannels t u) : OnlyChannels s u := by
  obtain ⟨v, rfl⟩ := h
  obtain ⟨w, rfl⟩ := k
  exact ⟨w, rfl⟩

theorem changeChannel_only (i : Fin 24) (f : Channel → Channel) (s : State) : OnlyChannels s (changeChannel i f s) := ⟨_, rfl⟩

theorem recomputeChannel_only (i : Fin 24) (s : State) : OnlyChannels s (recomputeChannel i s) := ⟨_, rfl⟩

theorem evaluateAgreement_only (i j : Fin 24) (s : State) : OnlyChannels s (evaluateAgreement i j s) := by
  rw [evaluateAgreement_eq]
  exact (changeChannel_only _ _ s).trans (changeChannel_only _ _ _)

/-- An arrival changes the channels and nothing else before it hands on. -/
theorem arrived_only (i : Fin 24) (graded : Bool) (f : Channel → Channel) (s : State) : OnlyChannels s (arrived i graded f s) := by
  unfold arrived
  split
  · exact (changeChannel_only _ _ s).trans (recomputeChannel_only _ _)
  · rename_i j _
    have judged := ((changeChannel_only i f s).trans (evaluateAgreement_only i j _)).trans (recomputeChannel_only i _)
    dsimp only
    split
    · exact judged
    · exact judged.trans (recomputeChannel_only _ _)

end

end Sys2Proof.Machine
end

section
/-! PROOFS. A reading of a raw air word, and a chamber's status (R3 to R10, R23, R157). -/

set_option Elab.async false

namespace Sys2Proof.Machine

open Sys2Proof.Config

/-! ## What a reading does to its channel -/

section
variable {set : ChannelSet} {v : Verdict} {r : BitVec 12} {q : BitVec 4} {c : Channel}

theorem applyWaiting_eq (c : Channel) :
    applyWaiting c = { c with limits := c.waiting.getD c.limits, waiting := none } := by
  unfold applyWaiting
  split
  · rename_i t ht
    rw [ht]
    rfl
  · rename_i ht
    rw [ht]
    exact (congrArg (fun w => ({ c with waiting := w } : Channel)) ht).symm ▸ rfl

/-- A channel as a reading that is not DUPLICATE finds it: the waiting adjustment in effect, the stale timer restarted, the sequence and
the raw code taken (R5). -/
def readingBegun (set : ChannelSet) (r : BitVec 12) (q : BitVec 4) (c : Channel) : Channel :=
  { c with limits := c.waiting.getD c.limits, waiting := none, stale := Timer.start set.staleTime,
           faults := { c.faults with stale := false }, seq := some q, raw := some r }

theorem takeReading_taken : takeReading set .taken r q c = storeValue set (calibrate set r)
    { readingBegun set r q c with
      faults := { c.faults with stale := false, fe := false, under := false, saturated := false } } := by
  unfold takeReading
  simp only [applyWaiting_eq]
  rfl

/-- A reading with a fault adds it and holds everything else (R6, R7). -/
theorem takeReading_fault (hv : v = .feFault ∨ v = .under ∨ v = .saturated) : takeReading set v r q c = { readingBegun set r q c with
    faults := { c.faults with
      stale := false, fe := c.faults.fe || v == .feFault, under := c.faults.under || v == .under,
      saturated := c.faults.saturated || v == .saturated } } := by
  unfold takeReading
  simp only [applyWaiting_eq]
  rcases hv with rfl | rfl | rfl <;> simp [readingBegun, restartStale]

theorem readingVerdict_new (h : c.seq ≠ some q) (f : Bool) : readingVerdict set c r q f
    = if f then .feFault else if r = 4095 then .saturated
      else if (r.toNat : Int) - set.zero < -(set.underMargin : Int) then .under else .taken := if_neg h

/-- A reading with a new sequence is TAKEN or has one of the three faults (R4, R6, R7). -/
theorem readingVerdict_cases (h : c.seq ≠ some q) (f : Bool) : readingVerdict set c r q f = .taken
    ∨ readingVerdict set c r q f = .feFault ∨ readingVerdict set c r q f = .under ∨ readingVerdict set c r q f = .saturated := by
  rw [readingVerdict_new h]
  split
  · exact .inr (.inl rfl)
  · split
    · exact .inr (.inr (.inr rfl))
    · split
      · exact .inr (.inr (.inl rfl))
      · exact .inl rfl

end

/-! ## The event of a reading -/

section
variable {s : State} {i : Fin 24} {n : Fin 16} {w : Word} {v : Verdict}

/-- A reading that is not DUPLICATE arrives at its channel, and the readers are told (R4 to R7, R19). -/
theorem rawReading_readers (hi : channelOf s (.localInput n) = some i)
    (hv : readingVerdict (channelSet s i) s.channels[i] (bits w 0 12) (bits w 12 4) (bitOf w 16) = v) (hnew : v ≠ .duplicate) :
    rawReading n w s = airReaders true s
      (arrival i (v == .taken) (takeReading (channelSet s i) v (bits w 0 12) (bits w 12 4)) s) := by
  have hverdict : rawVerdict s n w = v := (rawVerdict_of_channel hi).trans hv
  unfold rawReading
  simp only [hi, hverdict]

theorem rawReading_arrived (hi : channelOf s (.localInput n) = some i)
    (hv : readingVerdict (channelSet s i) s.channels[i] (bits w 0 12) (bits w 12 4) (bitOf w 16) = v) (hnew : v ≠ .duplicate) :
    SameBut [.trip, .level, .refuge, .fault]
      (arrived i (v == .taken) (takeReading (channelSet s i) v (bits w 0 12) (bits w 12 4)) s) (rawReading n w s) := by
  rw [rawReading_readers hi hv hnew]
  exact (arrival_arrived _ _ _ _).wide.next (airReaders_within _ _ _).1

/-- A RAW_AIR_WRITE with a new sequence is the event of its reading. -/
theorem exec_rawAirWrite_new {addr : Addr} {data : Word} {o : Nat} (hrun : s.run = true) (hfull : fullWordAccess addr 0xF = true)
    (hregion : regionAt s (wordBase addr.toNat) = some (.rawAir, o)) (hi : channelOf s (.localInput (Fin.ofNat 16 (o / 4))) = some i)
    (hnew : s.channels[i].seq ≠ some (bits data 12 4)) : ∃ d : Word,
    exec (.rawAirWrite addr data) s = .next (event (rawReading (Fin.ofNat 16 (o / 4)) data)
      (reachMemory (fullAccess .sensor addr data) d s)) := by
  have hno : ¬(rawVerdict s (Fin.ofNat 16 (o / 4)) data = .notUsed ∨ rawVerdict s (Fin.ofNat 16 (o / 4)) data = .duplicate) := by
    rw [rawVerdict_of_channel hi]
    rcases readingVerdict_cases (set := channelSet s i) (r := bits data 0 12) hnew (bitOf data 16) with h | h | h | h <;>
      rw [h] <;> decide
  refine ⟨withVerdict (rawVerdict s (Fin.ofNat 16 (o / 4)) data) data, ?_⟩
  rw [exec_rawAirWrite hrun hfull hregion]
  unfold takeWrite
  dsimp only
  exact congrArg Host.Outcome.next (if_neg hno)

end

/-! ## The reading's channel and its partner -/

section
variable {set : ChannelSet} {v : Verdict} {r : BitVec 12} {q : BitVec 4} {a b : Channel}

/-- What a reading leaves of its channel whatever its verdict (R5). -/
theorem takeReading_begun (hv : v = .taken ∨ v = .feFault ∨ v = .under ∨ v = .saturated) :
    (takeReading set v r q a).seq = some q ∧ (takeReading set v r q a).raw = some r ∧ (takeReading set v r q a).waiting = none
      ∧ (takeReading set v r q a).limits = a.waiting.getD a.limits ∧ (takeReading set v r q a).stale = Timer.start set.staleTime
      ∧ (takeReading set v r q a).faults.stale = false ∧ (takeReading set v r q a).rising = a.rising
      ∧ (takeReading set v r q a).faults.disagree = a.faults.disagree ∧ (takeReading set v r q a).disagreeStart = a.disagreeStart
      ∧ (takeReading set v r q a).latched = a.latched := by
  rcases hv with rfl | hv
  · rw [takeReading_taken]
    exact ⟨rfl, rfl, rfl, rfl, rfl, rfl, rfl, rfl, rfl, rfl⟩
  · rw [takeReading_fault hv]
    exact ⟨rfl, rfl, rfl, rfl, rfl, rfl, rfl, rfl, rfl, rfl⟩

/-- A TAKEN reading's channel is judged with one that is seen and not STALE. -/
theorem judged_taken (h : v = .taken) : judgedTogether (takeReading set v r q a) b = (b.seen && !b.faults.stale) := by
  subst h
  rw [takeReading_taken]
  unfold judgedTogether
  simp only [storeValue, readingBegun, Bool.true_and, Bool.not_false, Bool.and_true]

/-- The window start and the average of a channel that a value has been stored in (R10). -/
theorem averaged_eq (shift : Nat) (c : Channel) (v : Nat) : averaged shift c v
    = if c.seen = false ∨ shift = 0 then 16 * v else ((c.a16 : Int) + (16 * (v : Int) - c.a16) / 2 ^ shift).toNat := by
  unfold averaged
  refine if_congr ?_ rfl rfl
  simp only [Bool.or_eq_true, Bool.not_eq_true', decide_eq_true_eq]

end

section
variable {set : ChannelSet} {now : Time} {a b c : Channel}

theorem agreed_unjudged (h : judgedTogether a b = false) : agreed set now a b c = c := if_pos h

theorem agreed_apart (h : judgedTogether a b = true) (hfar : set.agreeLimit < apart a b) : agreed set now a b c
    = setAgreement (some (disagreeSince now a)) (disagreesLate set now a || c.faults.disagree) c := by
  unfold agreed
  rw [if_neg (by rw [h]; decide), if_pos hfar]

theorem agreed_near (h : judgedTogether a b = true) (hnear : apart a b ≤ set.agreeLimit) :
    agreed set now a b c = setAgreement none false c := by
  unfold agreed
  rw [if_neg (by rw [h]; decide), if_neg (not_lt.mpr hnear)]

/-- The partner's channel after a judgement: derived again where its DISAGREE has changed. -/
def rejudged (set : ChannelSet) (q p : Channel) : Channel :=
  if p.faults.disagree = q.faults.disagree then p else recomputeLive set p

/-- Only the agreement and the grades of the partner change, its grades where its DISAGREE does (R23). -/
theorem rejudged_agreement {q : Channel} {start : Option Time} {disagree : Bool} :
    rejudged set q (setAgreement start disagree q) = { q with
        disagreeStart := (rejudged set q (setAgreement start disagree q)).disagreeStart
        faults := (rejudged set q (setAgreement start disagree q)).faults
        live := (rejudged set q (setAgreement start disagree q)).live
        latched := (rejudged set q (setAgreement start disagree q)).latched }
      ∧ (rejudged set q (setAgreement start disagree q)).disagreeStart = start
      ∧ (rejudged set q (setAgreement start disagree q)).faults = { q.faults with disagree := disagree }
      ∧ (disagree = q.faults.disagree → (rejudged set q (setAgreement start disagree q)).live = q.live
          ∧ (rejudged set q (setAgreement start disagree q)).latched = q.latched)
      ∧ (disagree ≠ q.faults.disagree →
          rejudged set q (setAgreement start disagree q) = recomputeLive set (setAgreement start disagree q)) := by
  unfold rejudged
  by_cases h : disagree = q.faults.disagree
  · rw [if_pos (show (setAgreement start disagree q).faults.disagree = q.faults.disagree from h)]
    exact ⟨rfl, rfl, rfl, fun _ => ⟨rfl, rfl⟩, fun hn => absurd h hn⟩
  · rw [if_neg (show (setAgreement start disagree q).faults.disagree ≠ q.faults.disagree from h)]
    exact ⟨rfl, rfl, rfl, fun hs => absurd hs h, fun _ => rfl⟩

end

section
variable {set : ChannelSet} {v : Verdict} {r : BitVec 12} {q : BitVec 4} {a : Channel} {start : Option Time} {disagree : Bool}

/-- A TAKEN reading's channel: the faults of the front end gone, the value averaged and graded (R9, R10, R12). -/
theorem shown_taken {b : Channel} (hb : b = recomputeLive set (setAgreement start disagree (takeReading set .taken r q a))) :
    b.faults.fe = false ∧ b.faults.under = false ∧ b.faults.saturated = false ∧ b.last = calibrate set r ∧ b.seen = true
      ∧ b.a16 = (if a.seen = false ∨ set.shift = 0 then 16 * calibrate set r
          else ((a.a16 : Int) + (16 * (calibrate set r : Int) - a.a16) / 2 ^ set.shift).toNat)
      ∧ b.windowStart = (if a.seen then a.windowStart else average b)
      ∧ b.computed = computedGrade set.falling (a.waiting.getD a.limits) (average b) a.computed := by
  rw [takeReading_taken] at hb
  subst hb
  exact ⟨rfl, rfl, rfl, rfl, rfl, averaged_eq _ _ _, rfl, rfl⟩

/-- A reading with a fault adds it and holds the average and the computed grade (R6, R7). -/
theorem shown_fault {b : Channel} (hv : v = .feFault ∨ v = .under ∨ v = .saturated)
    (hb : b = recomputeLive set (takeReading set v r q a)) :
    b.a16 = a.a16 ∧ b.last = a.last ∧ b.seen = a.seen ∧ b.windowStart = a.windowStart ∧ b.computed = a.computed
      ∧ b.faults.fe = (a.faults.fe || v == .feFault) ∧ b.faults.saturated = (a.faults.saturated || v == .saturated)
      ∧ b.faults.under = (a.faults.under || v == .under)
      ∧ b.faults.disagree = a.faults.disagree ∧ b.disagreeStart = a.disagreeStart := by
  rw [takeReading_fault hv] at hb
  subst hb
  exact ⟨rfl, rfl, rfl, rfl, rfl, rfl, rfl, rfl, rfl, rfl⟩

/-- What the partner of a TAKEN reading's channel becomes (R23), with the channel itself. -/
theorem shown_partner {set' : ChannelSet} {now : Time} {c b p q : Channel} (hstart : c.disagreeStart = a.disagreeStart)
    (hdisagree : c.faults.disagree = a.faults.disagree) (hjudged : judgedTogether c q = (q.seen && !q.faults.stale))
    (hb : b = recomputeLive set (agreed set now c q c)) (hp : p = rejudged set' q (agreed set now c q q)) :
    (¬(q.seen = true ∧ q.faults.stale = false) →
        p = q ∧ b.faults.disagree = a.faults.disagree ∧ b.disagreeStart = a.disagreeStart)
      ∧ (q.seen = true ∧ q.faults.stale = false →
          set.agreeLimit < max (average b) (average q) - min (average b) (average q) →
          b.disagreeStart = some (a.disagreeStart.getD now) ∧ p.disagreeStart = some (a.disagreeStart.getD now)
          ∧ b.faults.disagree
              = (decide (set.agreeTime * 1000 ≤ (now - a.disagreeStart.getD now).toNat) || a.faults.disagree)
          ∧ p.faults = { q.faults with
              disagree := decide (set.agreeTime * 1000 ≤ (now - a.disagreeStart.getD now).toNat) || q.faults.disagree })
      ∧ (q.seen = true ∧ q.faults.stale = false →
          max (average b) (average q) - min (average b) (average q) ≤ set.agreeLimit →
          b.disagreeStart = none ∧ p.disagreeStart = none ∧ b.faults.disagree = false
          ∧ p.faults = { q.faults with disagree := false })
      ∧ p = { q with disagreeStart := p.disagreeStart, faults := p.faults, live := p.live, latched := p.latched }
      ∧ (p.faults.disagree = q.faults.disagree → p.live = q.live ∧ p.latched = q.latched)
      ∧ (p.faults.disagree ≠ q.faults.disagree →
          Grade.code p.live = max (Grade.code q.computed) (max (if q.rising then 1 else 0)
            (if hasFault p.faults then Grade.code set'.faultGrade else 0))
          ∧ Grade.code p.latched = max (Grade.code q.latched) (Grade.code p.live)) := by
  have hsince : disagreeSince now c = a.disagreeStart.getD now := by rw [disagreeSince, hstart]
  have hlate : disagreesLate set now c = decide (set.agreeTime * 1000 ≤ (now - a.disagreeStart.getD now).toNat) := by
    rw [disagreesLate, hsince]
  have haverage : average b = average c := by
    rw [hb, agreed_eq]
    rfl
  have hapart : max (average b) (average q) - min (average b) (average q) = apart c q := by rw [haverage]; rfl
  have htogether (h : q.seen = true ∧ q.faults.stale = false) : judgedTogether c q = true := by
    rw [hjudged, h.1, h.2]
    rfl
  have hq := agreed_eq set now c q q
  generalize hagreed : agreed set now c q q = w at hp hq
  obtain ⟨hframe, hpstart, hpfaults, hsame, hnew⟩ := rejudged_agreement (set := set') (q := q) (start := w.disagreeStart)
    (disagree := w.faults.disagree)
  rw [← hq, ← hp] at hframe hpstart hpfaults hsame hnew
  have hpd : p.faults.disagree = w.faults.disagree := by rw [hpfaults]
  refine ⟨fun h => ?_, fun h hfar => ?_, fun h hnear => ?_, hframe, fun h => hsame (hpd.symm.trans h), fun h => ?_⟩
  · have hno : judgedTogether c q = false := by
      rw [hjudged]
      simpa using h
    rw [agreed_unjudged hno] at hagreed hb
    refine ⟨?_, ?_, ?_⟩
    · rw [hp, ← hagreed]
      exact if_pos rfl
    · rw [hb]
      exact hdisagree
    · rw [hb]
      exact hstart
  · rw [agreed_apart (htogether h) (hapart ▸ hfar), hsince, hlate] at hagreed hb
    rw [← hagreed] at hpstart hpfaults
    refine ⟨by rw [hb]; rfl, hpstart, ?_, hpfaults⟩
    rw [hb, ← hdisagree]
    rfl
  · rw [agreed_near (htogether h) (hapart ▸ hnear)] at hagreed hb
    rw [← hagreed] at hpstart hpfaults
    exact ⟨by rw [hb]; rfl, hpstart, by rw [hb]; rfl, hpfaults⟩
  · have hpw := hnew (hpd ▸ h)
    have hlive := recomputeLive_live set' w
    have hlatched := recomputeLive_latched set' w
    rw [← hpw] at hlive hlatched
    have hwf : w.faults = p.faults := by rw [hpw]; rfl
    rw [hwf] at hlive
    rw [hlive, hlatched]
    have hwc : w.computed = q.computed ∧ w.rising = q.rising ∧ w.latched = q.latched := by
      rw [hq]
      exact ⟨rfl, rfl, rfl⟩
    obtain ⟨h1, h2, h3⟩ := hwc
    rw [h1, h2, h3]
    exact ⟨rfl, by rw [hlive, h1, h2]⟩

end

/-- Settles O17: the reading's channel, then its partner, as the arrival leaves them; nothing after it changes a channel. -/
theorem readingTaken : Obligations.ReadingTaken := by
  intro addr data o i s hrun hfull hregion hi hnew
  obtain ⟨d, hexec⟩ := exec_rawAirWrite_new hrun hfull hregion hi hnew
  have cases4 := readingVerdict_cases (set := s.effective.channels[i]) (r := bits data 0 12) hnew (bitOf data 16)
  have verdict := readingVerdict_new (set := s.effective.channels[i]) (r := bits data 0 12) hnew (bitOf data 16)
  have hread := rawReading_arrived (s := beginEvent (reachMemory (fullAccess .sensor addr data) d s)) hi (w := data)
    (v := readingVerdict s.effective.channels[i] s.channels[i] (bits data 0 12) (bits data 12 4) (bitOf data 16)) rfl
    (by rcases cases4 with h | h | h | h <;> rw [h] <;> decide)
  have rest := event_sameBut_of (l := [.air, .trip, .level, .refuge, .fault])
    (reachMemory_sameBut (fullAccess .sensor addr data) d s) (rawReading_within (Fin.ofNat 16 (o / 4)) data _).1
  have acted := hread.trans ((event_sameBut_acted (rawReading (Fin.ofNat 16 (o / 4)) data)
    (reachMemory (fullAccess .sensor addr data) d s)).wide)
  generalize event (rawReading (Fin.ofNat 16 (o / 4)) data) (reachMemory (fullAccess .sensor addr data) d s) = t at hexec rest acted
  obtain ⟨u, hu⟩ : ∃ u, u = beginEvent (reachMemory (fullAccess .sensor addr data) d s) := ⟨_, rfl⟩
  have hair : u.channels = s.channels ∧ u.rate = s.rate ∧ u.effective = s.effective ∧ u.time = s.time := by
    rw [hu]
    exact ⟨rfl, rfl, rfl, rfl⟩
  obtain ⟨hchannels, hrate, heff, htime⟩ := hair
  have hset (k : Fin 24) : channelSet u k = s.effective.channels[k] := by
    unfold channelSet
    rw [heff]
  have hpartner : partnerOf u i = partnerOf s i := by
    unfold partnerOf
    rw [hset]
    rfl
  have hbefore (k : Fin 24) : u.channels[k] = s.channels[k] := by simp only [hchannels]
  generalize hv : readingVerdict s.effective.channels[i] s.channels[i] (bits data 0 12) (bits data 12 4) (bitOf data 16) = v
    at acted cases4 verdict
  have acted : SameBut [.trip, .level, .refuge, .fault]
      (arrived i (v == .taken) (takeReading s.effective.channels[i] v (bits data 0 12) (bits data 12 4)) u) t := by
    rw [hu]
    exact acted
  obtain ⟨start, disagree, hown⟩ := arrived_own i (v == .taken)
    (takeReading s.effective.channels[i] v (bits data 0 12) (bits data 12 4)) u
  have alone (hp : (if (v == Verdict.taken) = true then partnerOf u i else none) = none) (k : Fin 24) := arrived_alone_at
    (f := takeReading s.effective.channels[i] v (bits data 0 12) (bits data 12 4)) hp k
  have only := arrived_only i (v == .taken) (takeReading s.effective.channels[i] v (bits data 0 12) (bits data 12 4)) u
  have judged (k : Fin 24) (hk : partnerOf u i = some k) (hne : k ≠ i) (j : Fin 24) := arrived_judged_at
    (f := takeReading s.effective.channels[i] v (bits data 0 12) (bits data 12 4)) hk hne j
  obtain ⟨hseq, hraw, hwaiting, hlimits, hstale, hnotStale, hrising, hdisagree, hstart, hlatched⟩ :=
    takeReading_begun (set := s.effective.channels[i]) (r := bits data 0 12) (q := bits data 12 4) (a := s.channels[i]) cases4
  have hat (k : Fin 24) : t.channels[k]
      = (arrived i (v == .taken) (takeReading s.effective.channels[i] v (bits data 0 12) (bits data 12 4)) u).channels[k] := by
    simp only [acted.channels]
  rw [← hat, hset, hbefore] at hown
  have alone' (hp : (if (v == Verdict.taken) = true then partnerOf u i else none) = none) (k : Fin 24) : t.channels[k]
      = if k = i then recomputeLive s.effective.channels[i]
          (takeReading s.effective.channels[i] v (bits data 0 12) (bits data 12 4) s.channels[i]) else s.channels[k] := by
    rw [hat, alone hp k, hset, hbefore, hbefore]
  refine ⟨t, hexec, ?_, ?_, rest⟩
  · dsimp only
    rw [hv]
    have hnot (hne : v ≠ .taken) : (if (v == Verdict.taken) = true then partnerOf u i else none) = none := if_neg (by simpa using hne)
    refine ⟨fun hf => ?_, fun hf hr => ?_, fun hf hr hlow => ?_, fun hf hr hlow => ?_, ?_, ?_, ?_, ?_, ?_, ?_, ?_, fun ht => ?_,
      fun hne => ?_, ?_, ?_, fun ht hp => ?_, fun k ht hp hne => ?_, fun hne k hk => ?_, fun k hk hp => ?_⟩
    · rw [verdict, if_pos hf]
    · rw [verdict, hf, if_neg Bool.false_ne_true, if_pos hr]
    · rw [verdict, hf, if_neg Bool.false_ne_true, if_neg hr, if_pos hlow]
    · rw [verdict, hf, if_neg Bool.false_ne_true, if_neg hr, if_neg (not_lt.mpr hlow)]
    · rw [hown]; exact hseq
    · rw [hown]; exact hraw
    · rw [hown]; exact hwaiting
    · rw [hown]; exact hlimits
    · rw [hown]; exact hstale
    · rw [hown]; exact hnotStale
    · rw [hown]; exact hrising
    · rw [ht] at hown
      exact shown_taken hown
    · have hb := (alone' (hnot hne) i).trans (if_pos rfl)
      exact shown_fault (cases4.resolve_left hne) hb
    · rw [hown]
      exact recomputeLive_live _ _
    · rw [hown, ← hlatched]
      exact recomputeLive_latched _ _
    · have hb := (alone' (by rw [hpartner, hp, ite_self]) i).trans (if_pos rfl)
      rw [hb]
      exact ⟨hdisagree, hstart⟩
    · subst ht
      have hti := (hat i).trans ((judged k (hpartner.trans hp) hne i).trans (if_pos rfl))
      have htk := (hat k).trans ((judged k (hpartner.trans hp) hne k).trans ((if_neg hne).trans (if_pos rfl)))
      rw [hset, hbefore, hbefore, htime] at hti htk
      exact shown_partner hstart hdisagree (judged_taken rfl) hti (htk.trans (by rw [hset]; rfl))
    · exact (alone' (hnot hne) k).trans (if_neg hk)
    · by_cases ht : v = .taken
      · subst ht
        cases hq : partnerOf s i with
        | none => exact (alone' (by rw [hpartner, hq, ite_self]) k).trans (if_neg hk)
        | some j =>
          have hj : j ≠ k := fun h => hp (hq.trans (congrArg some h))
          have hqu := hpartner.trans hq
          by_cases hij : j = i
          · subst hij
            obtain ⟨_, _, hall⟩ := arrived_self_at
              (f := takeReading s.effective.channels[j] .taken (bits data 0 12) (bits data 12 4)) hqu
            exact (hat k).trans ((hall k).trans ((if_neg hk).trans (hbefore k)))
          · exact (hat k).trans ((judged j hqu hij k).trans ((if_neg hk).trans ((if_neg (Ne.symm hj)).trans (hbefore k))))
      · exact (alone' (hnot ht) k).trans (if_neg hk)
  · obtain ⟨w, hw⟩ := only
    rw [hw] at acted
    exact acted.rate.trans hrate

/-! ## A chamber's status -/

section
variable {s : State} {c : Fin 4}

/-- A channel whose agreement and grades alone may have changed. -/
def AgreementOnly (a x : Channel) : Prop :=
  ∃ start disagree live latched, x = { setAgreement start disagree a with live := live, latched := latched }

theorem AgreementOnly.refl (a : Channel) : AgreementOnly a a := ⟨a.disagreeStart, a.faults.disagree, a.live, a.latched, rfl⟩

/-- What a chamber's value leaves of its channel (R8). -/
def ValueTaken (set : ChannelSet) (w : BitVec 16) (a x : Channel) : Prop :=
  (w = 0xFFFF → x.faults.fe = true ∧ x.a16 = a.a16 ∧ x.computed = a.computed)
    ∧ (w ≠ 0xFFFF → x.faults.fe = false ∧ x.faults.stale = false ∧ x.seen = true ∧ x.last = min set.fullScale w.toNat
      ∧ x.stale = Timer.start set.staleTime)

theorem ValueTaken.after {set : ChannelSet} {w : BitVec 16} {a x y : Channel} (h : ValueTaken set w a x) (hy : AgreementOnly x y) :
    ValueTaken set w a y := by
  obtain ⟨start, disagree, live, latched, rfl⟩ := hy
  exact h

theorem ValueTaken.before {set : ChannelSet} {w : BitVec 16} {a b x : Channel} (h : ValueTaken set w b x) (hb : AgreementOnly a b) :
    ValueTaken set w a x := by
  obtain ⟨start, disagree, live, latched, rfl⟩ := hb
  exact h

theorem takeChamberValue_taken (set : ChannelSet) (w : BitVec 16) (a : Channel) : ValueTaken set w a (takeChamberValue set w a) := by
  unfold takeChamberValue
  simp only [applyWaiting_eq]
  refine ⟨fun h => ?_, fun h => ?_⟩
  · rw [if_pos h]
    exact ⟨rfl, rfl, rfl⟩
  · rw [if_neg h]
    exact ⟨rfl, rfl, rfl, rfl, rfl⟩

theorem chamberValue_arrived {gas : Gas} {i : Fin 24} (w : BitVec 16) (h : channelOf s (.chamber c gas) = some i) :
    SameBut [.fault] (arrived i (w != 0xFFFF) (takeChamberValue (channelSet s i) w) s) (chamberValue c gas w s) := by
  unfold chamberValue
  simp only [h]
  exact arrival_arrived _ _ _ _

/-- The value's own channel. -/
theorem chamberValue_own {gas : Gas} {i : Fin 24} (w : BitVec 16) (h : channelOf s (.chamber c gas) = some i) :
    ValueTaken (channelSet s i) w s.channels[i] (chamberValue c gas w s).channels[i] := by
  obtain ⟨start, disagree, hown⟩ := arrived_own i (w != 0xFFFF) (takeChamberValue (channelSet s i) w) s
  have hat : (chamberValue c gas w s).channels[i]
      = (arrived i (w != 0xFFFF) (takeChamberValue (channelSet s i) w) s).channels[i] := by
    simp only [(chamberValue_arrived w h).channels]
  rw [hat, hown]
  exact (takeChamberValue_taken _ _ _).after ⟨start, disagree, _, _, recomputeLive_eq _ _⟩

theorem chamberValue_other {gas : Gas} {k : Fin 24} (w : BitVec 16) (h : channelOf s (.chamber c gas) ≠ some k) :
    AgreementOnly s.channels[k] (chamberValue c gas w s).channels[k] := by
  cases hi : channelOf s (.chamber c gas) with
  | none =>
    unfold chamberValue
    simp only [hi]
    exact .refl _
  | some i =>
    have hk : k ≠ i := fun heq => h (hi.trans (congrArg some heq.symm))
    have hat : (chamberValue c gas w s).channels[k]
        = (arrived i (w != 0xFFFF) (takeChamberValue (channelSet s i) w) s).channels[k] := by
      simp only [(chamberValue_arrived w hi).channels]
    rw [hat]
    exact arrived_other hk

theorem chamberValue_rate (gas : Gas) (w : BitVec 16) (s : State) : (chamberValue c gas w s).rate = s.rate := by
  cases hi : channelOf s (.chamber c gas) with
  | none =>
    unfold chamberValue
    simp only [hi]
  | some i =>
    obtain ⟨v, hv⟩ := arrived_only i (w != 0xFFFF) (takeChamberValue (channelSet s i) w) s
    rw [(chamberValue_arrived w hi).rate, hv]

theorem channelOf_congr {t : State} (h : t.effective = s.effective) (source : Source) : channelOf t source = channelOf s source := by
  unfold channelOf
  rw [h]

theorem channelOf_source {source : Source} {i : Fin 24} (h : channelOf s source = some i) : s.effective.channels[i].source = source := by
  simpa using (findIndex_some h).1

/-- A status' value for a gas. -/
def valueOf (o2 co : BitVec 16) : Gas → BitVec 16
  | .o2 => o2
  | .co => co

/-- Both values of a status, each given to its own channel (R157 step 1). -/
theorem chamberValues_taken (o2 co : BitVec 16) {gas : Gas} {i : Fin 24} (h : channelOf s (.chamber c gas) = some i) :
    ValueTaken (channelSet s i) (valueOf o2 co gas) s.channels[i]
      (chamberValue c .co co (chamberValue c .o2 o2 s)).channels[i] := by
  have heff : (chamberValue c .o2 o2 s).effective = s.effective := (chamberValue_within c .o2 o2 s).1.effective
  have hsource := channelOf_source h
  have apart {other : Gas} (hne : other ≠ gas) : channelOf s (.chamber c other) ≠ some i := by
    intro hother
    have hboth := (channelOf_source hother).symm.trans hsource
    cases hboth
    exact hne rfl
  cases gas with
  | o2 => exact (chamberValue_own o2 h).after (chamberValue_other co (by rw [channelOf_congr heff]; exact apart (by decide)))
  | co =>
    have own := chamberValue_own (s := chamberValue c .o2 o2 s) co ((channelOf_congr heff _).trans h)
    have hset : channelSet (chamberValue c .o2 o2 s) i = channelSet s i := by
      unfold channelSet
      rw [heff]
    rw [hset] at own
    exact own.before (chamberValue_other o2 (apart (by decide)))

/-! ### The report -/

/-- A chamber as its status reports it (R157, R159, R160). -/
def reported (set : ChamberSet) (now : Time) (airlock : AirlockReport) (headcount : BitVec 16) (h : Chamber) : Chamber :=
  let told : Chamber := { h with
    lastReport := some now, headcount := some headcount, silent := false, silenceTimer := Timer.start set.silenceTime }
  match airlock with
  | .opened => { told with
      airlock := .opened, airlockTimer := if h.airlock = .opened then h.airlockTimer else Timer.start set.airlockLimit }
  | .shut => { told with airlock := .shut, airlockTimer := .off, airlockLong := false }

theorem reportChamber_at (c d : Fin 4) (airlock : AirlockReport) (headcount : BitVec 16) (s : State) :
    (reportChamber c airlock headcount s).chambers[d]
      = if d = c then reported s.effective.chambers[c] s.time airlock headcount s.chambers[c] else s.chambers[d] := by
  have flagged (b : Bool) (k : Nat) (u : State) : (if b then flagRecord c k false u else u).chambers = u.chambers := by
    split
    · exact (flagRecord_within c k false u).1.chambers
    · rfl
  unfold reportChamber
  cases airlock with
  | opened =>
    simp only [changeChamber_chambers, flagged]
    rw [modifyAt_get, modifyAt_get, modifyAt_get, if_pos rfl]
    split
    · rfl
    · rfl
  | shut =>
    simp only [changeChamber_chambers, flagged]
    rw [modifyAt_get, modifyAt_get, modifyAt_get, if_pos rfl]
    split
    · rfl
    · rfl

theorem reported_shown (set : ChamberSet) (now : Time) (airlock : AirlockReport) (headcount : BitVec 16) (h : Chamber) :
    (reported set now airlock headcount h).lastReport = some now
      ∧ (reported set now airlock headcount h).headcount = some headcount
      ∧ (reported set now airlock headcount h).silent = false
      ∧ (reported set now airlock headcount h).silenceTimer = Timer.start set.silenceTime
      ∧ (reported set now airlock headcount h).occupants = h.occupants
      ∧ (reported set now airlock headcount h).overflow = h.overflow
      ∧ mismatchOf (reported set now airlock headcount h) = decide (headcount.toNat ≠ h.occupants.length + h.overflow)
      ∧ (airlock = .shut → (reported set now airlock headcount h).airlock = .shut
          ∧ (reported set now airlock headcount h).airlockTimer = .off ∧ (reported set now airlock headcount h).airlockLong = false)
      ∧ (airlock = .opened → (reported set now airlock headcount h).airlock = .opened
          ∧ (reported set now airlock headcount h).airlockLong = h.airlockLong
          ∧ (reported set now airlock headcount h).airlockTimer
            = if h.airlock = .opened then h.airlockTimer else Timer.start set.airlockLimit) := by
  have hdecide (a b : Nat) : (a != b) = decide (a ≠ b) := by
    by_cases hab : a = b
    · simp [hab]
    · simp [hab]
  cases airlock with
  | opened => exact ⟨rfl, rfl, rfl, rfl, rfl, rfl, hdecide _ _, (fun h => nomatch h), fun _ => ⟨rfl, rfl, rfl⟩⟩
  | shut => exact ⟨rfl, rfl, rfl, rfl, rfl, rfl, hdecide _ _, fun _ => ⟨rfl, rfl, rfl⟩, (fun h => nomatch h)⟩

/-- The alarm of a chamber that has its reasons derived (R161). -/
theorem alarmed_shown (s : State) (c : Fin 4) :
    (alarmed s c s.chambers[c]).alarm = (occupied (alarmed s c s.chambers[c]) && ((alarmed s c s.chambers[c]).reasons.gas
        || (alarmed s c s.chambers[c]).reasons.silent || (alarmed s c s.chambers[c]).reasons.airlock))
      ∧ (alarmed s c s.chambers[c]).reasons = ⟨channelAlarms s s.effective.chambers[c].o2 || channelAlarms s s.effective.chambers[c].co,
          (alarmed s c s.chambers[c]).silent, (alarmed s c s.chambers[c]).airlockLong⟩ := ⟨rfl, rfl⟩

/-! ### The alarms of every chamber -/

theorem alarmed_again {t : State} (hair : t.channels = s.channels) (heff : t.effective = s.effective) {d : Fin 4}
    (h : t.chambers[d] = s.chambers[d] ∨ t.chambers[d] = alarmed s d s.chambers[d]) :
    alarmed t d t.chambers[d] = alarmed s d s.chambers[d] := by
  have hreasons : standingReasons t d = standingReasons s d := by
    unfold standingReasons channelAlarms
    rcases h with h | h
    · rw [hair, heff, h]
    · rw [hair, heff, h]
      rfl
  unfold alarmed
  rw [hreasons]
  rcases h with h | h
  · rw [h]
  · rw [h]
    rfl

/-- `t` follows from `s` by alarms derived again: each chamber stands as it was or with its alarm as R161 gives it. -/
structure Alarming (s t : State) : Prop where
  air : t.channels = s.channels
  effective : t.effective = s.effective
  each : ∀ d : Fin 4, t.chambers[d] = s.chambers[d] ∨ t.chambers[d] = alarmed s d s.chambers[d]

theorem Alarming.refl (s : State) : Alarming s s := ⟨rfl, rfl, fun _ => .inl rfl⟩

theorem Alarming.own {t : State} (h : Alarming s t) {d : Fin 4} (hused : s.effective.chambers[d].id ≠ 0) :
    (deriveAlarm d t).chambers[d] = alarmed s d s.chambers[d] := by
  rw [deriveAlarm_own (by rw [h.effective]; exact hused)]
  exact alarmed_again h.air h.effective (h.each d)

theorem Alarming.step {t : State} (h : Alarming s t) (d : Fin 4) : Alarming s (deriveAlarm d t) := by
  have within := (deriveAlarm_within d t).1
  refine ⟨within.channels.trans h.air, within.effective.trans h.effective, fun e => ?_⟩
  by_cases he : e = d
  · subst he
    by_cases hused : s.effective.chambers[e].id = 0
    · have hsame : (deriveAlarm e t).chambers = t.chambers := by
        rw [deriveAlarm_chambers, if_pos (by rw [chamberId, h.effective]; exact hused)]
      simp only [hsame]
      exact h.each e
    · exact .inr (h.own hused)
  · rw [deriveAlarm_other he]
    exact h.each e

theorem deriveAlarms_alarming (s : State) : Alarming s (forEach 4 deriveAlarm s) :=
  forEach_keeps (Alarming s) (fun d _ h => h.step d) s (.refl s)

/-- Every used chamber's alarm is as R161 gives it, once all are derived again. -/
theorem deriveAlarms_at (d : Fin 4) (hused : s.effective.chambers[d].id ≠ 0) :
    (forEach 4 deriveAlarm s).chambers[d] = alarmed s d s.chambers[d] := by
  refine forEach_each_of (f := deriveAlarm) (P := Alarming s)
    (fun d t => s.effective.chambers[d].id ≠ 0 → t.chambers[d] = alarmed s d s.chambers[d])
    (fun d _ h => h.step d) (fun d _ h hd => h.own hd) (fun d e t h he hused => ?_) s (.refl s) d hused
  by_cases hde : e = d
  · subst hde
    exact h.own hused
  · rw [deriveAlarm_other hde]
    exact he hused

/-- Telling the readers of the channels without the alarms leaves the chambers. -/
theorem airReaders_chambers (s0 s : State) : (airReaders false s0 s).chambers = s.chambers := by
  have first : Within [.trip, .level] s ((gradesChanged s0 s).foldl alertChannel (reevaluate (channelTouched s0 s) s)) :=
    (reevaluate_within _ s).wide.next (foldl_within (l := [.level]) (fun i u => alertChannel_within u i) _ _)
  have told : airReaders false s0 s = regate (gradesChanged s0 s)
      ((gradesChanged s0 s).foldl alertChannel (reevaluate (channelTouched s0 s) s)) := by
    unfold airReaders
    simp only [Bool.false_eq_true, if_false]
  rw [told, (regate_within _ _).1.chambers, first.1.chambers]

/-- The status of a chamber up to the alarms (R157). -/
def statusTold (c : Fin 4) (airlock : AirlockReport) (o2 co headcount : BitVec 16) (s : State) : State :=
  deriveMismatch c (reportChamber c airlock headcount
    (airReaders false s (chamberValue c .co co (chamberValue c .o2 o2 s))))

theorem takeStatus_eq (c : Fin 4) (airlock : AirlockReport) (o2 co headcount : BitVec 16) (s : State) :
    takeStatus c airlock o2 co headcount s = forEach 4 deriveAlarm (statusTold c airlock o2 co headcount s) := rfl

/-- A status told up to the alarms: the chamber reported with its mismatch, the other chambers as they were, the channels with the
two values (R157, R158). -/
theorem statusTold_chambers (c : Fin 4) (airlock : AirlockReport) (o2 co headcount : BitVec 16) (s : State) :
    (∀ d : Fin 4, d ≠ c → (statusTold c airlock o2 co headcount s).chambers[d] = s.chambers[d])
      ∧ (statusTold c airlock o2 co headcount s).chambers[c]
        = (let h := reported s.effective.chambers[c] s.time airlock headcount s.chambers[c]
           { h with mismatch := mismatchOf h })
      ∧ (statusTold c airlock o2 co headcount s).channels = (chamberValue c .co co (chamberValue c .o2 o2 s)).channels
      ∧ (statusTold c airlock o2 co headcount s).rate = s.rate ∧ (statusTold c airlock o2 co headcount s).effective = s.effective := by
  have values := ((chamberValue_within c .o2 o2 s).trans (chamberValue_within c .co co _)).1
  have hrate := (chamberValue_rate (c := c) .co co (chamberValue c .o2 o2 s)).trans (chamberValue_rate .o2 o2 s)
  have told := (airReaders_within false s (chamberValue c .co co (chamberValue c .o2 o2 s))).1
  have hchambers := airReaders_chambers s (chamberValue c .co co (chamberValue c .o2 o2 s))
  unfold statusTold
  generalize chamberValue c .co co (chamberValue c .o2 o2 s) = v at *
  generalize airReaders false s v = u at *
  have hu : u.chambers = s.chambers := hchambers.trans values.chambers
  have heff : u.effective = s.effective := told.effective.trans values.effective
  have htime : u.time = s.time := told.time.trans values.time
  have derived := (deriveMismatch_within c (reportChamber c airlock headcount u)).1
  have report := (reportChamber_within c airlock headcount u).1
  refine ⟨fun d hd => ?_, ?_, ?_, ?_, ?_⟩
  · rw [deriveMismatch_at, if_neg hd, reportChamber_at, if_neg hd]
    simp only [hu]
  · rw [deriveMismatch_at, if_pos rfl, reportChamber_at, if_pos rfl, htime]
    simp only [hu, heff]
  · rw [derived.channels, report.channels, told.channels]
  · rw [derived.rate, report.rate, told.rate, hrate]
  · rw [derived.effective, report.effective, heff]

end

/-- Settles O48: the report, the mismatch and the alarm of the chamber, and its two channels. -/
theorem refugeStatusTaken : Obligations.RefugeStatusTaken := by
  intro c airlock o2 co headcount s hrun hused
  have hexec : exec (.refugeStatus c airlock o2 co headcount) s
      = .next (frameEvent (.refugeStatus c airlock o2 co headcount) s) := rfl
  rw [frameEvent_defined hrun rfl] at hexec
  have acted := frameTaken_acted (.refugeStatus c airlock o2 co headcount) s
  obtain ⟨x, hx⟩ := handed_eq (.refugeStatus c airlock o2 co headcount) s
  obtain ⟨u, hu⟩ : ∃ u, u = handed (.refugeStatus c airlock o2 co headcount) s := ⟨_, rfl⟩
  have hfound : u.chambers = s.chambers ∧ u.channels = s.channels ∧ u.rate = s.rate ∧ u.effective = s.effective ∧ u.time = s.time := by
    rw [hu, hx]
    exact ⟨rfl, rfl, rfl, rfl, rfl⟩
  obtain ⟨hchambers, hair, hrate, heff, htime⟩ := hfound
  have hchamber : usedChamber u c = true := by simpa [usedChamber, chamberId, heff] using hused
  have htake : takeFrame (.refugeStatus c airlock o2 co headcount) u = takeStatus c airlock o2 co headcount u := if_pos hchamber
  have rest := frameTaken_sameBut (f := .refugeStatus c airlock o2 co headcount) (s := s)
    (by rw [← hu, htake]; exact (takeStatus_within c airlock o2 co headcount u).1)
  rw [← hu, htake, takeStatus_eq] at acted
  generalize frameTaken (.refugeStatus c airlock o2 co headcount) s = t at hexec acted rest
  obtain ⟨hothers, hown, hvalues, htold, heffTold⟩ := statusTold_chambers c airlock o2 co headcount u
  have hset : ∀ i : Fin 24, channelSet u i = s.effective.channels[i] := fun i => by
    unfold channelSet
    rw [heff]
  have taken (gas : Gas) (i : Fin 24) (hi : channelOf u (.chamber c gas) = some i) := chamberValues_taken o2 co hi
  rw [hrate] at htold
  rw [heff] at heffTold
  generalize statusTold c airlock o2 co headcount u = v at *
  have alarming := deriveAlarms_alarming v
  have hcown := deriveAlarms_at (s := v) c (by rw [heffTold]; exact hused)
  have hrateKept : (forEach 4 deriveAlarm v).rate = v.rate :=
    (forEach_within (l := [.refuge, .level]) (fun k w => deriveAlarm_within k w) v).1.rate
  generalize forEach 4 deriveAlarm v = w at *
  have hat (d : Fin 4) : t.chambers[d] = w.chambers[d] := by simp only [acted.chambers]
  refine ⟨t, hexec, ?_, fun d hd => ?_, fun gas i hi => ?_, acted.rate.trans (hrateKept.trans htold), rest⟩
  · have hrep : v.chambers[c] = (let h := reported s.effective.chambers[c] s.time airlock headcount s.chambers[c]
        { h with mismatch := mismatchOf h }) := by
      rw [hown]
      simp only [hchambers, heff, htime]
    have hgas (k : Option (Fin 32)) : channelAlarms v k = channelAlarms t k := by
      unfold channelAlarms
      rw [acted.channels, alarming.air]
    have hb : t.chambers[c] = alarmed v c v.chambers[c] := (hat c).trans hcown
    obtain ⟨halarm, hreasons⟩ := alarmed_shown v c
    obtain ⟨hlast, hcount, hsilent, htimer, hocc, hover, hmismatch, hshut, hopened⟩ :=
      reported_shown s.effective.chambers[c] s.time airlock headcount s.chambers[c]
    rw [hgas, hgas] at hreasons
    simp only [heffTold] at hreasons
    dsimp only at hrep ⊢
    rw [hb]
    refine ⟨?_, ?_, ?_, ?_, ?_, ?_, ?_, fun h => ?_, fun h => ?_, halarm, hreasons⟩
    · rw [alarmed, hrep]; exact hlast
    · rw [alarmed, hrep]; exact hcount
    · rw [alarmed, hrep]; exact hsilent
    · rw [alarmed, hrep]; exact htimer
    · rw [alarmed, hrep]; exact hocc
    · rw [alarmed, hrep]; exact hover
    · rw [alarmed, hrep]; exact hmismatch
    · rw [alarmed, hrep]; exact hshut h
    · rw [alarmed, hrep]; exact hopened h
  · have hd' := hothers d hd
    rw [hat]
    simp only [hchambers] at hd'
    rcases alarming.each d with h | h
    · rw [h, hd']
      exact ⟨rfl, rfl, rfl⟩
    · rw [h, hd']
      exact ⟨rfl, rfl, rfl⟩
  · have value := taken gas i ((channelOf_congr heff _).trans hi)
    have hchannels : t.channels = (chamberValue c .co co (chamberValue c .o2 o2 u)).channels :=
      acted.channels.trans (alarming.air.trans hvalues)
    rw [hset] at value
    simp only [hair] at value
    simp only [hchannels]
    cases gas with
    | o2 => exact value
    | co => exact value

end Sys2Proof.Machine
end

section
/-! PROOFS. The timers of the air unit, the remote alert and an EVACUATE frame (R21, R22, R24, R50, R52). -/

set_option Elab.async false

namespace Sys2Proof.Machine

open Sys2Proof.Config

/-! ## The remote alert -/

section
variable {s : State} {origin : NodeId}

theorem takeAirAlarm_unused (h : origin = s.effective.node.nodeId ∨ s.effective.node.remoteHold = 0) : takeAirAlarm origin s = s := by
  unfold takeAirAlarm
  by_cases hown : origin = s.effective.node.nodeId
  · rw [if_pos hown]
  · rw [if_neg hown, if_pos (h.resolve_left hown)]

theorem takeAirAlarm_used (hown : origin ≠ s.effective.node.nodeId) (hhold : s.effective.node.remoteHold ≠ 0) : takeAirAlarm origin s
    = joinAlert .remote (reportChanged [0x010]
        { s with level := { s.level with remote := .running 0 s.effective.node.remoteHold } }) := by
  unfold takeAirAlarm
  rw [if_neg hown, if_neg hhold, Timer.start, if_neg hhold]

/-- A member that joins or leaves the ALERT cause set leaves the rest of the level unit. -/
theorem joinAlert_level (m : AlertMember) (s : State) : (joinAlert m s).level.remote = s.level.remote
    ∧ (joinAlert m s).level.repeatTimer = s.level.repeatTimer ∧ (joinAlert m s).level.ended = s.level.ended := by
  unfold joinAlert
  split
  · exact ⟨rfl, rfl, rfl⟩
  · exact ⟨rfl, rfl, rfl⟩

theorem leaveAlert_level (m : AlertMember) (s : State) : (leaveAlert m s).level.remote = s.level.remote
    ∧ (leaveAlert m s).level.repeatTimer = s.level.repeatTimer ∧ (leaveAlert m s).level.ended = s.level.ended := by
  unfold leaveAlert
  split
  · exact ⟨rfl, rfl, rfl⟩
  · exact ⟨rfl, rfl, rfl⟩

end

/-- Settles O39: the timer and its member, as the event's end leaves them. -/
theorem remoteAlertHeld : Obligations.RemoteAlertHeld := by
  refine ⟨?_, ?_⟩
  · intro origin channel grade s hrun horigin
    have hexec : exec (.airAlarmFrame origin channel grade) s = .next (frameEvent (.airAlarm origin channel grade) s) := rfl
    rw [frameEvent_defined (f := .airAlarm origin channel grade) hrun horigin] at hexec
    have acted := frameTaken_acted (.airAlarm origin channel grade) s
    have rest := frameTaken_sameBut (takeAirAlarm_within origin (handed (.airAlarm origin channel grade) s)).1
    have whole := frameTaken_sameBut (f := .airAlarm origin channel grade) (s := s) (l := [])
    obtain ⟨u, hu⟩ := handed_eq (.airAlarm origin channel grade) s
    rw [hu] at acted whole
    have acted : SameBut [] (takeAirAlarm origin { beginEvent s with frame := u }) _ := acted
    generalize frameTaken (.airAlarm origin channel grade) s = t at hexec acted rest whole
    obtain ⟨hremote, hrepeat, hended, -, halerts⟩ := acted.level
    by_cases hused : origin ≠ s.effective.node.nodeId ∧ s.effective.node.remoteHold ≠ 0
    · rw [takeAirAlarm_used (s := { beginEvent s with frame := u }) hused.1 hused.2] at hremote hrepeat hended halerts
      obtain ⟨jremote, jrepeat, jended⟩ := joinAlert_level .remote (reportChanged [0x010] { beginEvent s with
        frame := u, level := { (beginEvent s).level with remote := .running 0 s.effective.node.remoteHold } })
      refine ⟨t, hexec, fun _ _ => ⟨hremote.trans jremote, (halerts _ rfl).mpr (mem_joinAlert.mpr (.inl rfl))⟩, fun h => ?_,
        hrepeat.trans jrepeat, hended.trans jended, fun m hm hne => (halerts m hm).trans ?_, rest⟩
      · exact absurd h (not_or.mpr hused)
      · exact mem_joinAlert.trans ⟨fun h => h.resolve_left hne, .inr⟩
    · have hun : origin = s.effective.node.nodeId ∨ s.effective.node.remoteHold = 0 := by
        by_contra hno
        exact hused (not_or.mp hno)
      have hsame := takeAirAlarm_unused (s := { beginEvent s with frame := u }) hun
      rw [hsame] at hrepeat hended halerts
      refine ⟨t, hexec, fun h1 h2 => absurd ⟨h1, h2⟩ hused, fun _ => whole ?_, hrepeat, hended, fun m hm _ => halerts m hm, rest⟩
      have htake : takeFrame (.airAlarm origin channel grade) { beginEvent s with frame := u }
          = takeAirAlarm origin { beginEvent s with frame := u } := rfl
      rw [htake, hsame]
      exact SameBut.refl _ _
  · intro s hrun hdue
    have hexec : exec .remoteAlertExpiry s = .next (expiryEvent (Timer.due s.level.remote) remoteExpiry s) := rfl
    rw [expiryEvent_due hrun hdue] at hexec
    have acted := event_sameBut_acted remoteExpiry s
    have rest := (beginEvent_sameBut s).wide.trans ((remoteExpiry_within (beginEvent s)).1.trans acted.wide)
    obtain ⟨hremote, hrepeat, hended, -, halerts⟩ := acted.level
    have hexpiry : remoteExpiry (beginEvent s) = leaveAlert .remote (reportChanged [0x010]
        { beginEvent s with level := { (beginEvent s).level with remote := .expired } }) := rfl
    rw [hexpiry] at hremote hrepeat hended halerts
    obtain ⟨lremote, lrepeat, lended⟩ := leaveAlert_level .remote (reportChanged [0x010]
      { beginEvent s with level := { (beginEvent s).level with remote := .expired } })
    refine ⟨_, hexec, hremote.trans lremote, fun h => ?_, hrepeat.trans lrepeat, hended.trans lended,
      fun m hm hne => (halerts m hm).trans ?_, rest⟩
    · exact (mem_leaveAlert.mp ((halerts _ rfl).mp h)).1 rfl
    · exact mem_leaveAlert.trans ⟨fun h => h.2, fun h => ⟨hne, h⟩⟩

/-! ## An EVACUATE frame -/

section
variable {s : State} {hop : BitVec 4} {node : NodeId} {seq : BitVec 8} {reason : BitVec 4}

/-- The frame's own cause is the part's, or the ended one (R52). -/
def causeUnused (node : NodeId) (seq : BitVec 8) (s : State) : Prop :=
  node = s.effective.node.nodeId ∨ s.level.ended = some (node, seq)

theorem takeEvacuate_unused (h : causeUnused node seq s) : takeEvacuate hop node seq reason s = s := by
  unfold takeEvacuate
  by_cases hown : node = s.effective.node.nodeId
  · rw [if_pos hown]
  · rw [if_neg hown, if_pos (h.resolve_left hown)]

/-- The frame's hop allows more than the cause in force has left (R52). -/
def hopRaised (hop : BitVec 4) (c : Cause) : Bool :=
  match c.hop with
  | none => decide (1 ≤ hop.toNat)
  | some h => decide (1 ≤ hop.toNat) && decide (h.toNat < hop.toNat - 1)

theorem takeEvacuate_same {c : Cause} (h : ¬causeUnused node seq s) (hc : s.level.cause = some c) (hnode : c.node = node)
    (hseq : c.seq = seq) : takeEvacuate hop node seq reason s = if hopRaised hop c = true then
      reportChanged levelWords { s with level := { s.level with cause := some { c with hop := some (hop - 1) } } } else s := by
  obtain ⟨hown, hended⟩ := not_or.mp h
  have hboth : c.node = node ∧ c.seq = seq := ⟨hnode, hseq⟩
  unfold takeEvacuate hopRaised
  rw [if_neg hown, if_neg hended]
  cases hhop : c.hop with
  | none => simp only [hc, if_pos hboth, hhop]
  | some h => simp only [hc, if_pos hboth, hhop]

theorem takeEvacuate_other {c : Cause} (h : ¬causeUnused node seq s) (hc : s.level.cause = some c) (hne : ¬(c.node = node ∧ c.seq = seq)) :
    takeEvacuate hop node seq reason s = remoteCause hop node seq reason s := by
  obtain ⟨hown, hended⟩ := not_or.mp h
  unfold takeEvacuate
  rw [if_neg hown, if_neg hended]
  simp only [hc, if_neg hne]

theorem takeEvacuate_new (h : ¬causeUnused node seq s) (hc : s.level.cause = none) :
    takeEvacuate hop node seq reason s = remoteCause hop node seq reason s := by
  obtain ⟨hown, hended⟩ := not_or.mp h
  unfold takeEvacuate
  rw [if_neg hown, if_neg hended]
  simp only [hc]

/-- The cause that a frame fills the record with (R51). -/
def remoteRecord (hop : BitVec 4) (node : NodeId) (seq : BitVec 8) (reason : BitVec 4) (s : State) : Cause :=
  { kind := .remote, node := node, seq := seq, hop := if hop = 0 then none else some (hop - 1), reason := reason, time := s.time }

theorem remoteCause_eq (hop : BitVec 4) (node : NodeId) (seq : BitVec 8) (reason : BitVec 4) (s : State) :
    remoteCause hop node seq reason s = takeCause (remoteRecord hop node seq reason s) 0 s := rfl

/-- An EVACUATE frame leaves the timers, the ended cause and the settled members. -/
theorem takeEvacuate_level (hop : BitVec 4) (node : NodeId) (seq : BitVec 8) (reason : BitVec 4) (s : State) :
    (takeEvacuate hop node seq reason s).level.remote = s.level.remote
      ∧ (takeEvacuate hop node seq reason s).level.repeatTimer = s.level.repeatTimer
      ∧ (takeEvacuate hop node seq reason s).level.ended = s.level.ended
      ∧ ∀ m, AlertMember.settled m = true → (m ∈ (takeEvacuate hop node seq reason s).level.alerts ↔ m ∈ s.level.alerts) := by
  obtain ⟨rremote, rrepeat, rended, -, ralerts⟩ := (remoteCause_within hop node seq reason s).1.level
  by_cases hun : causeUnused node seq s
  · rw [takeEvacuate_unused hun]
    exact ⟨rfl, rfl, rfl, fun _ _ => Iff.rfl⟩
  · cases hc : s.level.cause with
    | none =>
      rw [takeEvacuate_new hun hc]
      exact ⟨rremote, rrepeat, rended, ralerts⟩
    | some c =>
      by_cases hsame : c.node = node ∧ c.seq = seq
      · rw [takeEvacuate_same hun hc hsame.1 hsame.2]
        split
        · exact ⟨rfl, rfl, rfl, fun _ _ => Iff.rfl⟩
        · exact ⟨rfl, rfl, rfl, fun _ _ => Iff.rfl⟩
      · rw [takeEvacuate_other hun hc hsame]
        exact ⟨rremote, rrepeat, rended, ralerts⟩

/-- A cause taken behind one in force leaves the record and the own sequence (R53). -/
theorem takeCause_later {c d : Cause} {fault : Nat} (h : s.level.cause = some d) :
    (takeCause c fault s).level.cause = some d ∧ (takeCause c fault s).level.ownSeq = s.level.ownSeq := by
  by_cases hlevel : s.level.level = .evacuate
  · rw [takeCause_of_evacuate h hlevel]
    exact ⟨((laterRecord_works _ _).cause (by decide)).1.trans h, ((laterRecord_works _ _).cause (by decide)).2⟩
  · rw [takeCause_of_waiting h hlevel]
    exact ⟨h, rfl⟩

theorem frameTaken_ownSeq {f : Frame} (h : (takeFrame f (handed f s)).level.cause.isSome = true) :
    (frameTaken f s).level.ownSeq = (takeFrame f (handed f s)).level.ownSeq := by
  rw [← clearHandover_beginEvent] at h ⊢
  exact event_ownSeq h

theorem frameTaken_evacuating {f : Frame} {c : Cause} {current : Bool} {entry : Time}
    (h : Evacuating c current entry (takeFrame f (handed f s))) : Evacuating c current entry (frameTaken f s) := by
  rw [← clearHandover_beginEvent] at h
  exact (event_evacuating (f := fun u => takeFrame f (clearHandover f u)) h).1

/-- A frame that gives a cause brings EVACUATE (R51, R54). -/
theorem frameTaken_cause {f : Frame} {c : Cause} (hrun : s.run = true) (hacted : (takeFrame f (handed f s)).run = true)
    (hcause : (takeFrame f (handed f s)).level.cause = some c) (hsame : (takeFrame f (handed f s)).level.level = s.level.level) :
    (frameTaken f s).level.cause = some c ∧ (frameTaken f s).level.level = .evacuate := by
  by_cases hlevel : s.level.level = .evacuate
  · have goes := frameTaken_evacuating ⟨hacted, hsame.trans hlevel, hcause, rfl, rfl⟩
    exact ⟨goes.cause, goes.level⟩
  · rw [← clearHandover_beginEvent] at hacted hcause hsame
    have entered := (event_entry (f := fun u => takeFrame f (clearHandover f u)) hrun hacted hcause
      (fun h => hlevel (hsame.symm.trans h)) hsame).1
    exact ⟨entered.cause, entered.level⟩

end

/-- Settles O49: the cases of R52 in their order. -/
theorem evacuateFrameTaken : Obligations.EvacuateFrameTaken := by
  intro hop relay node seq reason s hrun hrelay hnode
  have hexec : exec (.evacuateFrame hop relay node seq reason) s = .next (frameEvent (.evacuate hop relay node seq reason) s) := rfl
  have hdef : Frame.defined (.evacuate hop relay node seq reason) = true := by
    unfold Frame.defined
    simp only [hrelay, hnode, Bool.and_self]
  rw [frameEvent_defined hrun hdef] at hexec
  have acted := frameTaken_acted (.evacuate hop relay node seq reason) s
  have rest := frameTaken_sameBut (takeEvacuate_within hop node seq reason (handed (.evacuate hop relay node seq reason) s)).1
  have whole := frameTaken_sameBut (f := .evacuate hop relay node seq reason) (s := s) (l := [])
  have causes {c : Cause} := frameTaken_cause (f := .evacuate hop relay node seq reason) (s := s) (c := c) hrun
  have seqs := frameTaken_ownSeq (f := .evacuate hop relay node seq reason) (s := s)
  obtain ⟨x, hx⟩ := handed_eq (.evacuate hop relay node seq reason) s
  obtain ⟨u, hu⟩ : ∃ u, u = handed (.evacuate hop relay node seq reason) s := ⟨_, rfl⟩
  have hlevel : u.level = (beginEvent s).level ∧ u.effective = s.effective ∧ u.run = true ∧ u.time = s.time := by
    rw [hu, hx]
    exact ⟨rfl, rfl, hrun, rfl⟩
  obtain ⟨hlevel, heff, hurun, htime⟩ := hlevel
  rw [← hu] at acted whole causes seqs
  have htake : takeFrame (.evacuate hop relay node seq reason) u = takeEvacuate hop node seq reason u := rfl
  rw [htake] at acted whole causes seqs
  generalize frameTaken (.evacuate hop relay node seq reason) s = t at *
  have hcause : u.level.cause = s.level.cause := by rw [hlevel]; rfl
  have hunused : causeUnused node seq u ↔ causeUnused node seq s := by
    unfold causeUnused
    rw [hlevel, heff]
    rfl
  obtain ⟨aremote, arepeat, aended, acause, aalerts⟩ := acted.level
  obtain ⟨sremote, srepeat, sended, salerts⟩ := takeEvacuate_level hop node seq reason u
  simp only [hlevel] at sremote srepeat sended salerts
  refine ⟨t, hexec, fun h => whole ?_, fun c h hc hcn hcs => ?_, fun c h hc hne => ?_, fun h hc => ?_, aended.trans sended,
    aremote.trans sremote, arepeat.trans srepeat, fun m hm => (aalerts m hm).trans (salerts m hm), rest⟩
  · rw [takeEvacuate_unused (hunused.mpr h)]
    exact SameBut.refl _ _
  · have heq := takeEvacuate_same (hop := hop) (reason := reason) (fun hn => h (hunused.mp hn)) (hcause.trans hc) hcn hcs
    rw [heq] at acause
    unfold hopRaised at acause
    have hpos : (1 ≤ hop.toNat) ↔ hop ≠ 0 := by
      rw [ne_eq, ← BitVec.toNat_inj]
      exact Nat.one_le_iff_ne_zero
    cases hch : c.hop with
    | none =>
      simp only [hch, decide_eq_true_eq, hpos] at acause ⊢
      by_cases hzero : hop = 0
      · rw [if_neg (fun hn => hn hzero)] at acause
        rw [if_pos hzero, acause (by rw [hcause, hc]; rfl), hcause, hc, ← hch]
      · rw [if_pos hzero] at acause
        rw [if_neg hzero, acause rfl]
        rfl
    | some k =>
      simp only [hch, Bool.and_eq_true, decide_eq_true_eq, hpos] at acause ⊢
      by_cases hraise : hop ≠ 0 ∧ k.toNat < hop.toNat - 1
      · rw [if_pos hraise] at acause ⊢
        rw [acause rfl]
        rfl
      · rw [if_neg hraise] at acause ⊢
        rw [acause (by rw [hcause, hc]; rfl), hcause, hc, ← hch]
  · have heq := takeEvacuate_other (hop := hop) (reason := reason) (fun hn => h (hunused.mp hn)) (hcause.trans hc) hne
    rw [heq, remoteCause_eq] at acause seqs
    obtain ⟨hlater, hseq⟩ := takeCause_later (c := remoteRecord hop node seq reason u) (fault := 0) (hcause.trans hc)
    refine ⟨(acause (by rw [hlater]; rfl)).trans hlater, (seqs (by rw [hlater]; rfl)).trans (hseq.trans ?_)⟩
    rw [hlevel]
    rfl
  · have heq := takeEvacuate_new (hop := hop) (reason := reason) (fun hn => h (hunused.mp hn)) (hcause.trans hc)
    rw [heq, remoteCause_eq, takeCause_of_none (hcause.trans hc)] at seqs causes
    obtain ⟨hfilled, hevacuate⟩ := causes (c := remoteRecord hop node seq reason u) hurun rfl (by rw [hlevel]; rfl)
    refine ⟨hfilled.trans ?_, hevacuate, (seqs rfl).trans ?_⟩
    · unfold remoteRecord
      rw [htime]
    · rw [hlevel]
      rfl

/-! ## The timers of the air unit -/

section
variable {s : State}

/-- The stale timer expired and STALE added (R24). -/
def staled (c : Channel) : Channel := { c with stale := .expired, faults := { c.faults with stale := true } }

theorem staleExpiry_arrived (i : Fin 24) (s : State) :
    SameBut [.trip, .level, .refuge, .fault] (arrived i false staled s) (staleExpiry i s) :=
  (arrival_arrived i false staled s).wide.next (airReaders_within true s _).1

/-! ### Every channel -/

theorem foldl_modifyAt {α : Type} {n : Nat} (f : Fin n → α → α) (l : List (Fin n)) (hl : l.Nodup) (v : Vector α n) (j : Fin n) :
    (l.foldl (fun v i => modifyAt v i (f i)) v)[j] = if j ∈ l then f j v[j] else v[j] := by
  induction l generalizing v with
  | nil => rfl
  | cons i rest ih =>
    obtain ⟨hi, hrest⟩ := List.nodup_cons.mp hl
    rw [List.foldl_cons, ih hrest, modifyAt_get]
    by_cases hji : j = i
    · subst hji
      rw [if_neg hi, if_pos rfl, if_pos List.mem_cons_self]
    · rw [if_neg hji]
      simp only [List.mem_cons, hji, false_or]

theorem eachChannel_eq (f : ChannelSet → Channel → Channel) (s : State) : eachChannel f s = { s with
    channels := (List.finRange 24).foldl (fun v i => modifyAt v i (f (channelSet s i))) s.channels } := by
  unfold eachChannel forEach
  generalize List.finRange 24 = l
  have run (v : Vector Channel 24) : l.foldl (fun t i => changeChannel i (f (channelSet t i)) t) { s with channels := v }
      = { s with channels := l.foldl (fun v i => modifyAt v i (f (channelSet s i))) v } := by
    induction l generalizing v with
    | nil => rfl
    | cons i rest ih => exact ih _
  exact run s.channels

theorem eachChannel_at (f : ChannelSet → Channel → Channel) (s : State) (i : Fin 24) :
    (eachChannel f s).channels[i] = f (channelSet s i) s.channels[i] := by
  have hfold := foldl_modifyAt (fun i => f (channelSet s i)) (List.finRange 24) (List.nodup_finRange 24) s.channels i
  rw [if_pos (List.mem_finRange i)] at hfold
  rw [eachChannel_eq]
  exact hfold

/-- What a rate window expiry makes of a channel (R21, R22). -/
def windowed (stops : Bool) (set : ChannelSet) (c : Channel) : Channel :=
  if stops then stopRateChannel set (rateChannel set c) else rateChannel set c

/-- The channels at a rate window expiry, before anything is handed on. -/
def windowsTaken (s : State) : State :=
  if s.rate.staged = some 0 then eachChannel stopRateChannel (eachChannel rateChannel s) else eachChannel rateChannel s

theorem eachChannel_only (f : ChannelSet → Channel → Channel) (s : State) : OnlyChannels s (eachChannel f s) := ⟨_, eachChannel_eq f s⟩

theorem windowsTaken_only (s : State) : OnlyChannels s (windowsTaken s) := by
  unfold windowsTaken
  split
  · exact (eachChannel_only _ s).trans (eachChannel_only _ _)
  · exact eachChannel_only _ s

theorem windowsTaken_at (s : State) (i : Fin 24) :
    (windowsTaken s).channels[i] = windowed (decide (s.rate.staged = some 0)) (channelSet s i) s.channels[i] := by
  obtain ⟨v, hv⟩ := eachChannel_only rateChannel s
  have hset : channelSet (eachChannel rateChannel s) i = channelSet s i := by rw [hv]; rfl
  unfold windowsTaken windowed
  by_cases h : s.rate.staged = some 0
  · rw [decide_eq_true h, if_pos rfl]
    simp only [if_pos h]
    rw [eachChannel_at, hset, eachChannel_at]
  · rw [decide_eq_false h, if_neg Bool.false_ne_true]
    simp only [if_neg h]
    exact eachChannel_at _ s i

/-- The window and the grades of a channel alone have changed. -/
def WindowOnly (c x : Channel) : Prop :=
  ∃ rising window live latched, x = { c with rising := rising, windowStart := window, live := live, latched := latched }

theorem WindowOnly.trans {c x y : Channel} (h : WindowOnly c x) (k : WindowOnly x y) : WindowOnly c y := by
  obtain ⟨_, _, _, _, rfl⟩ := h
  obtain ⟨_, _, _, _, rfl⟩ := k
  exact ⟨_, _, _, _, rfl⟩

section
variable {set : ChannelSet} {c : Channel}

theorem rateChannel_off (h : set.source = .off) : rateChannel set c = c := if_pos h

theorem rateChannel_none (h : set.source ≠ .off) (hrate : c.limits.rate = 0) :
    rateChannel set c = recomputeLive set { c with rising := false, windowStart := average c } := by
  unfold rateChannel
  rw [if_neg h, if_pos hrate]

theorem rateChannel_unseen (h : set.source ≠ .off) (hrate : c.limits.rate ≠ 0) (hseen : c.seen = false) :
    rateChannel set c = recomputeLive set c := by
  unfold rateChannel
  rw [if_neg h, if_neg hrate, if_pos (by rw [hseen]; rfl)]

/-- The change over the window reaches the rate limit (R22). -/
def risesBy (falling : Bool) (c : Channel) : Bool :=
  decide (if falling then average c + c.limits.rate ≤ c.windowStart else c.windowStart + c.limits.rate ≤ average c)

theorem rateChannel_seen (h : set.source ≠ .off) (hrate : c.limits.rate ≠ 0) (hseen : c.seen = true) : rateChannel set c
    = recomputeLive set { c with rising := risesBy set.falling c, windowStart := average c } := by
  have hrise : decide ((c.limits.rate : Int)
      ≤ if set.falling then (c.windowStart : Int) - average c else (average c : Int) - c.windowStart) = risesBy set.falling c := by
    unfold risesBy
    refine decide_eq_decide.mpr ?_
    cases set.falling with
    | true =>
      simp only [if_true]
      omega
    | false =>
      simp only [Bool.false_eq_true, if_false]
      omega
  unfold rateChannel
  dsimp only
  rw [if_neg h, if_neg hrate, if_neg (by rw [hseen]; decide), hrise]

theorem rateChannel_window (set : ChannelSet) (c : Channel) : WindowOnly c (rateChannel set c) := by
  by_cases h : set.source = .off
  · rw [rateChannel_off h]
    exact ⟨c.rising, c.windowStart, c.live, c.latched, rfl⟩
  · by_cases hrate : c.limits.rate = 0
    · rw [rateChannel_none h hrate]
      exact ⟨_, _, _, _, recomputeLive_eq _ _⟩
    · cases hseen : c.seen with
      | true =>
        rw [rateChannel_seen h hrate hseen]
        exact ⟨_, _, _, _, recomputeLive_eq _ _⟩
      | false =>
        rw [rateChannel_unseen h hrate hseen]
        exact ⟨c.rising, c.windowStart, _, _, recomputeLive_eq _ _⟩

theorem stopRateChannel_off (h : set.source = .off) :
    stopRateChannel set c = { c with rising := false, windowStart := average c } := if_pos h

theorem stopRateChannel_used (h : set.source ≠ .off) :
    stopRateChannel set c = recomputeLive set { c with rising := false, windowStart := average c } := if_neg h

theorem stopRateChannel_window (set : ChannelSet) (c : Channel) : WindowOnly c (stopRateChannel set c)
    ∧ (stopRateChannel set c).rising = false ∧ (stopRateChannel set c).windowStart = average c := by
  by_cases h : set.source = .off
  · rw [stopRateChannel_off h]
    exact ⟨⟨false, average c, c.live, c.latched, rfl⟩, rfl, rfl⟩
  · rw [stopRateChannel_used h]
    exact ⟨⟨_, _, _, _, recomputeLive_eq _ _⟩, rfl, rfl⟩

theorem windowed_window (stops : Bool) (set : ChannelSet) (c : Channel) : WindowOnly c (windowed stops set c) := by
  cases stops with
  | true => exact (rateChannel_window set c).trans (stopRateChannel_window set _).1
  | false => exact rateChannel_window set c

/-- A channel in use has the greatest of its sources as its live grade after the expiry. -/
theorem windowed_live (stops : Bool) (h : set.source ≠ .off) : ∃ x, windowed stops set c = recomputeLive set x := by
  cases stops with
  | true => exact ⟨_, stopRateChannel_used h⟩
  | false =>
    by_cases hrate : c.limits.rate = 0
    · exact ⟨_, rateChannel_none h hrate⟩
    · cases hseen : c.seen with
      | true => exact ⟨_, rateChannel_seen h hrate hseen⟩
      | false => exact ⟨_, rateChannel_unseen h hrate hseen⟩

end

/-- A channel whose faults have not changed hands on no fault. -/
theorem handOn_of_faults {i : Fin 24} {before : Channel} (h : before.faults = s.channels[i].faults) : Within [] s (handOn i before s) := by
  have hfaults : handFaults i before.faults s.channels[i].faults s = s := if_pos h
  unfold handOn
  dsimp only
  rw [hfaults]
  exact (handGrade_within _ _ _ _).trans (postChanged_within _ _)

/-- The expiry of the rate window: the channels, then what they hand on, then the timer and the readers (R21, R22). -/
theorem rateExpiry_windows (s : State) : ∃ t, SameBut [] (windowsTaken s) t
    ∧ rateExpiry s = airReaders true s { t with rate := PeriodTimer.expire t.rate } := by
  refine ⟨forEach 24 (fun i t => handOn i s.channels[i] t) (windowsTaken s), ?_, rfl⟩
  have hfaults (u : State) (hu : SameBut [] (windowsTaken s) u) (i : Fin 24) : s.channels[i].faults = u.channels[i].faults := by
    obtain ⟨_, _, _, _, hx⟩ := windowed_window (decide (s.rate.staged = some 0)) (channelSet s i) s.channels[i]
    simp only [hu.channels]
    rw [windowsTaken_at, hx]
  exact forEach_keeps (SameBut [] (windowsTaken s)) (fun i u hu => hu.trans (handOn_of_faults (hfaults u hu i)).1) _ (SameBut.refl _ _)

end

/-- Settles O36: the stale channel, the timer that is not due, and every channel at the end of a rate window. -/
theorem airTimersExpire : Obligations.AirTimersExpire := by
  refine ⟨?_, ?_, ?_⟩
  · intro i s hrun hdue
    have hexec : exec (.staleTimerExpiry i) s = .next (expiryEvent (Timer.due s.channels[i].stale) (staleExpiry i) s) := rfl
    rw [expiryEvent_due hrun hdue] at hexec
    have rest := (beginEvent_sameBut s).wide.trans ((staleExpiry_within i (beginEvent s)).1.trans
      ((event_sameBut_acted (staleExpiry i) s).wide))
    have acted := (staleExpiry_arrived i (beginEvent s)).trans ((event_sameBut_acted (staleExpiry i) s).wide)
    have hrate : (arrived i false staled (beginEvent s)).rate = s.rate := by
      obtain ⟨v, hv⟩ := arrived_only i false staled (beginEvent s)
      rw [hv]
      rfl
    have hat (k : Fin 24) : (event (staleExpiry i) s).channels[k]
        = if k = i then recomputeLive s.effective.channels[i] (staled s.channels[i]) else s.channels[k] := by
      simp only [acted.channels]
      exact arrived_alone_at (s := beginEvent s) (f := staled) (graded := false) rfl k
    have hchrate := acted.rate.trans hrate
    generalize event (staleExpiry i) s = t at *
    have hown := (hat i).trans (if_pos rfl)
    have hfault : hasFault (staled s.channels[i]).faults = true := by
      unfold hasFault staled
      simp only [Bool.or_true, Bool.true_or]
    refine ⟨t, hexec, ?_, hchrate, rest⟩
    dsimp only
    have hlive := recomputeLive_live s.effective.channels[i] (staled s.channels[i])
    rw [hfault, if_pos rfl] at hlive
    refine ⟨?_, ?_, ?_, ?_, ?_, ?_, ?_, ?_, ?_, ?_, ?_, fun k hk => (hat k).trans (if_neg hk)⟩
    · rw [hown]; rfl
    · rw [hown]; rfl
    · rw [hown]; rfl
    · rw [hown]; rfl
    · rw [hown]; rfl
    · rw [hown]; rfl
    · rw [hown]; rfl
    · rw [hown]; rfl
    · rw [hown]; rfl
    · rw [hown]; exact hlive
    · rw [hown]; exact recomputeLive_latched _ _
  · intro i s hdue
    have hexec : exec (.staleTimerExpiry i) s = .next (expiryEvent (Timer.due s.channels[i].stale) (staleExpiry i) s) := rfl
    rw [hexec, expiryEvent, hdue, Bool.and_false]
    rfl
  · intro s hrun hdue
    have hexec : exec .rateWindowExpiry s = .next (expiryEvent s.rate.due rateExpiry s) := rfl
    rw [expiryEvent_due hrun hdue] at hexec
    have acted := event_sameBut_acted rateExpiry s
    obtain ⟨t, ht, hexpiry⟩ := rateExpiry_windows (beginEvent s)
    rw [hexpiry] at acted
    have told := ((airReaders_within true (beginEvent s) { t with rate := PeriodTimer.expire t.rate }).1).trans acted.wide
    have windows : SameBut [.air] s { t with rate := PeriodTimer.expire t.rate } := by
      obtain ⟨v, hv⟩ := windowsTaken_only (beginEvent s)
      have taken : SameBut [.air] (beginEvent s) (windowsTaken (beginEvent s)) := by
        rw [hv]
        simp [SameBut, SameBase, SameLevel, SameRoad, SameFault, SamePath]
      have expired : SameBut [.air] t { t with rate := PeriodTimer.expire t.rate } := by
        simp [SameBut, SameBase, SameLevel, SameRoad, SameFault, SamePath]
      exact (beginEvent_sameBut s).wide.trans (taken.trans (ht.wide.trans expired))
    have hrate : t.rate = s.rate := by
      obtain ⟨v, hv⟩ := windowsTaken_only (beginEvent s)
      rw [ht.rate, hv]
      rfl
    have hat (i : Fin 24) : (event rateExpiry s).channels[i]
        = windowed (decide (s.rate.staged = some 0)) s.effective.channels[i] s.channels[i] := by
      simp only [told.channels, ht.channels]
      exact windowsTaken_at (beginEvent s) i
    refine ⟨_, hexec, told.rate.trans (congrArg PeriodTimer.expire hrate), fun i => ?_, windows.wide.trans told.wide⟩
    have hi := hat i
    generalize event rateExpiry s = u at hi
    dsimp only
    obtain ⟨_, _, _, _, hx⟩ := windowed_window (decide (s.rate.staged = some 0)) s.effective.channels[i] s.channels[i]
    have hframe := hi.trans hx
    refine ⟨fun hgoes hused => ⟨fun hlimit hseen => ?_, fun hlimit => ?_, fun hlimit hseen => ?_⟩, fun hgoes hoff => ?_, fun hstops => ?_,
      by rw [hframe], by rw [hframe], by rw [hframe], by rw [hframe], by rw [hframe], by rw [hframe], by rw [hframe], fun hused => ?_⟩
    · rw [hi, decide_eq_false hgoes, windowed, if_neg Bool.false_ne_true, rateChannel_seen hused hlimit hseen]
      exact ⟨rfl, rfl⟩
    · rw [hi, decide_eq_false hgoes, windowed, if_neg Bool.false_ne_true, rateChannel_none hused hlimit]
      exact ⟨rfl, rfl⟩
    · rw [hi, decide_eq_false hgoes, windowed, if_neg Bool.false_ne_true, rateChannel_unseen hused hlimit hseen]
      exact ⟨rfl, rfl⟩
    · rw [hi, decide_eq_false hgoes, windowed, if_neg Bool.false_ne_true, rateChannel_off hoff]
    · obtain ⟨-, hrising, hwindow⟩ := stopRateChannel_window s.effective.channels[i] (rateChannel s.effective.channels[i] s.channels[i])
      obtain ⟨_, _, _, _, hy⟩ := rateChannel_window s.effective.channels[i] s.channels[i]
      rw [hi, decide_eq_true hstops, windowed, if_pos rfl]
      refine ⟨hrising, hwindow.trans ?_⟩
      rw [hy]
      rfl
    · obtain ⟨x, hx⟩ := windowed_live (c := s.channels[i]) (decide (s.rate.staged = some 0)) hused
      rw [hi, hx]
      exact recomputeLive_live _ _

end Sys2Proof.Machine
end

section
/-! PROOFS. What each operation of the roadway unit does to the segments, and what the end of an event can do to them (R137 to R145). -/

set_option Elab.async false

namespace Sys2Proof.Machine

open Sys2Proof.Config

/-! ## One segment changed -/

/-- Only segment `i` of the roadway unit has changed. -/
def RoadAt (i : Fin 16) (s t : State) : Prop := ∃ f, t.road = { s.road with segments := modifyAt s.road.segments i f }

section
variable {i : Fin 16} {s t u : State}

theorem RoadAt.of_road (h : t.road = s.road) : RoadAt i s t := by
  refine ⟨fun g => g, h.trans ?_⟩
  show s.road = { s.road with segments := modifyAt s.road.segments i (fun g => g) }
  rw [modifyAt_id]
  exact fun _ => rfl

theorem modifyAt_modifyAt {α : Type} {n : Nat} (v : Vector α n) (i : Fin n) (f g : α → α) :
    modifyAt (modifyAt v i f) i g = modifyAt v i (fun x => g (f x)) := by
  unfold modifyAt
  rw [Vector.set_set]
  congr 1
  exact congrArg g (Vector.getElem_set_self i.isLt)

theorem RoadAt.trans (h : RoadAt i s u) (k : RoadAt i u t) : RoadAt i s t := by
  obtain ⟨f, hf⟩ := h
  obtain ⟨g, hg⟩ := k
  refine ⟨fun x => g (f x), ?_⟩
  rw [hg, hf]
  simp only [modifyAt_modifyAt]

theorem RoadAt.same (h : RoadAt i s u) (k : t.road = u.road) : RoadAt i s t := by
  obtain ⟨f, hf⟩ := h
  exact ⟨f, k.trans hf⟩

theorem RoadAt.others (h : RoadAt i s t) {j : Fin 16} (hj : j ≠ i) : t.road.segments[j] = s.road.segments[j] := by
  obtain ⟨f, hf⟩ := h
  simp only [hf]
  exact modifyAt_other _ f hj

theorem RoadAt.rest (h : RoadAt i s t) :
    t.road.trucks = s.road.trucks ∧ t.road.queueFull = s.road.queueFull ∧ t.road.tableFull = s.road.tableFull := by
  obtain ⟨f, hf⟩ := h
  rw [hf]
  exact ⟨rfl, rfl, rfl⟩

theorem changeSegment_roadAt (i : Fin 16) (f : Segment → Segment) (s : State) : RoadAt i s (changeSegment i f s) := ⟨f, rfl⟩

/-- An event record changes the fault unit and what is handed on to the path. -/
theorem addRecord_eq (k n : Nat) (w : Word) (s : State) : ∃ f p, addRecord k n w s = { s with fault := f, path := p } := by
  unfold addRecord
  split
  · exact ⟨s.fault, s.path, rfl⟩
  · split
    · exact ⟨_, _, rfl⟩
    · exact ⟨_, _, rfl⟩

theorem addRecord_road (k n : Nat) (w : Word) (s : State) : (addRecord k n w s).road = s.road :=
  (addRecord_works k n w s).roads (by decide)

theorem addRecord_ring (k n : Nat) (w : Word) (s : State) : (addRecord k n w s).ring = s.ring := by
  obtain ⟨f, p, h⟩ := addRecord_eq k n w s
  rw [h]

theorem addRecord_level (k n : Nat) (w : Word) (s : State) : (addRecord k n w s).level = s.level := by
  obtain ⟨f, p, h⟩ := addRecord_eq k n w s
  rw [h]

theorem addRecord_run (k n : Nat) (w : Word) (s : State) : (addRecord k n w s).run = s.run :=
  (addRecord_works k n w s).run

theorem addRecord_effective (k n : Nat) (w : Word) (s : State) : (addRecord k n w s).effective = s.effective :=
  (addRecord_works k n w s).effective

/-- A record that the event ring has room for moves the produce index on (R176). -/
theorem addRecord_produce {k n : Nat} {w : Word} (hrun : s.run = true) (hroom : occupancy s.fault ≠ 64) :
    (addRecord k n w s).fault.produce = s.fault.produce + 1 := by
  have hfree : ¬occupancy s.fault = ringRecords := hroom
  rw [addRecord, hrun, Bool.not_true, if_neg Bool.false_ne_true, if_neg hfree]

theorem announceRevoke_requests (i : Fin 16) (truck : Id) (reason : RevokeReason) (form : Nat) (s : State) :
    (announceRevoke i truck reason form s).ring
      = { s.ring with requests := s.ring.requests ++ [.revoke truck (segmentId s i) reason] } := by
  rw [announceRevoke, addRecord_ring]
  rfl

theorem announceRevoke_road (i : Fin 16) (truck : Id) (reason : RevokeReason) (form : Nat) (s : State) :
    (announceRevoke i truck reason form s).road = s.road := (announceRevoke_works _ _ _ _ _).roads (by decide)

theorem joinAlert_road (m : AlertMember) (s : State) : (joinAlert m s).road = s.road := by
  unfold joinAlert
  split
  · rfl
  · rfl

theorem leaveAlert_road (m : AlertMember) (s : State) : (leaveAlert m s).road = s.road := by
  unfold leaveAlert
  split
  · rfl
  · rfl

end

/-! ## The direction derived again -/

/-- A segment with its direction derived: its queue is marked where it leaves CONFLICT (R137). -/
def redirected (d : Direction) (g : Segment) : Segment :=
  { g with direction := d, marked := g.marked || (g.direction == .conflict && d != .conflict) }

theorem redirected_same (g : Segment) : redirected g.direction g = g := by
  cases g with
  | mk direction => cases direction <;> simp [redirected]

theorem redirected_into (g : Segment) : redirected .conflict g = { g with direction := .conflict } := by simp [redirected]

theorem redirected_out {d : Direction} {g : Segment} (hg : g.direction = .conflict) (hd : d ≠ .conflict) :
    redirected d g = { g with direction := d, marked := true } := by simp [redirected, hg, hd]

theorem redirected_turned {d : Direction} {g : Segment} (hg : g.direction ≠ .conflict) :
    redirected d g = { g with direction := d } := by simp [redirected, hg]

/-- The direction that a segment's headings give it (R137). -/
def derivedDirection (s : State) (i : Fin 16) : Direction := directionOf (segmentHeadings s s.road.segments[i])

section
variable {i : Fin 16} {s : State}

theorem rederive_same (h : derivedDirection s i = s.road.segments[i].direction) : rederive i s = s := if_pos h

/-- The state in which a change of direction is told. -/
def turned (i : Fin 16) (s : State) : State := changeSegment i (fun g => { g with direction := derivedDirection s i }) s

/-- A change into CONFLICT told (R137). -/
def conflictTold (i : Fin 16) (s : State) : State :=
  joinAlert (.segment i) (requestFrame (.halt (segmentId s i)) (addRecord recConflictOn (segmentId s i).toNat
    (detail ((s.road.segments[i].granted ++ s.road.segments[i].unauthorised).map (truckField s))) (turned i s)))

/-- A change out of CONFLICT told (R137). -/
def conflictEnded (i : Fin 16) (s : State) : State :=
  markSegment i (leaveAlert (.segment i) (addRecord recConflictOff (segmentId s i).toNat 0 (turned i s)))

theorem rederive_eq (i : Fin 16) (s : State) : rederive i s = if derivedDirection s i = s.road.segments[i].direction then s else
    if derivedDirection s i = .conflict then conflictTold i s
    else if s.road.segments[i].direction = .conflict then conflictEnded i s else turned i s := rfl

theorem rederive_into (h : s.road.segments[i].direction ≠ .conflict) (hd : derivedDirection s i = .conflict) :
    rederive i s = conflictTold i s := by
  rw [rederive_eq, if_neg (fun e => h (e.symm.trans hd)), if_pos hd]

theorem rederive_out (hd : derivedDirection s i ≠ .conflict) (hg : s.road.segments[i].direction = .conflict) :
    rederive i s = conflictEnded i s := by
  rw [rederive_eq, if_neg (fun e => hd (e.trans hg)), if_neg hd, if_pos hg]

theorem rederive_turned (h : derivedDirection s i ≠ s.road.segments[i].direction) (hd : derivedDirection s i ≠ .conflict)
    (hg : s.road.segments[i].direction ≠ .conflict) : rederive i s = turned i s := by
  rw [rederive_eq, if_neg h, if_neg hd, if_neg hg]

theorem turned_road (i : Fin 16) (s : State) : (turned i s).road
    = { s.road with segments := modifyAt s.road.segments i (fun g => { g with direction := derivedDirection s i }) } := rfl

theorem turned_at (i : Fin 16) (s : State) :
    (turned i s).road.segments[i] = { s.road.segments[i] with direction := derivedDirection s i } := modifyAt_at _ i _

theorem conflictTold_road (i : Fin 16) (s : State) : (conflictTold i s).road = (turned i s).road := by
  rw [conflictTold, joinAlert_road, requestFrame_road, addRecord_road]

theorem conflictEnded_road (i : Fin 16) (s : State) : RoadAt i (turned i s) (conflictEnded i s)
    ∧ (conflictEnded i s).road.segments[i] = { s.road.segments[i] with direction := derivedDirection s i, marked := true } := by
  have hroad : (leaveAlert (.segment i) (addRecord recConflictOff (segmentId s i).toNat 0 (turned i s))).road = (turned i s).road := by
    rw [leaveAlert_road, addRecord_road]
  refine ⟨(RoadAt.of_road hroad).trans (changeSegment_roadAt i _ _), ?_⟩
  rw [conflictEnded, markSegment, changeSegment_get]
  simp only [hroad, turned_at]

/-- A direction derived again changes the direction and, out of CONFLICT, the mark (R137). -/
theorem rederive_road (i : Fin 16) (s : State) : RoadAt i s (rederive i s)
    ∧ (rederive i s).road.segments[i] = redirected (derivedDirection s i) s.road.segments[i] := by
  have hturned : RoadAt i s (turned i s) := changeSegment_roadAt i _ s
  by_cases hd : derivedDirection s i = .conflict
  · by_cases hg : s.road.segments[i].direction = .conflict
    · have h := hd.trans hg.symm
      rw [rederive_same h, h, redirected_same]
      exact ⟨.of_road rfl, rfl⟩
    · rw [rederive_into hg hd]
      refine ⟨hturned.same (conflictTold_road i s), ?_⟩
      simp only [conflictTold_road, turned_at, hd, redirected_into]
  · by_cases hg : s.road.segments[i].direction = .conflict
    · rw [rederive_out hd hg, redirected_out hg hd]
      obtain ⟨hat, hget⟩ := conflictEnded_road i s
      exact ⟨hturned.trans hat, hget⟩
    · by_cases h : derivedDirection s i = s.road.segments[i].direction
      · rw [rederive_same h, h, redirected_same]
        exact ⟨.of_road rfl, rfl⟩
      · rw [rederive_turned h hd hg, redirected_turned hg]
        exact ⟨hturned, turned_at i s⟩

end

end Sys2Proof.Machine
end

section
/-! PROOFS. What the end of an event leaves of a segment (R140 to R145), the head of a queue served once, and the roadway unit's timers
(R139, R140, R146 to R148). -/

set_option Elab.async false

namespace Sys2Proof.Machine

open Sys2Proof.Config

/-! ## Work that lets no truck into a segment -/

/-- Trucks have left the holders and the queue of a segment at most; its occupants and its gated grade stand. -/
structure Segment.Left (g h : Segment) : Prop where
  gated : h.gated = g.gated
  granted : h.granted = g.granted
  unauthorised : h.unauthorised = g.unauthorised
  holders : h.holders.Sublist g.holders
  queue : h.queue.Sublist g.queue

/-- Trucks have left holders and queues at most; the truck table and the counts stand. -/
structure RoadLeft (s t : State) : Prop where
  segments : ∀ j : Fin 16, s.road.segments[j].Left t.road.segments[j]
  table : t.road.trucks = s.road.trucks ∧ t.road.queueFull = s.road.queueFull ∧ t.road.tableFull = s.road.tableFull

section
variable {g h k : Segment} {i : Fin 16} {s t u : State}

theorem Segment.Left.refl (g : Segment) : g.Left g := ⟨rfl, rfl, rfl, .refl _, .refl _⟩

theorem Segment.Left.trans (a : g.Left h) (b : h.Left k) : g.Left k :=
  ⟨b.gated.trans a.gated, b.granted.trans a.granted, b.unauthorised.trans a.unauthorised, b.holders.trans a.holders,
    b.queue.trans a.queue⟩

theorem redirected_left (d : Direction) (g : Segment) : g.Left (redirected d g) := ⟨rfl, rfl, rfl, .refl _, .refl _⟩

theorem RoadLeft.of_road (h : t.road = s.road) : RoadLeft s t :=
  ⟨fun j => by
    rw [h]
    exact .refl _, by simp only [h, and_self]⟩

theorem RoadLeft.trans (a : RoadLeft s u) (b : RoadLeft u t) : RoadLeft s t := by
  obtain ⟨ht, hq, hf⟩ := a.table
  obtain ⟨kt, kq, kf⟩ := b.table
  exact ⟨fun j => (a.segments j).trans (b.segments j), kt.trans ht, kq.trans hq, kf.trans hf⟩

/-- Work that does not touch the roads, after work that lets no truck in. -/
theorem RoadLeft.same (a : RoadLeft s u) (b : t.road = u.road) : RoadLeft s t := a.trans (.of_road b)

theorem RoadLeft.works {o : List Opening} (a : RoadLeft s u) (b : Works o u t) (ho : .road ∉ o := by decide) : RoadLeft s t :=
  a.same (b.roads ho)

theorem changeSegment_left {f : Segment → Segment} (i : Fin 16) (s : State) (h : ∀ g : Segment, g.Left (f g)) :
    RoadLeft s (changeSegment i f s) := by
  refine ⟨fun j => ?_, rfl, rfl, rfl⟩
  by_cases hj : j = i
  · subst hj
    rw [changeSegment_get]
    exact h _
  · rw [(changeSegment_only i f s).others j hj]
    exact .refl _

theorem markSegment_left (i : Fin 16) (s : State) : RoadLeft s (markSegment i s) :=
  changeSegment_left i s fun _ => ⟨rfl, rfl, rfl, .refl _, .refl _⟩

theorem dropHolder_left (i : Fin 16) (truck : Id) (s : State) : RoadLeft s (dropHolder i truck s) :=
  changeSegment_left i s fun _ => ⟨rfl, rfl, rfl, List.filter_sublist, .refl _⟩

theorem dropWaiter_left (i : Fin 16) (truck : Id) (s : State) : RoadLeft s (dropWaiter i truck s) :=
  changeSegment_left i s fun _ => ⟨rfl, rfl, rfl, .refl _, List.filter_sublist⟩

theorem rederive_left (i : Fin 16) (s : State) : RoadLeft s (rederive i s) := by
  obtain ⟨hat, hget⟩ := rederive_road i s
  refine ⟨fun j => ?_, hat.rest⟩
  by_cases hj : j = i
  · subst hj
    rw [hget]
    exact redirected_left _ _
  · rw [hat.others hj]
    exact .refl _

theorem revokeHolder_left (i : Fin 16) (reason : RevokeReason) (truck : Id) (s : State) :
    RoadLeft s (revokeHolder i reason truck s) :=
  ((((dropHolder_left i truck s).works (withdrawGrant_works _ _ _)).works (announceRevoke_works _ _ _ _ _)).trans
    (rederive_left i _)).trans (markSegment_left i _)

theorem revokeWaiter_left (i : Fin 16) (reason : RevokeReason) (truck : Id) (s : State) :
    RoadLeft s (revokeWaiter i reason truck s) :=
  ((dropWaiter_left i truck s).works (announceRevoke_works _ _ _ _ _)).trans (markSegment_left i _)

theorem eachTruck_left {f : Id → State → State} (hf : ∀ id s, RoadLeft s (f id s)) (l : List Id) (s : State) :
    RoadLeft s (eachTruck f l s) := by
  unfold eachTruck
  induction l generalizing s with
  | nil => exact .of_road rfl
  | cons id rest ih => exact (hf id s).trans (ih _)

theorem forEach_left {n : Nat} {f : Fin n → State → State} (hf : ∀ i s, RoadLeft s (f i s)) (s : State) :
    RoadLeft s (forEach n f s) := by
  unfold forEach
  generalize List.finRange n = l
  induction l generalizing s with
  | nil => exact .of_road rfl
  | cons i rest ih => exact (hf i s).trans (ih _)

theorem evacuateSegment_left (i : Fin 16) (s : State) : RoadLeft s (evacuateSegment i s) :=
  ((eachTruck_left (revokeHolder_left i .evacuation) _ s).trans (eachTruck_left (revokeWaiter_left i .evacuation) _ _)).trans
    (markSegment_left i _)

theorem evacuateRoads_left (s : State) : RoadLeft s (evacuateRoads s) := by
  refine forEach_left (fun i u => ?_) s
  split
  · exact evacuateSegment_left i u
  · exact .of_road rfl

theorem markRoads_left (s : State) : RoadLeft s (markRoads s) := by
  refine forEach_left (fun i u => ?_) s
  split
  · exact markSegment_left i u
  · exact .of_road rfl

theorem tellReaders_left (before after : Level) (s : State) : RoadLeft s (tellReaders before after s) := by
  unfold tellReaders
  have hevacuated := evacuateRoads_left s
  have hmarked := markRoads_left s
  generalize evacuateRoads s = u at hevacuated ⊢
  generalize markRoads s = v at hmarked ⊢
  split
  · exact hevacuated.same rfl
  · split
    · exact hmarked.same rfl
    · exact .of_road rfl

theorem requestEvacuate_road (s : State) : (requestEvacuate s).road = s.road := (requestEvacuate_works s).roads (by decide)

theorem withdrawEvacuate_road (s : State) : (withdrawEvacuate s).road = s.road := (withdrawEvacuate_works s).roads (by decide)

theorem levelHanded_road (before after : Level) (s : State) :
    (levelHanded before after s).road = (tellReaders before after (leveled before after s)).road := by
  rw [levelHanded_eq]
  show (if after = .evacuate then _ else _ : State).road = _
  split
  · exact requestEvacuate_road _
  · split
    · exact withdrawEvacuate_road _
    · rfl

theorem leveled_road (before after : Level) (s : State) : (leveled before after s).road = s.road :=
  (changeRecord_works before after s).roads (by decide)

/-- A change of the level moves the roads as its readers do. -/
theorem deriveLevel_road (h : levelOf s.level ≠ s.level.level) : (deriveLevel s).road
    = (tellReaders s.level.level (levelOf s.level) (leveled s.level.level (levelOf s.level) s)).road := by
  rw [deriveLevel_eq h, (laterRecords_works _ _).roads (by decide), ← levelHanded_road]
  split
  · exact setMuster_road _ _
  · split
    · exact setMuster_road _ _
    · rfl

theorem deriveLevel_left (s : State) : RoadLeft s (deriveLevel s) := by
  by_cases h : levelOf s.level = s.level.level
  · rw [deriveLevel, if_pos h]
    exact .of_road rfl
  · exact ((RoadLeft.of_road (leveled_road _ _ _)).trans (tellReaders_left _ _ _)).same (deriveLevel_road h)

end

/-! ## A waiter granted -/

/-- A head of a queue granted (R140). -/
def Segment.grant (holder : Holder) (rest : List Waiter) (g : Segment) : Segment :=
  { g with queue := rest, holders := g.holders ++ [holder], direction := headingDirection holder.dir }

/-- What the level `l` leaves a segment keeps: trucks leave its holders and its queue, and a head that evacuation does not bar is
granted. -/
structure SegmentLaw (l : Level) (Q : Segment → Prop) : Prop where
  left : ∀ {g h : Segment}, g.Left h → Q g → Q h
  grant : ∀ {g : Segment} {w : Waiter} {rest : List Waiter} {holder : Holder}, g.queue = w :: rest →
    ¬(l = .evacuate ∧ w.dir = .inbye) → holder.truck = w.truck → holder.dir = w.dir → Q g → Q (g.grant holder rest)

section
variable {i : Fin 16} {s t : State} {w : Waiter} {rest : List Waiter}

/-- The holder that a grant makes of a waiter (R140). -/
def grantedHolder (s : State) (i : Fin 16) (w : Waiter) : Holder :=
  { truck := w.truck, dir := w.dir, grant := Timer.start s.effective.segments[i].grantTime }

theorem grantHead_segment (i : Fin 16) (w : Waiter) (rest : List Waiter) (s : State) :
    (grantHead i w rest s).road.segments[i] = s.road.segments[i].grant (grantedHolder s i w) rest := by
  rw [grantHead]
  simp only [requestFrame_road, addRecord_road, changeSegment_get]
  rfl

theorem grantHead_requests (i : Fin 16) (w : Waiter) (rest : List Waiter) (s : State) :
    (grantHead i w rest s).ring.requests = s.ring.requests ++ [.grant w.truck s.effective.segments[i].id w.dir] := by
  rw [grantHead]
  simp only [requestFrame_ring, addRecord_ring]
  rfl

theorem serveHead_empty (h : s.road.segments[i].queue = []) : serveHead i s = none := by
  simp only [serveHead, h]

theorem serveHead_removed {reason : RevokeReason} (h : s.road.segments[i].queue = w :: rest)
    (hr : removalReason s s.road.segments[i] w = some reason) : serveHead i s = some (revokeWaiter i reason w.truck s) := by
  simp only [serveHead, h, hr]

theorem serveHead_granted (h : s.road.segments[i].queue = w :: rest) (hr : removalReason s s.road.segments[i] w = none)
    (hg : grantable s i s.road.segments[i] w = true) : serveHead i s = some (grantHead i w rest s) := by
  simp only [serveHead, h, hr, hg, if_true]

theorem serveHead_waits (h : s.road.segments[i].queue = w :: rest) (hr : removalReason s s.road.segments[i] w = none)
    (hg : grantable s i s.road.segments[i] w = false) : serveHead i s = none := by
  simp only [serveHead, h, hr, hg, Bool.false_eq_true, if_false]

/-- Why a head is removed (R139). -/
theorem removalReason_cases (s : State) (g : Segment) (w : Waiter) :
    removalReason s g w = if g.gated = .trip ∨ (isDiesel s w.truck = true ∧ 2 ≤ Grade.code g.gated) then some .gas
      else if s.level.level = .evacuate ∧ w.dir = .inbye then some .evacuation else none := by
  have hcode : Grade.atLeastAlarm g.gated = true ↔ 2 ≤ Grade.code g.gated := by
    cases g.gated <;> decide
  by_cases ht : g.gated = .trip
  · rw [removalReason, if_pos ht, if_pos (.inl ht)]
  · by_cases hd : isDiesel s w.truck = true ∧ 2 ≤ Grade.code g.gated
    · rw [removalReason, if_neg ht, if_pos (by rw [hd.1, hcode.mpr hd.2]; rfl), if_pos (.inr hd)]
    · rw [removalReason, if_neg ht, if_neg (by rw [Bool.and_eq_true, hcode]; exact hd), if_neg (not_or.mpr ⟨ht, hd⟩)]

theorem grantable_iff (s : State) (i : Fin 16) (g : Segment) (w : Waiter) : grantable s i g w = true ↔
    (g.direction = .free ∨ g.direction = headingDirection w.dir)
      ∧ g.holders.length + g.granted.length < s.effective.segments[i].convoy := by
  simp [grantable]

theorem revokeWaiter_requests (i : Fin 16) (reason : RevokeReason) (truck : Id) (s : State) :
    (revokeWaiter i reason truck s).ring.requests = s.ring.requests ++ [.revoke truck s.effective.segments[i].id reason] := by
  show (announceRevoke i truck reason 2 (dropWaiter i truck s)).ring.requests = _
  rw [announceRevoke_requests]
  rfl

theorem revokeWaiter_segment (i : Fin 16) (reason : RevokeReason) (truck : Id) (s : State) :
    (revokeWaiter i reason truck s).road.segments[i]
      = { s.road.segments[i] with queue := s.road.segments[i].queue.filter (fun w => w.truck != truck), marked := true } := by
  rw [revokeWaiter, markSegment, changeSegment_get]
  simp only [announceRevoke_road]
  rw [dropWaiter, changeSegment_get]

/-- Settles O44: the head of a queue is removed where gas or evacuation bars it, granted where the segment can take it, and stops the
queue otherwise. -/
theorem queueHeadServed : Obligations.QueueHeadServed := by
  unfold Obligations.QueueHeadServed
  intro i s
  refine ⟨serveHead_empty, fun w rest hq => ?_⟩
  have hreason := removalReason_cases s s.road.segments[i] w
  refine ⟨fun hbarred => ?_, fun hfree hfits => ?_, fun hfree hfits => ?_⟩
  · have hremoved : removalReason s s.road.segments[i] w = some (if s.road.segments[i].gated = .trip
        ∨ (isDiesel s w.truck = true ∧ 2 ≤ Grade.code s.road.segments[i].gated) then .gas else .evacuation) := by
      rw [hreason]
      split
      · rfl
      · rename_i hgas
        obtain ⟨htrip, hdiesel⟩ := not_or.mp hgas
        rw [if_pos ((hbarred.resolve_left htrip).resolve_left hdiesel)]
    refine ⟨_, serveHead_removed hq hremoved, ?_, ?_, revokeWaiter_requests _ _ _ _⟩
    · rw [revokeWaiter_segment, waits]
      simp
    · rw [revokeWaiter_segment]
  all_goals
    obtain ⟨htrip, hrest⟩ := not_or.mp hfree
    obtain ⟨hdiesel, hevac⟩ := not_or.mp hrest
    rw [if_neg (not_or.mpr ⟨htrip, hdiesel⟩), if_neg hevac] at hreason
  · exact ⟨_, serveHead_granted hq hreason ((grantable_iff _ _ _ _).mpr hfits), grantHead_segment _ _ _ _,
      grantHead_requests _ _ _ _⟩
  · exact serveHead_waits hq hreason (Bool.eq_false_iff.mpr fun h => hfits ((grantable_iff _ _ _ _).mp h))

end

/-! ## The end of an event -/

section
variable {l : Level} {Q : Segment → Prop} {i : Fin 16} {s0 s t : State}

theorem SegmentLaw.of_left (h : SegmentLaw l Q) (hs : RoadLeft s t) (hQ : Q s.road.segments[i]) : Q t.road.segments[i] :=
  h.left (hs.segments i) hQ

theorem serveHead_level {i : Fin 16} (h : serveHead i s = some t) : t.level.level = s.level.level :=
  ((serveHead_works h).level (by decide)).1

theorem SegmentLaw.serveHead (h : SegmentLaw l Q) (hl : s.level.level = l) (hQ : Q s.road.segments[i])
    (ht : Machine.serveHead i s = some t) : Q t.road.segments[i] := by
  unfold Machine.serveHead at ht
  dsimp only at ht
  split at ht
  · cases ht
  · rename_i w rest hq
    split at ht
    · cases ht
      exact h.of_left (revokeWaiter_left _ _ _ _) hQ
    · rename_i hreason
      split at ht
      · cases ht
        rw [grantHead_segment]
        refine h.grant hq (fun hbarred => ?_) rfl rfl hQ
        rw [removalReason_cases, hl, if_pos hbarred] at hreason
        split at hreason <;> cases hreason
      · cases ht

theorem SegmentLaw.serveHeads (h : SegmentLaw l Q) (n : Nat) (hl : s.level.level = l) (hQ : Q s.road.segments[i]) :
    Q (Machine.serveHeads n i s).road.segments[i] := by
  induction n generalizing s with
  | zero => exact hQ
  | succ n ih =>
    cases hu : Machine.serveHead i s with
    | none => simpa only [Machine.serveHeads, hu] using hQ
    | some u =>
      simp only [Machine.serveHeads, hu]
      exact ih ((serveHead_level hu).trans hl) (h.serveHead hl hQ hu)

theorem SegmentLaw.serveSegment (h : SegmentLaw l Q) (k : Fin 16) (hl : s.level.level = l) (hQ : Q s.road.segments[i]) :
    Q (Machine.serveSegment k s).road.segments[i] := by
  by_cases hk : i = k
  · subst hk
    exact h.of_left (changeSegment_left i _ fun _ => ⟨rfl, rfl, rfl, .refl _, .refl _⟩) (h.serveHeads _ hl hQ)
  · rw [(serveSegment_at k s).1 i hk]
    exact hQ

theorem forgetTruck_segments (p : Fin 32) (s : State) : (forgetTruck p s).road.segments = s.road.segments := by
  unfold forgetTruck
  split
  · show (addRecord _ _ _ s).road.segments = _
    rw [addRecord_road]
  · rfl

/-- A thing that the end of an event does derives the level, serves a segment's queue, forgets a truck, or leaves the roads and the
level. -/
theorem settleStep_road (h : settleStep s0 s = some t) : t = deriveLevel s ∨ (∃ k, t = serveSegment k s)
    ∨ (∃ p, firstForgettable s = some p ∧ t = forgetTruck p s) ∨ (t.road = s.road ∧ t.level.level = s.level.level) := by
  rcases settleStep_cases h with ⟨-, rfl⟩ | ⟨-, hu⟩ | ⟨-, -, hp⟩
  · have hw := enterFollowUp_works (o := pathOpenings) (s := s) fun u _ => stall_works u
    exact .inr (.inr (.inr ⟨hw.roads (by decide), (hw.level (by decide)).1⟩))
  · obtain ⟨-, ⟨-, rfl⟩ | ⟨-, k, -, rfl⟩ | ⟨-, -, p, hp, rfl⟩ | ⟨-, -, -, -, rfl⟩ | ⟨-, -, -, -, f, rest, hf, rfl⟩
      | ⟨-, -, -, -, -, -, rfl⟩⟩ := settleUnits_cases hu
    · exact .inl rfl
    · exact .inr (.inl ⟨k, rfl⟩)
    · exact .inr (.inr (.inl ⟨p, hp, rfl⟩))
    · exact .inr (.inr (.inr ⟨setMuster_road _ _, rfl⟩))
    · have hw := takeRequest_works hf
      exact .inr (.inr (.inr ⟨hw.roads (by decide), (hw.level (by decide)).1⟩))
    · have hw := buildFrame_works s
      exact .inr (.inr (.inr ⟨hw.roads (by decide), (hw.level (by decide)).1⟩))
  · have hw := settlePath_works (o := pathOpenings) (by simp) hp fun u _ => stall_works u
    exact .inr (.inr (.inr ⟨hw.roads (by decide), (hw.level (by decide)).1⟩))

/-- What every level leaves of a segment, the end of an event leaves. -/
theorem event_keeps_segment {f : State → State} (h : ∀ l, SegmentLaw l Q) (hQ : Q (f (beginEvent s)).road.segments[i]) :
    Q (event f s).road.segments[i] := by
  refine event_keeps (P := fun u => Q u.road.segments[i]) (fun s0 u v hu hstep => ?_) (fun u hu => ?_) (fun u hu => hu) hQ
  · rcases settleStep_road hstep with rfl | ⟨k, rfl⟩ | ⟨p, -, rfl⟩ | ⟨hsame, -⟩
    · exact (h .normal).of_left (deriveLevel_left u) hu
    · exact (h u.level.level).serveSegment k rfl hu
    · rw [forgetTruck_segments]
      exact hu
    · rw [hsame]
      exact hu
  · rw [sweepPut_road]
    exact hu

end

end Sys2Proof.Machine
end

section
/-! PROOFS. The roadway unit's timers (R146 to R148) and a cleared truck (R149). -/

set_option Elab.async false

namespace Sys2Proof.Machine

open Sys2Proof.Config

/-! ## A truck without a place -/

/-- The truck neither holds the segment nor waits for it. -/
def unplaced (id : Id) (g : Segment) : Prop := holds g id = false ∧ waits g id = false

/-- The truck does not wait for the segment. -/
def unqueued (id : Id) (g : Segment) : Prop := waits g id = false

section
variable {id : Id} {g h : Segment} {l : Level} {i : Fin 16} {s t : State}

theorem Segment.Left.holds (k : g.Left h) (hg : Machine.holds g id = false) : Machine.holds h id = false := by
  rw [← Bool.not_eq_true, holds_iff] at hg ⊢
  exact fun hm => hg ((k.holders.map _).subset hm)

theorem Segment.Left.waits (k : g.Left h) (hg : Machine.waits g id = false) : Machine.waits h id = false := by
  rw [← Bool.not_eq_true, waits_iff] at hg ⊢
  exact fun hm => hg ((k.queue.map _).subset hm)

theorem waits_cons {w : Waiter} {rest : List Waiter} (hq : g.queue = w :: rest) (h : waits g id = false) :
    w.truck ≠ id ∧ ∀ k : Segment, k.queue = rest → waits k id = false := by
  simp only [waits, hq, List.any_cons, Bool.or_eq_false_iff, beq_eq_false_iff_ne] at h
  exact ⟨h.1, fun k hk => by rw [waits, hk]; exact h.2⟩

theorem unqueued_law (l : Level) (id : Id) : SegmentLaw l (unqueued id) where
  left k h := k.waits h
  grant hq _ _ _ h := (waits_cons hq h).2 _ rfl

theorem unplaced_law (l : Level) (id : Id) : SegmentLaw l (unplaced id) where
  left k h := ⟨k.holds h.1, k.waits h.2⟩
  grant {g w rest holder} hq _ htruck _ h := by
    obtain ⟨hholds, hwaits⟩ := h
    obtain ⟨hne, hrest⟩ := waits_cons hq hwaits
    refine ⟨?_, hrest _ rfl⟩
    have hnew : (holder.truck == id) = false := by rw [htruck, beq_eq_false_iff_ne]; exact hne
    rw [holds, Segment.grant, List.any_append]
    show (holds g id || _) = false
    rw [hholds, List.any_cons, hnew]
    rfl

theorem dropHolder_holds (i : Fin 16) (truck : Id) (s : State) : holds (dropHolder i truck s).road.segments[i] truck = false := by
  rw [dropHolder, changeSegment_get]
  simp [holds]

theorem dropWaiter_waits (i : Fin 16) (truck : Id) (s : State) : waits (dropWaiter i truck s).road.segments[i] truck = false := by
  rw [dropWaiter, changeSegment_get]
  simp [waits]

/-! ## The grant timer -/

/-- A lapse takes the truck off the holders (R146). -/
theorem grantExpiry_unplaced (h : waits s.road.segments[i] id = false) : unplaced id (grantExpiry i id s).road.segments[i] := by
  have dropped : unplaced id (dropHolder i id s).road.segments[i] :=
    ⟨dropHolder_holds i id s, ((dropHolder_left i id s).segments i).waits h⟩
  have hroad : (requestFrame (.revoke id (segmentId s i) .lapsed) (addRecord recGrantLapsed id.toNat
      (detail [detailId (segmentId s i).toNat]) (withdrawGrant id (segmentId s i) (dropHolder i id s)))).road
        = (dropHolder i id s).road := by
    rw [requestFrame_road, addRecord_road]
    rfl
  exact (unplaced_law .normal id).of_left
    (((RoadLeft.of_road hroad).trans (rederive_left i _)).trans (markSegment_left i _)) dropped

/-! ## The stale timer -/

/-- A truck's queue entries dropped from every queue, each marked (R147). -/
def leaveQueues (truck : Id) (s : State) : State :=
  forEach 16 (fun k s => if waits s.road.segments[k] truck then markSegment k (dropWaiter k truck s) else s) s

theorem leaveQueues_left (truck : Id) (s : State) : RoadLeft s (leaveQueues truck s) := by
  refine forEach_left (fun i u => ?_) s
  split
  · exact (dropWaiter_left i truck u).trans (markSegment_left i _)
  · exact .of_road rfl

theorem leaveQueues_waits (truck : Id) (s : State) (j : Fin 16) : waits (leaveQueues truck s).road.segments[j] truck = false := by
  have each := forEach_each
    (f := fun (k : Fin 16) (u : State) => if waits u.road.segments[k] truck then markSegment k (dropWaiter k truck u) else u)
    (Q := fun j u => waits u.road.segments[j] truck = false) (fun k u => ?_) (fun k j u hu => ?_) s j
  · unfold leaveQueues
    with_reducible exact each
  · split
    · exact ((markSegment_left k _).segments k).waits (dropWaiter_waits k truck u)
    · rename_i h
      simpa using h
  · split
    · exact (((dropWaiter_left k truck u).trans (markSegment_left k _)).segments j).waits hu
    · exact hu

variable {p : Fin 32} {k : Truck}

theorem truckStaleExpiry_lost {at_ : Time} (hp : s.road.trucks[p] = some k) (hl : k.lost = some at_) :
    truckStaleExpiry p s = setTruck p (some { k with stale := .expired }) s := by
  simp only [truckStaleExpiry, hp, hl]

theorem truckStaleExpiry_tracked (hp : s.road.trucks[p] = some k) (hl : k.lost = none) :
    truckStaleExpiry p s = leaveQueues k.id (addRecord recTruckLost k.id.toNat
      (detail [detailId k.lastSegment.toNat, detailTime k.lastBeacon])
      (setTruck p (some { k with stale := .expired, lost := some s.time }) s)) := by
  simp only [truckStaleExpiry, hp, hl]
  rfl

/-- The record of a truck whose stale timer has expired (R147). -/
def staleTruck (k : Truck) (now : Time) : Truck := { k with stale := .expired, lost := some (k.lost.getD now) }

/-- A stale expiry changes the truck's record and, for a TRACKED truck, takes it out of every queue (R147). -/
theorem truckStaleExpiry_road (hp : s.road.trucks[p] = some k) :
    (truckStaleExpiry p s).road.trucks[p] = some (staleTruck k s.time)
      ∧ RoadLeft (setTruck p (some (staleTruck k s.time)) s) (truckStaleExpiry p s)
      ∧ (k.lost = none → ∀ i : Fin 16, waits (truckStaleExpiry p s).road.segments[i] k.id = false) := by
  have hleft : RoadLeft (setTruck p (some (staleTruck k s.time)) s) (truckStaleExpiry p s)
      ∧ (k.lost = none → ∀ i : Fin 16, waits (truckStaleExpiry p s).road.segments[i] k.id = false) := by
    cases hl : k.lost with
    | some at_ =>
      rw [truckStaleExpiry_lost hp hl]
      refine ⟨.of_road ?_, nofun⟩
      simp only [setTruck_road, staleTruck, hl, Option.getD_some]
    | none =>
      rw [truckStaleExpiry_tracked hp hl]
      refine ⟨(RoadLeft.of_road ?_).trans (leaveQueues_left _ _), fun _ i => leaveQueues_waits _ _ i⟩
      rw [addRecord_road]
      simp only [setTruck_road, staleTruck, hl, Option.getD_none]
  refine ⟨?_, hleft⟩
  rw [hleft.1.table.1, setTruck_road]
  show (s.road.trucks.set p _)[p] = _
  rw [set_get, if_pos rfl]

/-! ## The forget timer -/

theorem truckForgetExpiry_eq (hp : s.road.trucks[p] = some k) :
    truckForgetExpiry p s = setTruck p (some { k with forget := .expired }) s := by
  simp only [truckForgetExpiry, hp]

/-- The truck at the position is forgettable (R148). -/
def forgettable (s : State) (p : Fin 32) : Bool :=
  match s.road.trucks[p] with
  | some t => t.forget == .expired && placeless s t.id
  | none => false

theorem firstForgettable_some (h : firstForgettable s = some p) : forgettable s p = true := (findIndex_some h).1

theorem firstForgettable_none : firstForgettable s = none ↔ ∀ q : Fin 32, forgettable s q = false := findIndex_none

theorem placeless_congr (h : t.road.segments = s.road.segments) (id : Id) : placeless t id = placeless s id := by
  rw [placeless, placeless, h]

/-- A truck without a place whose forget timer expires is the one that the end of the event forgets (R148). -/
theorem firstForgettable_expired (hnone : firstForgettable s = none) (hp : s.road.trucks[p] = some k)
    (hplace : placeless s k.id = true) : firstForgettable (truckForgetExpiry p s) = some p := by
  rw [truckForgetExpiry_eq hp]
  have hget (q : Fin 32) : (setTruck p (some { k with forget := .expired }) s).road.trucks[q]
      = if q = p then some { k with forget := .expired } else s.road.trucks[q] := by
    show (s.road.trucks.set p _)[q] = _
    rw [set_get]
  have hplaces (id : Id) : placeless (setTruck p (some { k with forget := .expired }) s) id = placeless s id :=
    placeless_congr rfl id
  generalize setTruck p (some { k with forget := .expired }) s = u at hget hplaces ⊢
  have hself : forgettable u p = true := by
    simp only [forgettable, hget, if_true, hplaces, hplace, Bool.and_true]
    rfl
  have hother (q : Fin 32) (hq : q ≠ p) : forgettable u q = false := by
    have hold := firstForgettable_none.mp hnone q
    unfold forgettable at hold ⊢
    rw [hget, if_neg hq]
    simp only [hplaces]
    exact hold
  cases hu : firstForgettable u with
  | none =>
    rw [firstForgettable_none.mp hu p] at hself
    cases hself
  | some q =>
    by_cases hq : q = p
    · rw [hq]
    · have h := firstForgettable_some hu
      rw [hother q hq] at h
      cases h

end

/-! ## The first thing that the end of an event does -/

section
variable {P : State → Prop} {f : State → State} {s t : State}

/-- What the first thing at the end of an event in RUN brings about stays, where only the areas decide it. -/
theorem event_first (hsame : ∀ u v, SameBut [] u v → P u → P v) (hrun : s.run = true)
    (hstep : settleStep (beginEvent s) (f (beginEvent s)) = some t) (hP : P t) : P (event f s) := by
  have hbase : eventBase (beginEvent s) (f (beginEvent s)) = beginEvent s := by
    have hr : (beginEvent s).run = true := hrun
    rw [eventBase, hr]
    simp
  have hend (n : Nat) (s0 u : State) (hu : P u) : P (settle n s0 u) :=
    settle_keeps (fun a b ha hab => hsame _ _ (settleStep_sameBut hab) ha) n hu
  have hsettled : P (settle settleBound (beginEvent s) (f (beginEvent s))) := by
    have hbound : settleBound = 19999 + 1 := rfl
    rw [hbound, settle_of_step hstep]
    exact hend _ _ _ hP
  rw [event_eq, hbase]
  refine hsame _ _ (driveLines_sameBut _) (levelEvents_keeps (fun _ hu => hend _ _ _ hu) 2 ?_)
  split
  · exact hsame _ _ (sweepPut_sameBut _) hsettled
  · exact hsettled

/-- A settled state leaves the units nothing to do. -/
theorem Settled.units (h : Settled s) (hrun : s.run = true) : followUpFree (beginEvent s) = false
    ∧ levelDue (beginEvent s) = false ∧ firstMarked (beginEvent s) = none ∧ firstForgettable (beginEvent s) = none := by
  unfold Settled settleStep at h
  split at h
  · cases h
  · rename_i hfree
    split at h
    · cases h
    · rename_i hunits
      obtain ⟨hlevel, hmarked, hforget, -⟩ := settleUnits_none (s := beginEvent s) hrun hunits
      rw [levelFirst, beq_self_eq_true, Bool.and_true] at hlevel
      exact ⟨by simpa using hfree, hlevel, hmarked, hforget⟩

/-- The end of an event forgets the first forgettable truck, where no level is due and no queue is marked (R148; log entry 4). -/
theorem settleStep_forget {s0 : State} {p : Fin 32} (hrun : s.run = true) (hfree : followUpFree s = false) (hdue : levelDue s = false)
    (hmarked : firstMarked s = none) (hp : firstForgettable s = some p) : settleStep s0 s = some (forgetTruck p s) := by
  have hfirst : levelFirst s0 s = false := by rw [levelFirst, hdue, Bool.false_and]
  simp only [settleStep, settleUnits, hfree, hrun, hfirst, hmarked, hp, Bool.not_true, Bool.false_eq_true, if_false]

/-- A settled state's truck without a place is forgotten when its forget timer expires (R148). -/
theorem event_truckForgetExpiry {p : Fin 32} {k : Truck} (hsettled : Settled s) (hrun : s.run = true)
    (hp : s.road.trucks[p] = some k) (hplace : placeless s k.id = true) :
    (event (truckForgetExpiry p) s).road.trucks[p] = none := by
  obtain ⟨hfree, hdue, hmarked, hforget⟩ := hsettled.units hrun
  have hexpired : truckForgetExpiry p (beginEvent s) = _ := truckForgetExpiry_eq (k := k) hp
  have hfirst := firstForgettable_expired hforget (k := k) hp hplace
  have hstep : settleStep (beginEvent s) (truckForgetExpiry p (beginEvent s))
      = some (forgetTruck p (truckForgetExpiry p (beginEvent s))) := by
    rw [hexpired] at hfirst ⊢
    exact settleStep_forget hrun hfree hdue hmarked hfirst
  refine event_first (P := fun t => t.road.trucks[p] = none) (fun u v huv hu => ?_) hrun hstep ?_
  · obtain ⟨-, -, -, htrucks⟩ := huv.road
    rcases htrucks p with h | ⟨h, -⟩
    · exact h.trans hu
    · exact h
  · obtain ⟨x, hx⟩ := firstForgettable_isSome hfirst
    rw [(forgetTruck_trucks hx).1, set_get, if_pos rfl]

theorem not_placeless {id : Id} {i : Fin 16} (h : occupies s.road.segments[i] id = true) : placeless s id = false := by
  rw [placeless, List.all_eq_false]
  refine ⟨s.road.segments[i], by simp, ?_⟩
  rw [h]
  simp

/-- The end of an event leaves the record of a truck that occupies a segment (R148). -/
theorem event_keeps_truck {i : Fin 16} {p : Fin 32} {k : Truck} (ho : occupies (f (beginEvent s)).road.segments[i] k.id = true)
    (hp : (f (beginEvent s)).road.trucks[p] = some k) : (event f s).road.trucks[p] = some k := by
  have occupied {u v : State} (huv : SameBut [] u v) (hu : occupies u.road.segments[i] k.id = true) :
      occupies v.road.segments[i] k.id = true := by
    obtain ⟨-, -, hocc, -⟩ := huv.road
    rwa [occupies, (hocc i).1, (hocc i).2]
  refine (event_keeps (P := fun u => occupies u.road.segments[i] k.id = true ∧ u.road.trucks[p] = some k)
    (fun s0 u v hu hstep => ⟨occupied (settleStep_sameBut hstep) hu.1, ?_⟩) (fun u hu => ⟨occupied (sweepPut_sameBut u) hu.1, ?_⟩)
    (fun u hu => hu) ⟨ho, hp⟩).2
  · obtain ⟨hocc, htruck⟩ := hu
    rcases settleStep_road hstep with rfl | ⟨j, rfl⟩ | ⟨q, hq, rfl⟩ | ⟨hsame, -⟩
    · rw [(deriveLevel_left u).table.1]
      exact htruck
    · rw [(serveSegment_at j u).2]
      exact htruck
    · obtain ⟨x, hx⟩ := firstForgettable_isSome hq
      rw [(forgetTruck_trucks hx).1, set_get, if_neg]
      · exact htruck
      · rintro rfl
        have h := firstForgettable_some hq
        rw [forgettable, htruck] at h
        simp only [not_placeless hocc, Bool.and_false, Bool.false_eq_true] at h
    · rw [hsame]
      exact htruck
  · rw [sweepPut_road]
    exact hu.2

end

/-- Settles O41: each timer's action by its own lemma, what the end of an event leaves of segments and trucks, and for a truck without
a place the first thing that the end of its event does. -/
theorem roadTimersExpire : Obligations.RoadTimersExpire := by
  unfold Obligations.RoadTimersExpire
  refine ⟨fun i truck s hrun hdue hwaits => ?_, fun p k s hrun hp hdue => ?_, fun p k s hrun hp hdue => ?_⟩
  · have hdue : grantDue s i truck = true := by
      obtain ⟨x, hx, htruck, hx'⟩ := hdue
      exact List.any_eq_true.mpr ⟨x, hx, by rw [htruck, beq_self_eq_true, hx']; rfl⟩
    refine ⟨event (grantExpiry i truck) s, congrArg Host.Outcome.next (expiryEvent_due hrun hdue), ?_,
      event_sameBut (grantExpiry_within i truck _).1⟩
    exact (event_keeps_segment (fun l => unplaced_law l truck) (grantExpiry_unplaced hwaits)).1
  · have hdue : truckDue s p Truck.stale = true := by rw [truckDue, hp]; exact hdue
    have hp' : (beginEvent s).road.trucks[p] = some k := hp
    obtain ⟨htruck, hleft, hqueues⟩ := truckStaleExpiry_road hp'
    obtain ⟨hfull, htable, hocc, htrucks⟩ := (event_sameBut_acted (truckStaleExpiry p) s).road
    refine ⟨event (truckStaleExpiry p) s, congrArg Host.Outcome.next (expiryEvent_due hrun hdue), ?_, fun hlost i => ?_,
      event_musterGoesOn hrun (truckStaleExpiry_works p _), fun i => ?_, ?_, ?_,
      event_sameBut (truckStaleExpiry_within p _).1⟩
    · rcases htrucks p with h | ⟨h, x, hx, hexpired⟩
      · exact .inl (h.trans htruck)
      · rw [htruck] at hx
        cases hx
        exact .inr ⟨hexpired, h⟩
    · exact event_keeps_segment (Q := unqueued k.id) (fun l => unqueued_law l k.id) (hqueues hlost i)
    · have hi := hleft.segments i
      exact ⟨(hocc i).1.trans hi.granted, (hocc i).2.trans hi.unauthorised⟩
    · exact hfull.trans hleft.table.2.1
    · exact htable.trans hleft.table.2.2
  · have hdue : truckDue s p Truck.forget = true := by rw [truckDue, hp]; exact hdue
    have hp' : (beginEvent s).road.trucks[p] = some k := hp
    have hexpired := truckForgetExpiry_eq hp'
    obtain ⟨hfull, htable, hocc, -⟩ := (event_sameBut_acted (truckForgetExpiry p) s).road
    rw [hexpired] at hfull htable hocc
    refine ⟨event (truckForgetExpiry p) s, congrArg Host.Outcome.next (expiryEvent_due hrun hdue), fun hsettled hplace => ?_,
      fun i hoccupies => ?_, hocc, hfull, htable, event_sameBut (truckForgetExpiry_within p _).1⟩
    · exact event_truckForgetExpiry hsettled hrun hp hplace
    · refine event_keeps_truck (i := i) (k := { k with forget := .expired }) ?_ ?_
      · rw [hexpired]
        exact hoccupies
      · rw [hexpired, setTruck_road]
        show (s.road.trucks.set p _)[p] = _
        rw [set_get, if_pos rfl]

/-! ## A cleared truck -/

/-- The segment `h` is `g` with every place of the truck removed; its direction and its mark may differ. -/
structure Segment.Cleared (truck : Id) (g h : Segment) : Prop where
  granted : h.granted = g.granted.filter (· ≠ truck)
  unauthorised : h.unauthorised = g.unauthorised.filter (· ≠ truck)
  unplaced : unplaced truck h

section
variable {truck : Id} {i : Fin 16} {s t : State}

/-- A segment without a place of the truck is as if it were removed. -/
theorem cleared_self {g : Segment} (hh : holds g truck = false) (ho : occupies g truck = false) (hw : waits g truck = false) :
    g.Cleared truck g := by
  simp only [occupies, Bool.or_eq_false_iff, List.contains_eq_mem, decide_eq_false_iff_not] at ho
  exact ⟨(filter_ne_of_not_mem ho.1).symm, (filter_ne_of_not_mem ho.2).symm, hh, hw⟩

theorem Segment.Cleared.trans {g h k : Segment} (a : g.Cleared truck h) (b : h.Cleared truck k) : g.Cleared truck k := by
  refine ⟨?_, ?_, b.unplaced⟩
  · rw [b.granted, a.granted, List.filter_filter]
    simp
  · rw [b.unauthorised, a.unauthorised, List.filter_filter]
    simp

/-- The places of a truck in a segment removed, and those of no other segment (R149). -/
theorem clearPlaces_segments (truck : Id) (i : Fin 16) (s : State) :
    s.road.segments[i].Cleared truck (clearPlaces truck i s).road.segments[i]
      ∧ (∀ j : Fin 16, j ≠ i → (clearPlaces truck i s).road.segments[j] = s.road.segments[j])
      ∧ (clearPlaces truck i s).road.trucks = s.road.trucks ∧ (clearPlaces truck i s).road.queueFull = s.road.queueFull
      ∧ (clearPlaces truck i s).road.tableFull = s.road.tableFull := by
  have hat : RoadAt i s (clearPlaces truck i s) :=
    ((((changeSegment_roadAt i _ s).trans (changeSegment_roadAt i _ _)).trans (changeSegment_roadAt i _ _)).trans
      (rederive_road i _).1).trans (changeSegment_roadAt i _ _)
  refine ⟨?_, fun j hj => hat.others hj, hat.rest⟩
  rw [clearPlaces, markSegment, changeSegment_get, (rederive_road i _).2, changeSegment_get, dropWaiter, changeSegment_get,
    dropHolder, changeSegment_get]
  refine ⟨rfl, rfl, ?_, ?_⟩
  · simp [holds, redirected]
  · simp [waits, redirected]

/-- The roadway unit after the places of the truck in the listed segments are removed. -/
theorem clearPlaces_foldl (truck : Id) (l : List (Fin 16)) (s : State) :
    let t := l.foldl (fun s i => clearPlaces truck i s) s
    (∀ j : Fin 16, j ∈ l → s.road.segments[j].Cleared truck t.road.segments[j])
      ∧ (∀ j : Fin 16, j ∉ l → t.road.segments[j] = s.road.segments[j])
      ∧ t.road.trucks = s.road.trucks ∧ t.road.queueFull = s.road.queueFull ∧ t.road.tableFull = s.road.tableFull := by
  induction l generalizing s with
  | nil => exact ⟨nofun, fun _ _ => rfl, rfl, rfl, rfl⟩
  | cons i rest ih =>
    obtain ⟨hi, hothers, htrucks, hqueue, htable⟩ := clearPlaces_segments truck i s
    obtain ⟨hmem, hnot, ktrucks, kqueue, ktable⟩ := ih (clearPlaces truck i s)
    refine ⟨fun j hj => ?_, fun j hj => ?_, ktrucks.trans htrucks, kqueue.trans hqueue, ktable.trans htable⟩
    · by_cases hji : j = i
      · subst hji
        by_cases hr : j ∈ rest
        · exact hi.trans (hmem j hr)
        · rw [List.foldl_cons, hnot j hr]
          exact hi
      · have hr := (List.mem_cons.mp hj).resolve_left hji
        rw [← hothers j hji]
        exact hmem j hr
    · rw [List.mem_cons, not_or] at hj
      obtain ⟨hji, hr⟩ := hj
      rw [List.foldl_cons, hnot j hr, hothers j hji]

theorem mem_segmentsWhere {p : Segment → Bool} {j : Fin 16} : j ∈ segmentsWhere s p ↔ p s.road.segments[j] = true := by
  simp [segmentsWhere]

theorem requestCleared_road (truck : Id) (l : List (Fin 16)) (s : State) :
    (l.foldl (fun s i => requestCleared truck i s) s).road = s.road := by
  induction l generalizing s with
  | nil => rfl
  | cons i rest ih => exact (ih _).trans (requestFrame_road (s := s) (.revoke truck (segmentId s i) .cleared))

/-- A cleared truck has left the table and every segment (R149). -/
theorem clearTruck_road (p : Fin 32) (truck : Id) (s : State) :
    (∀ j : Fin 16, s.road.segments[j].Cleared truck (clearTruck p truck s).road.segments[j])
      ∧ (clearTruck p truck s).road.trucks = s.road.trucks.set p none
      ∧ (clearTruck p truck s).road.queueFull = s.road.queueFull ∧ (clearTruck p truck s).road.tableFull = s.road.tableFull := by
  unfold clearTruck
  dsimp only
  rw [setTruck_road, addRecord_road]
  generalize hu : List.foldl (fun s i => requestCleared truck i s) _ (segmentsWhere s fun g => waits g truck) = u
  have hroad : u.road = s.road := by
    rw [← hu, requestCleared_road, requestCleared_road, withdrawFrames_road]
  obtain ⟨hmem, hnot, htrucks, hqueue, htable⟩ := clearPlaces_foldl truck
    (segmentsWhere u (fun g => holds g truck || occupies g truck || waits g truck)) u
  refine ⟨fun j => ?_, by rw [htrucks, hroad], by rw [hqueue, hroad], by rw [htable, hroad]⟩
  have hj : s.road.segments[j] = u.road.segments[j] := by simp only [hroad]
  rw [hj]
  by_cases hplaced : j ∈ segmentsWhere u (fun g => holds g truck || occupies g truck || waits g truck)
  · exact hmem j hplaced
  · show u.road.segments[j].Cleared truck (List.foldl _ u _).road.segments[j]
    rw [hnot j hplaced]
    rw [mem_segmentsWhere, Bool.not_eq_true, Bool.or_eq_false_iff, Bool.or_eq_false_iff] at hplaced
    obtain ⟨⟨hh, ho⟩, hw⟩ := hplaced
    exact cleared_self hh ho hw

theorem doneEvent_keeps_segment {w : Word} {g : State → State} {Q : Segment → Prop} (h : ∀ l, SegmentLaw l Q)
    (hQ : Q (g (begun w s)).road.segments[i]) : Q (doneEvent w g s).road.segments[i] :=
  event_keeps_segment (f := doneAction w g) h hQ

theorem judge_clearTruck (tag : BitVec 8) {arg : BitVec 16} {p : Fin 32} (hrun : s.run = true) (harg : arg ≠ 0)
    (hp : truckPosition s arg = some p) (strap : BitVec 2) :
    judgeRequest strap (requestWord 9 tag arg) s = Reply.done (clearTruck p arg s) := by
  have hcode := requestCode_requestWord 9 tag arg (by decide)
  rw [judgeRequest_running strap hrun (by rw [hcode]; decide) (by rw [hcode]; decide)]
  simp only [hcode, requestArg_requestWord, requestClearTruck, BitVec.ofNat_toNat, BitVec.setWidth_eq, hp]
  exact if_neg (fun h => harg (BitVec.eq_of_toNat_eq h))

end

/-- Settles O13: the clearing removes the truck's places and its record; the end of the event brings neither back. -/
theorem truckCleared : Obligations.TruckCleared := by
  intro tag arg p s hrun harg hp
  have hexec : exec (.clearTruck tag arg) s = .next (serveWrite s.strap (requestAccess s 9 tag arg) s) := rfl
  have hjudge := judge_clearTruck tag (s := begun (requestWord 9 tag arg) s) hrun harg hp s.strap
  rw [serveWrite_request, event_of_done hjudge] at hexec
  generalize requestWord 9 tag arg = w at hexec
  obtain ⟨hfull, htable, hocc, htrucks⟩ := (doneEvent_acted (s := s) (w := w) (g := clearTruck p arg)).road
  obtain ⟨hcleared, ktrucks, kfull, ktable⟩ := clearTruck_road p arg (begun w s)
  refine ⟨_, hexec, ?_, fun i => ?_, fun q hq => ?_, hfull.trans kfull, htable.trans ktable,
    doneEvent_sameBut (clearTruck_within p arg _).1⟩
  · rcases htrucks p with h | ⟨h, -⟩
    · rw [h, ktrucks, set_get, if_pos rfl]
    · exact h
  · obtain ⟨hholds, hwaits⟩ := doneEvent_keeps_segment (s := s) (w := w) (g := clearTruck p arg) (fun l => unplaced_law l arg)
      (hcleared i).unplaced
    exact ⟨hholds, hwaits, (hocc i).1.trans (hcleared i).granted, (hocc i).2.trans (hcleared i).unauthorised⟩
  · have hkept : (clearTruck p arg (begun w s)).road.trucks[q] = s.road.trucks[q] := by
      rw [ktrucks, set_get, if_neg hq]
      rfl
    rw [← hkept]
    exact htrucks q

end Sys2Proof.Machine
end

section
/-! PROOFS. A truck beacon (R134 to R138): what each of its steps does to the segments' lists, and the beacon as a whole. -/

set_option Elab.async false

namespace Sys2Proof.Machine

open Sys2Proof.Config

/-! ## The lists of a segment -/

/-- The four lists of a segment are the same. -/
structure Segment.SameLists (g h : Segment) : Prop where
  holders : h.holders = g.holders
  granted : h.granted = g.granted
  unauthorised : h.unauthorised = g.unauthorised
  queue : h.queue = g.queue

section
variable {g h k : Segment} {truck : Id}

theorem Segment.SameLists.refl (g : Segment) : g.SameLists g := ⟨rfl, rfl, rfl, rfl⟩

theorem Segment.SameLists.trans (a : g.SameLists h) (b : h.SameLists k) : g.SameLists k :=
  ⟨b.holders.trans a.holders, b.granted.trans a.granted, b.unauthorised.trans a.unauthorised, b.queue.trans a.queue⟩

theorem Segment.SameLists.holds (a : g.SameLists h) (id : Id) : Machine.holds h id = Machine.holds g id := by
  rw [Machine.holds, a.holders, Machine.holds]

theorem Segment.SameLists.waits (a : g.SameLists h) (id : Id) : Machine.waits h id = Machine.waits g id := by
  rw [Machine.waits, a.queue, Machine.waits]

theorem Segment.SameLists.occupies (a : g.SameLists h) (id : Id) : Machine.occupies h id = Machine.occupies g id := by
  rw [Machine.occupies, a.granted, a.unauthorised, Machine.occupies]

theorem redirected_lists (d : Direction) (g : Segment) : g.SameLists (redirected d g) := ⟨rfl, rfl, rfl, rfl⟩

/-- A segment that the truck has left as an occupant (R135). -/
def Segment.without (truck : Id) (g : Segment) : Segment :=
  { g with granted := g.granted.filter (· ≠ truck), unauthorised := g.unauthorised.filter (· ≠ truck) }

/-- The unauthorised occupants after a truck without a grant has entered (R136). -/
def listedUnauthorised (truck : Id) (l : List Id) : List Id := if l.length < 4 then l ++ [truck] else l

/-- A segment that the truck has entered (R136). -/
def Segment.entered (truck : Id) (g : Segment) : Segment :=
  if Machine.holds g truck then
    { g with holders := g.holders.filter (fun h => h.truck != truck), granted := g.granted ++ [truck] }
  else if Machine.occupies g truck then g
  else { g with queue := g.queue.filter (fun w => w.truck != truck), unauthorised := listedUnauthorised truck g.unauthorised }

theorem Segment.entered_holder (hh : Machine.holds g truck = true) : g.entered truck
    = { g with holders := g.holders.filter (fun h => h.truck != truck), granted := g.granted ++ [truck] } := if_pos hh

theorem Segment.entered_occupant (hh : Machine.holds g truck = false) (ho : Machine.occupies g truck = true) :
    g.entered truck = g := by
  rw [Segment.entered, hh, ho]
  rfl

theorem Segment.entered_stranger (hh : Machine.holds g truck = false) (ho : Machine.occupies g truck = false) : g.entered truck
    = { g with queue := g.queue.filter (fun w => w.truck != truck), unauthorised := listedUnauthorised truck g.unauthorised } := by
  rw [Segment.entered, hh, ho]
  rfl

theorem without_self (ho : Machine.occupies g truck = false) : g.SameLists (g.without truck) := by
  simp only [Machine.occupies, Bool.or_eq_false_iff, List.contains_eq_mem, decide_eq_false_iff_not] at ho
  exact ⟨rfl, filter_ne_of_not_mem ho.1, filter_ne_of_not_mem ho.2, rfl⟩

end

section
variable {i : Fin 16} {s t u : State} {truck : Id} {b : Beacon}

/-! ## Leaving -/

theorem markSegment_road (i : Fin 16) (s : State) : RoadAt i s (markSegment i s)
    ∧ (markSegment i s).road.segments[i] = { s.road.segments[i] with marked := true } :=
  ⟨changeSegment_roadAt i _ s, changeSegment_get i _ s⟩

theorem leaveSegment_road (truck : Id) (i : Fin 16) (s : State) : RoadAt i s (leaveSegment truck i s)
    ∧ (s.road.segments[i].without truck).SameLists (leaveSegment truck i s).road.segments[i] := by
  have hrecord (k n : Nat) (w : Word) (v : State) : RoadAt i v (addRecord k n w v) := .of_road (addRecord_road k n w v)
  refine ⟨(((changeSegment_roadAt i _ s).trans (hrecord _ _ _ _)).trans (rederive_road i _).1).trans (changeSegment_roadAt i _ _), ?_⟩
  rw [leaveSegment, (markSegment_road i _).2, (rederive_road i _).2]
  simp only [addRecord_road, changeSegment_get]
  exact ⟨rfl, rfl, rfl, rfl⟩

/-- A loop that keeps `P` and whose turn `i` changes segment `i` alone, so that `R i` holds between its states. -/
theorem forEach_road_of {f : Fin 16 → State → State} {P : State → Prop} {R : Fin 16 → Segment → Segment → Prop}
    (hat : ∀ i u, RoadAt i u (f i u)) (hP : ∀ i u, P u → P (f i u))
    (hone : ∀ i u, P u → R i u.road.segments[i] (f i u).road.segments[i]) (hs : P s) (j : Fin 16) :
    R j s.road.segments[j] (forEach 16 f s).road.segments[j] := by
  have hlist (l : List (Fin 16)) (hl : l.Nodup) (u : State) (hu : P u) :
      (j ∈ l → R j u.road.segments[j] (l.foldl (fun v i => f i v) u).road.segments[j])
        ∧ (j ∉ l → (l.foldl (fun v i => f i v) u).road.segments[j] = u.road.segments[j]) := by
    induction l generalizing u with
    | nil => exact ⟨nofun, fun _ => rfl⟩
    | cons i rest ih =>
      obtain ⟨hi, hrest⟩ := List.nodup_cons.mp hl
      obtain ⟨hin, hout⟩ := ih hrest (f i u) (hP i u hu)
      by_cases hji : j = i
      · subst hji
        refine ⟨fun _ => ?_, fun h => absurd List.mem_cons_self h⟩
        rw [List.foldl_cons, hout hi]
        exact hone j u hu
      · have hsame := (hat i u).others hji
        refine ⟨fun h => ?_, fun h => ?_⟩
        · rw [← hsame]
          exact hin ((List.mem_cons.mp h).resolve_left hji)
        · rw [List.foldl_cons, hout (fun k => h (List.mem_cons_of_mem i k)), hsame]
  exact (hlist _ (List.nodup_finRange 16) s hs).1 (List.mem_finRange j)

theorem forEach_road {f : Fin 16 → State → State} {R : Fin 16 → Segment → Segment → Prop} (hat : ∀ i u, RoadAt i u (f i u))
    (hone : ∀ i u, R i u.road.segments[i] (f i u).road.segments[i]) (s : State) (j : Fin 16) :
    R j s.road.segments[j] (forEach 16 f s).road.segments[j] :=
  forEach_road_of (P := fun _ => True) hat (fun _ _ _ => trivial) (fun i u _ => hone i u) trivial j

theorem forEach_rest {f : Fin 16 → State → State} (hat : ∀ i u, RoadAt i u (f i u)) (s : State) :
    (forEach 16 f s).road.trucks = s.road.trucks ∧ (forEach 16 f s).road.queueFull = s.road.queueFull
      ∧ (forEach 16 f s).road.tableFull = s.road.tableFull := by
  refine forEach_keeps (fun u => u.road.trucks = s.road.trucks ∧ u.road.queueFull = s.road.queueFull
      ∧ u.road.tableFull = s.road.tableFull) (fun i u hu => ?_) s ⟨rfl, rfl, rfl⟩
  obtain ⟨ht, hq, hf⟩ := (hat i u).rest
  obtain ⟨kt, kq, kf⟩ := hu
  exact ⟨ht.trans kt, hq.trans kq, hf.trans kf⟩

/-- One turn of the second step of a beacon (R135). -/
def leaveTurn (truck : Id) (current : Option (Fin 16)) (i : Fin 16) (s : State) : State :=
  if occupies s.road.segments[i] truck && current != some i then leaveSegment truck i s else s

theorem beaconLeave_eq (truck : Id) (current : Option (Fin 16)) (s : State) :
    beaconLeave truck current s = forEach 16 (leaveTurn truck current) s := rfl

/-- What the second step of a beacon leaves of segment `i` (R135). -/
def Segment.leftBehind (truck : Id) (current : Option (Fin 16)) (i : Fin 16) (g : Segment) : Segment :=
  if current = some i then g else g.without truck

theorem leaveTurn_road (truck : Id) (current : Option (Fin 16)) (i : Fin 16) (s : State) :
    RoadAt i s (leaveTurn truck current i s)
      ∧ (s.road.segments[i].leftBehind truck current i).SameLists (leaveTurn truck current i s).road.segments[i] := by
  unfold leaveTurn Segment.leftBehind
  by_cases hc : current = some i
  · rw [if_pos hc, if_neg (by simp [hc])]
    exact ⟨.of_road rfl, .refl _⟩
  · rw [if_neg hc]
    cases ho : occupies s.road.segments[i] truck with
    | true =>
      rw [if_pos (by simp [hc])]
      exact leaveSegment_road truck i s
    | false =>
      rw [if_neg (by simp)]
      obtain ⟨hh, hg, hu, hq⟩ := without_self ho
      exact ⟨.of_road rfl, hh.symm, hg.symm, hu.symm, hq.symm⟩

/-- The second step of a beacon (R135). -/
theorem beaconLeave_road (truck : Id) (current : Option (Fin 16)) (s : State) :
    (∀ j : Fin 16, (s.road.segments[j].leftBehind truck current j).SameLists (beaconLeave truck current s).road.segments[j])
      ∧ (beaconLeave truck current s).road.trucks = s.road.trucks
      ∧ (beaconLeave truck current s).road.queueFull = s.road.queueFull
      ∧ (beaconLeave truck current s).road.tableFull = s.road.tableFull := by
  rw [beaconLeave_eq]
  exact ⟨forEach_road (R := fun j g h => (g.leftBehind truck current j).SameLists h) (fun i u => (leaveTurn_road truck current i u).1)
    (fun i u => (leaveTurn_road truck current i u).2) s, forEach_rest (fun i u => (leaveTurn_road truck current i u).1) s⟩

/-! ## Entering -/

/-- A holder's entry (R136, R142). -/
theorem beaconEnter_holder (h : holds s.road.segments[i] b.truck = true) : RoadAt i s (beaconEnter b i s)
    ∧ ∃ d, (beaconEnter b i s).road.segments[i] = { s.road.segments[i] with
        holders := s.road.segments[i].holders.filter (fun h => h.truck != b.truck),
        granted := s.road.segments[i].granted ++ [b.truck], direction := d, marked := true } := by
  have heq : beaconEnter b i s = markSegment i (rederive i (addRecord recSegmentEntered b.truck.toNat
      (detail [detailId (segmentId s i).toNat]) (changeSegment i (fun g => { g with
        holders := g.holders.filter (fun h => h.truck != b.truck), granted := g.granted ++ [b.truck] }) s))) := if_pos h
  have hrecord (k n : Nat) (w : Word) (v : State) : RoadAt i v (addRecord k n w v) := .of_road (addRecord_road k n w v)
  refine ⟨?_, ?_⟩
  · rw [heq]
    exact (((changeSegment_roadAt i _ s).trans (hrecord _ _ _ _)).trans (rederive_road i _).1).trans (changeSegment_roadAt i _ _)
  · rw [heq, (markSegment_road i _).2, (rederive_road i _).2]
    simp only [addRecord_road, changeSegment_get]
    exact ⟨_, rfl⟩

theorem beaconEnter_occupant (h : holds s.road.segments[i] b.truck = false) (ho : occupies s.road.segments[i] b.truck = true) :
    beaconEnter b i s = rederive i s := by
  simp only [beaconEnter, h, ho, Bool.false_eq_true, if_false, if_true]

/-- A waiter that enters without a grant leaves the queue (R136). -/
def leaveQueueEntering (truck : Id) (i : Fin 16) (s : State) : State :=
  if waits s.road.segments[i] truck then markSegment i (dropWaiter i truck s) else s

/-- A truck that enters without a grant is listed where the list has room (R136). -/
def listUnauthorised (truck : Id) (i : Fin 16) (full : Bool) (s : State) : State :=
  if full then s else changeSegment i (fun g => { g with unauthorised := g.unauthorised ++ [truck] }) s

theorem beaconEnter_stranger (h : holds s.road.segments[i] b.truck = false) (ho : occupies s.road.segments[i] b.truck = false) :
    beaconEnter b i s = rederive i (addRecord recEntryWithoutGrant b.truck.toNat
      (detail [detailId (segmentId s i).toNat, (2, Heading.code b.heading),
        (1, (decide (unauthorisedSize ≤ s.road.segments[i].unauthorised.length)).toNat)])
      (listUnauthorised b.truck i (decide (unauthorisedSize ≤ s.road.segments[i].unauthorised.length))
        (leaveQueueEntering b.truck i s))) := by
  simp only [beaconEnter, h, ho, Bool.false_eq_true, if_false]
  rfl

theorem leaveQueueEntering_road (truck : Id) (i : Fin 16) (s : State) : RoadAt i s (leaveQueueEntering truck i s)
    ∧ ({ s.road.segments[i] with queue := s.road.segments[i].queue.filter (fun w => w.truck != truck) } : Segment).SameLists
        (leaveQueueEntering truck i s).road.segments[i] := by
  unfold leaveQueueEntering
  cases hw : waits s.road.segments[i] truck with
  | true =>
    rw [if_pos rfl, (markSegment_road i _).2, dropWaiter, changeSegment_get]
    exact ⟨(changeSegment_roadAt i _ s).trans (changeSegment_roadAt i _ _), rfl, rfl, rfl, rfl⟩
  | false =>
    refine ⟨.of_road rfl, rfl, rfl, rfl, ?_⟩
    simp only [waits, List.any_eq_false, beq_iff_eq] at hw
    exact (List.filter_eq_self.mpr fun w hm => by simpa using hw w hm).symm

theorem listUnauthorised_road (truck : Id) (i : Fin 16) (full : Bool) (s : State) : RoadAt i s (listUnauthorised truck i full s)
    ∧ (listUnauthorised truck i full s).road.segments[i] = { s.road.segments[i] with
        unauthorised := if full then s.road.segments[i].unauthorised else s.road.segments[i].unauthorised ++ [truck] } := by
  unfold listUnauthorised
  cases full with
  | true => exact ⟨.of_road rfl, rfl⟩
  | false => exact ⟨changeSegment_roadAt i _ s, changeSegment_get i _ s⟩

theorem listed_unauthorised {l m : List Id} (h : m = l) : (if decide (unauthorisedSize ≤ l.length) = true then m else m ++ [truck])
    = listedUnauthorised truck l := by
  subst h
  have hsize : unauthorisedSize = 4 := rfl
  rw [listedUnauthorised, hsize]
  by_cases hroom : m.length < 4
  · rw [if_pos hroom, if_neg (by simpa using hroom)]
  · rw [if_neg hroom, if_pos (by simpa using hroom)]

/-- The third step of a beacon (R136). -/
theorem beaconEnter_road (b : Beacon) (i : Fin 16) (s : State) : RoadAt i s (beaconEnter b i s)
    ∧ (s.road.segments[i].entered b.truck).SameLists (beaconEnter b i s).road.segments[i] := by
  cases hh : holds s.road.segments[i] b.truck with
  | true =>
    obtain ⟨hat, d, hget⟩ := beaconEnter_holder hh
    rw [hget, Segment.entered_holder hh]
    exact ⟨hat, rfl, rfl, rfl, rfl⟩
  | false =>
    cases ho : occupies s.road.segments[i] b.truck with
    | true =>
      rw [beaconEnter_occupant hh ho, Segment.entered_occupant hh ho, (rederive_road i s).2]
      exact ⟨(rederive_road i s).1, redirected_lists _ _⟩
    | false =>
      rw [beaconEnter_stranger hh ho, Segment.entered_stranger hh ho, (rederive_road i _).2]
      obtain ⟨hat, hleft⟩ := leaveQueueEntering_road b.truck i s
      generalize leaveQueueEntering b.truck i s = u at hat hleft
      obtain ⟨kat, kget⟩ := listUnauthorised_road b.truck i
        (decide (unauthorisedSize ≤ s.road.segments[i].unauthorised.length)) u
      refine ⟨((hat.trans kat).trans (.of_road (addRecord_road _ _ _ _))).trans (rederive_road i _).1, ?_⟩
      simp only [addRecord_road, kget]
      obtain ⟨hholders, hgranted, hunauthorised, hqueue⟩ := hleft
      refine ⟨hholders, hgranted, ?_, hqueue⟩
      exact listed_unauthorised hunauthorised

/-! ## The request -/

/-- A truck that the request step passes over (R138, cases 1 and 2). -/
def Placed (b : Beacon) (i : Fin 16) (s : State) : Prop :=
  holds s.road.segments[i] b.truck = true ∨ occupies s.road.segments[i] b.truck = true
    ∨ ∃ k : Fin 16, holds s.road.segments[k] b.truck = true

/-- The queue entry that a request makes. -/
def Beacon.entry (b : Beacon) : Waiter := { truck := b.truck, dir := b.heading }

/-- A request's entry at the tail of a queue, which is marked (R138, case 5). -/
def queueRequest (b : Beacon) (i : Fin 16) (s : State) : State :=
  markSegment i (changeSegment i (fun g => { g with queue := g.queue ++ [b.entry] }) (leaveOtherQueues b.truck i s))

/-- A waiter's direction refreshed in its place (R138, case 3). -/
def refreshRequest (b : Beacon) (i : Fin 16) (s : State) : State :=
  markSegment i (changeSegment i (fun g => { g with
    queue := g.queue.map (fun w => if w.truck = b.truck then b.entry else w) }) s)

/-- A request that finds the queue full (R138, case 4). -/
def refuseRequest (b : Beacon) (i : Fin 16) (s : State) : State :=
  countRoad (fun r => { r with queueFull := saturate countTop r.queueFull })
    (addRecord recQueueFull b.truck.toNat (detail [detailId (segmentId s i).toNat]) s)

theorem beaconRequest_eq (b : Beacon) (i : Fin 16) (s : State) : beaconRequest b i s =
    if holds s.road.segments[i] b.truck || occupies s.road.segments[i] b.truck then s
    else if s.road.segments.toList.any (fun g => holds g b.truck) then s
    else if waits s.road.segments[i] b.truck then refreshRequest b i s
    else if s.road.segments[i].queue.length = waitQueueSize then refuseRequest b i s
    else queueRequest b i s := rfl

theorem holdsSomewhere_iff : s.road.segments.toList.any (fun g => holds g truck) = true
    ↔ ∃ k : Fin 16, holds s.road.segments[k] truck = true := by
  rw [List.any_eq_true]
  constructor
  · rintro ⟨g, hg, hh⟩
    obtain ⟨n, hn, rfl⟩ := List.getElem_of_mem hg
    refine ⟨⟨n, by simpa using hn⟩, ?_⟩
    simpa using hh
  · rintro ⟨k, hk⟩
    exact ⟨s.road.segments[k], by simp, hk⟩

theorem beaconRequest_placed (h : Placed b i s) : beaconRequest b i s = s := by
  rw [beaconRequest_eq]
  rcases h with h | h | h
  · rw [if_pos (by rw [h, Bool.true_or])]
  · rw [if_pos (by rw [h, Bool.or_true])]
  · rw [if_pos (holdsSomewhere_iff.mpr h), ite_self]

theorem beaconRequest_unplaced (h : ¬Placed b i s) : beaconRequest b i s =
    if waits s.road.segments[i] b.truck then refreshRequest b i s
    else if s.road.segments[i].queue.length = waitQueueSize then refuseRequest b i s
    else queueRequest b i s := by
  obtain ⟨hh, hrest⟩ := not_or.mp h
  obtain ⟨ho, hk⟩ := not_or.mp hrest
  rw [beaconRequest_eq, if_neg (by rw [Bool.or_eq_true]; exact not_or.mpr ⟨hh, ho⟩), if_neg (fun e => hk (holdsSomewhere_iff.mp e))]

theorem refreshRequest_road (b : Beacon) (i : Fin 16) (s : State) : (refreshRequest b i s).road
    = { s.road with segments := s.road.segments.set i { s.road.segments[i] with
        queue := s.road.segments[i].queue.map (fun w => if w.truck = b.truck then b.entry else w), marked := true } } := by
  rw [refreshRequest, markSegment, changeSegment_road, changeSegment_road]
  simp only [modifyAt_modifyAt]
  rfl

theorem refuseRequest_road (b : Beacon) (i : Fin 16) (s : State) :
    (refuseRequest b i s).road = { s.road with queueFull := saturate countTop s.road.queueFull } := by
  show ({ (addRecord _ _ _ s).road with queueFull := saturate countTop (addRecord _ _ _ s).road.queueFull } : RoadUnit) = _
  rw [addRecord_road]

/-- One turn of case 5's first half (R138). -/
def leaveQueueTurn (truck : Id) (i k : Fin 16) (s : State) : State :=
  if waits s.road.segments[k] truck && k != i then markSegment k (dropWaiter k truck s) else s

/-- A segment whose queue the truck has left. -/
def Segment.unqueue (truck : Id) (g : Segment) : Segment :=
  if Machine.waits g truck then { g with queue := g.queue.filter (fun w => w.truck != truck), marked := true } else g

theorem leaveQueueTurn_road (truck : Id) (i k : Fin 16) (s : State) : RoadAt k s (leaveQueueTurn truck i k s)
    ∧ (leaveQueueTurn truck i k s).road.segments[k] = if k = i then s.road.segments[k] else s.road.segments[k].unqueue truck := by
  unfold leaveQueueTurn Segment.unqueue
  by_cases hk : k = i
  · rw [if_neg (by simp [hk]), if_pos hk]
    exact ⟨.of_road rfl, rfl⟩
  · rw [if_neg hk]
    cases hw : waits s.road.segments[k] truck with
    | true =>
      rw [if_pos (by simp [hk]), (markSegment_road k _).2, dropWaiter, changeSegment_get]
      exact ⟨(changeSegment_roadAt k _ s).trans (changeSegment_roadAt k _ _), rfl⟩
    | false =>
      rw [if_neg (by simp)]
      exact ⟨.of_road rfl, rfl⟩

/-- The first half of case 5 (R138). -/
theorem leaveOtherQueues_road (truck : Id) (i : Fin 16) (s : State) :
    (∀ k : Fin 16, (leaveOtherQueues truck i s).road.segments[k]
      = if k = i then s.road.segments[k] else s.road.segments[k].unqueue truck)
    ∧ (leaveOtherQueues truck i s).road.trucks = s.road.trucks ∧ (leaveOtherQueues truck i s).road.queueFull = s.road.queueFull
    ∧ (leaveOtherQueues truck i s).road.tableFull = s.road.tableFull := by
  have heq : leaveOtherQueues truck i s = forEach 16 (leaveQueueTurn truck i) s := rfl
  rw [heq]
  exact ⟨forEach_road (R := fun k g h => h = if k = i then g else g.unqueue truck)
    (fun k u => (leaveQueueTurn_road truck i k u).1) (fun k u => (leaveQueueTurn_road truck i k u).2) s,
    forEach_rest (fun k u => (leaveQueueTurn_road truck i k u).1) s⟩

theorem queueRequest_road (b : Beacon) (i : Fin 16) (s : State) :
    (queueRequest b i s).road.segments[i]
      = { s.road.segments[i] with queue := s.road.segments[i].queue ++ [b.entry], marked := true }
    ∧ (∀ k : Fin 16, k ≠ i → (queueRequest b i s).road.segments[k] = s.road.segments[k].unqueue b.truck)
    ∧ (queueRequest b i s).road.trucks = s.road.trucks ∧ (queueRequest b i s).road.queueFull = s.road.queueFull
    ∧ (queueRequest b i s).road.tableFull = s.road.tableFull := by
  obtain ⟨hsegments, htrucks, hqueue, htable⟩ := leaveOtherQueues_road b.truck i s
  unfold queueRequest
  generalize leaveOtherQueues b.truck i s = u at hsegments htrucks hqueue htable
  have hat : RoadAt i u (markSegment i (changeSegment i (fun g => { g with queue := g.queue ++ [b.entry] }) u)) :=
    (changeSegment_roadAt i _ u).trans (changeSegment_roadAt i _ _)
  refine ⟨?_, fun k hk => ?_, hat.rest.1.trans htrucks, hat.rest.2.1.trans hqueue, hat.rest.2.2.trans htable⟩
  · rw [(markSegment_road i _).2, changeSegment_get, hsegments, if_pos rfl]
  · rw [hat.others hk, hsegments, if_neg hk]

/-- No case of a request changes occupants or trucks, and QUEUE_FULL counts in case 4 alone (R138). -/
theorem beaconRequest_keeps (b : Beacon) (i : Fin 16) (s : State) :
    (∀ k : Fin 16, (beaconRequest b i s).road.segments[k].granted = s.road.segments[k].granted
      ∧ (beaconRequest b i s).road.segments[k].unauthorised = s.road.segments[k].unauthorised)
    ∧ (beaconRequest b i s).road.trucks = s.road.trucks ∧ (beaconRequest b i s).road.tableFull = s.road.tableFull := by
  by_cases h : Placed b i s
  · rw [beaconRequest_placed h]
    exact ⟨fun _ => ⟨rfl, rfl⟩, rfl, rfl⟩
  · rw [beaconRequest_unplaced h]
    split
    · have hat : RoadAt i s (refreshRequest b i s) := (changeSegment_roadAt i _ s).trans (changeSegment_roadAt i _ _)
      refine ⟨fun k => ?_, hat.rest.1, hat.rest.2.2⟩
      by_cases hk : k = i
      · rw [hk, refreshRequest, (markSegment_road i _).2, changeSegment_get]
        exact ⟨rfl, rfl⟩
      · rw [hat.others hk]
        exact ⟨rfl, rfl⟩
    · split
      · simp only [refuseRequest_road, and_self, implies_true]
      · obtain ⟨hi, hk, htrucks, -, htable⟩ := queueRequest_road b i s
        refine ⟨fun k => ?_, htrucks, htable⟩
        by_cases hki : k = i
        · rw [hki, hi]
          exact ⟨rfl, rfl⟩
        · rw [hk k hki, Segment.unqueue]
          split
          · exact ⟨rfl, rfl⟩
          · exact ⟨rfl, rfl⟩

/-- A request that meets 8 waiters and no earlier case of R138. -/
def MeetsFull (b : Beacon) (i : Fin 16) (s : State) : Prop :=
  ¬Placed b i s ∧ waits s.road.segments[i] b.truck = false ∧ s.road.segments[i].queue.length = 8

theorem beaconRequest_full (h : MeetsFull b i s) :
    (beaconRequest b i s).road.queueFull = saturate countTop s.road.queueFull := by
  obtain ⟨hp, hw, hq⟩ := h
  have hfull : s.road.segments[i].queue.length = waitQueueSize := hq
  rw [beaconRequest_unplaced hp, hw, if_neg Bool.false_ne_true, if_pos hfull, refuseRequest_road]

theorem beaconRequest_notFull (h : ¬MeetsFull b i s) : (beaconRequest b i s).road.queueFull = s.road.queueFull := by
  by_cases hp : Placed b i s
  · rw [beaconRequest_placed hp]
  · rw [beaconRequest_unplaced hp]
    split
    · rfl
    · rename_i hw
      have hq : ¬s.road.segments[i].queue.length = waitQueueSize := fun hq => h ⟨hp, by simpa using hw, hq⟩
      rw [if_neg hq]
      exact (queueRequest_road b i s).2.2.2.1

/-! ## The truck's record and its place -/

/-- The truck table position that a beacon of the truck takes (R134). -/
def truckPlace (s : State) (truck : Id) : Option (Fin 32) :=
  match truckPosition s truck with
  | some p => some p
  | none => findIndex s.road.trucks (fun k => k.isNone)

/-- The first step of a beacon (R134). -/
theorem beaconTruck_place {p : Fin 32} (h : truckPlace s b.truck = some p) : ∃ u, beaconTruck b s = some u
    ∧ u.road = { s.road with trucks := s.road.trucks.set p (some (beaconRecord s b)) } ∧ u.effective = s.effective := by
  have hset : (setTruck p (some (beaconRecord s b)) s).road = { s.road with trucks := s.road.trucks.set p (some (beaconRecord s b)) } :=
    setTruck_road _ _ _
  cases hp : truckPosition s b.truck with
  | none =>
    simp only [truckPlace, hp] at h
    exact ⟨setTruck p (some (beaconRecord s b)) s, by simp only [beaconTruck, hp, h], hset, rfl⟩
  | some q =>
    simp only [truckPlace, hp, Option.some.injEq] at h
    subst h
    cases hk : s.road.trucks[q] with
    | none => exact ⟨setTruck q (some (beaconRecord s b)) s, by simp only [beaconTruck, hp, hk], hset, rfl⟩
    | some k =>
      cases hl : k.lost with
      | none => exact ⟨setTruck q (some (beaconRecord s b)) s, by simp only [beaconTruck, hp, hk, hl], hset, rfl⟩
      | some at_ =>
        exact ⟨addRecord recTruckFound b.truck.toNat (detail [detailTime at_]) (setTruck q (some (beaconRecord s b)) s),
          by simp only [beaconTruck, hp, hk, hl], (addRecord_road _ _ _ _).trans hset, addRecord_effective _ _ _ _⟩

theorem beaconTruck_full (h : truckPlace s b.truck = none) : beaconTruck b s = none := by
  cases hp : truckPosition s b.truck with
  | none =>
    simp only [truckPlace, hp] at h
    simp only [beaconTruck, hp, h]
  | some q =>
    simp only [truckPlace, hp] at h
    cases h

/-- The truck placed in its current segment, if that is a controlled one (R135, R136). -/
def beaconPlaced (b : Beacon) (now : Option (Fin 16)) (s : State) : State :=
  match now with
  | some i => beaconEnter b i (beaconLeave b.truck now s)
  | none => beaconLeave b.truck now s

theorem beaconPlaced_none (b : Beacon) (s : State) : beaconPlaced b none s = beaconLeave b.truck none s := rfl

theorem beaconPlaced_some (b : Beacon) (i : Fin 16) (s : State) :
    beaconPlaced b (some i) s = beaconEnter b i (beaconLeave b.truck (some i) s) := rfl

/-- What a beacon makes of segment `i` before its request (R135, R136). -/
def Segment.placed (truck : Id) (now : Option (Fin 16)) (i : Fin 16) (g : Segment) : Segment :=
  if now = some i then g.entered truck else g.without truck

theorem Segment.placed_now {g : Segment} {now : Option (Fin 16)} (h : now = some i) : g.placed truck now i = g.entered truck := if_pos h

theorem Segment.placed_other {g : Segment} {now : Option (Fin 16)} (h : now ≠ some i) : g.placed truck now i = g.without truck :=
  if_neg h

theorem entered_congr {g h : Segment} (k : g.SameLists h) : (g.entered truck).SameLists (h.entered truck) := by
  have hh := k.holds truck
  have ho := k.occupies truck
  obtain ⟨hholders, hgranted, hunauthorised, hqueue⟩ := k
  unfold Segment.entered
  simp only [hh, ho, hholders, hgranted, hunauthorised, hqueue]
  split
  · exact ⟨rfl, rfl, rfl, rfl⟩
  · split
    · exact ⟨hholders, hgranted, hunauthorised, hqueue⟩
    · exact ⟨rfl, rfl, rfl, rfl⟩

/-- The second and the third step of a beacon (R135, R136). -/
theorem beaconPlaced_road (b : Beacon) (now : Option (Fin 16)) (s : State) :
    (∀ j : Fin 16, (s.road.segments[j].placed b.truck now j).SameLists (beaconPlaced b now s).road.segments[j])
      ∧ (beaconPlaced b now s).road.trucks = s.road.trucks
      ∧ (beaconPlaced b now s).road.queueFull = s.road.queueFull
      ∧ (beaconPlaced b now s).road.tableFull = s.road.tableFull := by
  obtain ⟨hleft, htrucks, hqueue, htable⟩ := beaconLeave_road b.truck now s
  cases now with
  | none =>
    rw [beaconPlaced_none]
    refine ⟨fun j => ?_, htrucks, hqueue, htable⟩
    have hj := hleft j
    rw [Segment.leftBehind, if_neg (by simp)] at hj
    rw [Segment.placed_other (by simp)]
    exact hj
  | some i =>
    rw [beaconPlaced_some]
    generalize beaconLeave b.truck (some i) s = u at hleft htrucks hqueue htable
    obtain ⟨hat, hentered⟩ := beaconEnter_road b i u
    obtain ⟨kt, kq, kf⟩ := hat.rest
    refine ⟨fun j => ?_, kt.trans htrucks, kq.trans hqueue, kf.trans htable⟩
    have hj := hleft j
    rw [Segment.leftBehind] at hj
    by_cases hji : j = i
    · subst hji
      rw [if_pos rfl] at hj
      rw [Segment.placed_now rfl]
      exact (entered_congr hj).trans hentered
    · have hne : (some i : Option (Fin 16)) ≠ some j := fun e => hji (Option.some.inj e).symm
      rw [if_neg hne] at hj
      rw [Segment.placed_other hne]
      rw [hat.others hji]
      exact hj

theorem beaconPlaced_effective (b : Beacon) (now : Option (Fin 16)) (s : State) : (beaconPlaced b now s).effective = s.effective := by
  have hleave := (beaconLeave_works b.truck now s).effective
  cases now with
  | none => rwa [beaconPlaced_none]
  | some i =>
    rw [beaconPlaced_some]
    exact (beaconEnter_works b i _).effective.trans hleave

/-! ## When the request meets a full queue -/

theorem without_holds (g : Segment) (truck : Id) : holds (g.without truck) truck = holds g truck := rfl

theorem without_occupies (g : Segment) (truck : Id) : occupies (g.without truck) truck = false := by
  simp [occupies, Segment.without]

theorem entered_holds (g : Segment) (truck : Id) : holds (g.entered truck) truck = false := by
  cases hh : holds g truck with
  | true =>
    rw [Segment.entered_holder hh]
    simp [holds]
  | false =>
    cases ho : occupies g truck with
    | true => rw [Segment.entered_occupant hh ho, hh]
    | false =>
      rw [Segment.entered_stranger hh ho]
      exact hh

theorem entered_occupies (g : Segment) (truck : Id) : occupies (g.entered truck) truck = false
    ↔ holds g truck = false ∧ occupies g truck = false ∧ 4 ≤ g.unauthorised.length := by
  cases hh : holds g truck with
  | true =>
    rw [Segment.entered_holder hh]
    simp [occupies]
  | false =>
    cases ho : occupies g truck with
    | true =>
      rw [Segment.entered_occupant hh ho, ho]
      simp
    | false =>
      rw [Segment.entered_stranger hh ho]
      simp only [occupies, Bool.or_eq_false_iff] at ho ⊢
      rw [listedUnauthorised]
      by_cases hroom : g.unauthorised.length < 4
      · rw [if_pos hroom]
        simp [hroom]
      · rw [if_neg hroom]
        exact iff_of_true ho ⟨trivial, trivial, Nat.not_lt.mp hroom⟩

/-- A queue of at most 8 that is full without the truck's entries had none of them. -/
theorem full_without {l : List Waiter} (hlen : l.length ≤ 8) : (l.filter (fun w => w.truck != truck)).length = 8
    ↔ l.any (fun w => w.truck == truck) = false ∧ l.length = 8 := by
  constructor
  · intro h
    have hle := List.length_filter_le (fun w : Waiter => w.truck != truck) l
    have hall : l.filter (fun w => w.truck != truck) = l := List.filter_sublist.eq_of_length (by omega)
    refine ⟨?_, by omega⟩
    rw [List.filter_eq_self] at hall
    rw [List.any_eq_false]
    intro w hw
    simpa using hall w hw
  · rintro ⟨hany, hl⟩
    rw [List.any_eq_false] at hany
    rw [List.filter_eq_self.mpr fun w hw => by simpa using hany w hw, hl]

theorem without_queue (g : Segment) (truck : Id) : (g.without truck).queue = g.queue := rfl

/-- When the request of a beacon counts QUEUE_FULL, by the state before the beacon (R138). -/
theorem meetsFull_iff {now : Option (Fin 16)} {j : Fin 16} (hlen : ∀ i : Fin 16, s.road.segments[i].queue.length ≤ 8)
    (hu : ∀ i : Fin 16, (s.road.segments[i].placed b.truck now i).SameLists u.road.segments[i]) : MeetsFull b j u ↔
      (∀ i : Fin 16, holds s.road.segments[i] b.truck = true → now = some i)
      ∧ (now = some j → holds s.road.segments[j] b.truck = false ∧ occupies s.road.segments[j] b.truck = false
          ∧ 4 ≤ s.road.segments[j].unauthorised.length)
      ∧ waits s.road.segments[j] b.truck = false ∧ s.road.segments[j].queue.length = 8 := by
  have hholds : (∃ k : Fin 16, holds u.road.segments[k] b.truck = true)
      ↔ ¬∀ i : Fin 16, holds s.road.segments[i] b.truck = true → now = some i := by
    have hk (k : Fin 16) : holds u.road.segments[k] b.truck = true ↔ holds s.road.segments[k] b.truck = true ∧ now ≠ some k := by
      rw [(hu k).holds]
      by_cases hnow : now = some k
      · rw [Segment.placed_now hnow, entered_holds]
        simp [hnow]
      · rw [Segment.placed_other hnow, without_holds]
        simp [hnow]
    simp only [hk, not_forall, exists_prop, ne_eq]
  have hplaced : Placed b j u ↔ occupies u.road.segments[j] b.truck = true
      ∨ ∃ k : Fin 16, holds u.road.segments[k] b.truck = true :=
    ⟨fun h => h.elim (fun h => .inr ⟨j, h⟩) id, .inr⟩
  unfold MeetsFull
  rw [hplaced, not_or, hholds, not_not, Bool.not_eq_true, (hu j).occupies, (hu j).waits, (hu j).queue]
  by_cases hnow : now = some j
  · rw [Segment.placed_now hnow, entered_occupies]
    constructor
    · rintro ⟨⟨⟨hh, ho, hroom⟩, hall⟩, -, hq⟩
      rw [Segment.entered_stranger hh ho] at hq
      obtain ⟨hw, hl⟩ := (full_without (hlen j)).mp hq
      exact ⟨hall, fun _ => ⟨hh, ho, hroom⟩, hw, hl⟩
    · rintro ⟨hall, hstranger, hw, hl⟩
      obtain ⟨hh, ho, hroom⟩ := hstranger hnow
      refine ⟨⟨⟨hh, ho, hroom⟩, hall⟩, ?_, ?_⟩
      · rw [Segment.entered_stranger hh ho]
        simp [waits]
      · rw [Segment.entered_stranger hh ho]
        exact (full_without (hlen j)).mpr ⟨hw, hl⟩
  · rw [Segment.placed_other hnow, without_occupies]
    constructor
    · rintro ⟨⟨-, hall⟩, hw, hl⟩
      exact ⟨hall, fun h => absurd h hnow, hw, hl⟩
    · rintro ⟨hall, -, hw, hl⟩
      exact ⟨⟨rfl, hall⟩, hw, hl⟩

/-! ## The whole beacon -/

theorem segmentIndex_congr (h : t.effective = s.effective) (id : Id) : segmentIndex t id = segmentIndex s id := by
  rw [segmentIndex, segmentIndex, h]

theorem controlled_congr (h : t.effective = s.effective) (i : Fin 16) : controlled t i = controlled s i := by
  rw [controlled, controlled, h]

theorem controlledIndex_congr (h : t.effective = s.effective) (id : Id) : controlledIndex t id = controlledIndex s id := by
  unfold controlledIndex
  rw [segmentIndex_congr h]
  cases segmentIndex s id with
  | none => rfl
  | some i => simp only [controlled_congr h]

theorem controlledIndex_known (s : State) (id : Id) : controlledIndex s (knownSegment s id) = controlledIndex s id := by
  unfold knownSegment
  cases hid : segmentIndex s id with
  | none =>
    have hzero : segmentIndex s 0 = none := if_pos rfl
    simp only [Option.isSome_none, Bool.false_eq_true, if_false, controlledIndex, hid, hzero]
  | some i => simp only [Option.isSome_some, if_true]

/-- The request of a beacon, where it names a controlled segment (R138). -/
def beaconAsked (b : Beacon) (asked : Option (Fin 16)) (s : State) : State :=
  match asked with
  | some i => beaconRequest b i s
  | none => s

theorem takeBeacon_placed (h : beaconTruck b s = some u) (heff : u.effective = s.effective) : takeBeacon b s
    = beaconAsked b (controlledIndex s b.requested) (beaconPlaced b (controlledIndex s b.current) u) := by
  have hnow := controlledIndex_congr heff b.current
  have hasked := controlledIndex_congr ((beaconPlaced_effective b (controlledIndex s b.current) u).trans heff) b.requested
  have heq : takeBeacon b s = beaconAsked b (controlledIndex (beaconPlaced b (controlledIndex u b.current) u) b.requested)
      (beaconPlaced b (controlledIndex u b.current) u) := by
    simp only [takeBeacon, h]
    cases controlledIndex u b.current <;> rfl
  rw [heq, hnow, hasked]

theorem takeBeacon_full (h : beaconTruck b s = none) :
    (takeBeacon b s).road = { s.road with tableFull := saturate countTop s.road.tableFull } := by
  simp only [takeBeacon, h]
  show ({ (addRecord _ _ _ s).road with tableFull := saturate countTop (addRecord _ _ _ s).road.tableFull } : RoadUnit) = _
  rw [addRecord_road]

/-- What a beacon that finds a place in the truck table does to the roadway unit (R134 to R138). -/
theorem takeBeacon_road {p : Fin 32} (hp : truckPlace s b.truck = some p)
    (hlen : ∀ i : Fin 16, s.road.segments[i].queue.length ≤ 8) :
    let now := controlledIndex s b.current
    let t := takeBeacon b s
    t.road.trucks = s.road.trucks.set p (some (beaconRecord s b))
      ∧ (∀ i : Fin 16, t.road.segments[i].granted = (s.road.segments[i].placed b.truck now i).granted
          ∧ t.road.segments[i].unauthorised = (s.road.segments[i].placed b.truck now i).unauthorised)
      ∧ t.road.tableFull = s.road.tableFull
      ∧ (∀ j, controlledIndex s b.requested = some j →
          (∀ i : Fin 16, holds s.road.segments[i] b.truck = true → now = some i) →
          (now = some j → holds s.road.segments[j] b.truck = false ∧ occupies s.road.segments[j] b.truck = false
            ∧ 4 ≤ s.road.segments[j].unauthorised.length) →
          waits s.road.segments[j] b.truck = false → s.road.segments[j].queue.length = 8 →
          t.road.queueFull = saturate countTop s.road.queueFull)
      ∧ ((∀ j, ¬(controlledIndex s b.requested = some j ∧
          (∀ i : Fin 16, holds s.road.segments[i] b.truck = true → now = some i) ∧
          (now = some j → holds s.road.segments[j] b.truck = false ∧ occupies s.road.segments[j] b.truck = false
            ∧ 4 ≤ s.road.segments[j].unauthorised.length) ∧
          waits s.road.segments[j] b.truck = false ∧ s.road.segments[j].queue.length = 8)) →
          t.road.queueFull = s.road.queueFull) := by
  obtain ⟨u, htruck, hroad, heff⟩ := beaconTruck_place hp
  dsimp only
  rw [takeBeacon_placed htruck heff]
  generalize controlledIndex s b.current = now
  obtain ⟨hlists, htrucks, hqueue, htable⟩ := beaconPlaced_road b now u
  have hsegments (i : Fin 16) : u.road.segments[i] = s.road.segments[i] := by rw [hroad]
  simp only [hsegments] at hlists
  generalize beaconPlaced b now u = v at hlists htrucks hqueue htable
  have hkept : (beaconAsked b (controlledIndex s b.requested) v).road.trucks = v.road.trucks
      ∧ (∀ i : Fin 16, (beaconAsked b (controlledIndex s b.requested) v).road.segments[i].granted = v.road.segments[i].granted
        ∧ (beaconAsked b (controlledIndex s b.requested) v).road.segments[i].unauthorised = v.road.segments[i].unauthorised)
      ∧ (beaconAsked b (controlledIndex s b.requested) v).road.tableFull = v.road.tableFull := by
    cases controlledIndex s b.requested with
    | none => exact ⟨rfl, fun _ => ⟨rfl, rfl⟩, rfl⟩
    | some j =>
      obtain ⟨hocc, ht, hf⟩ := beaconRequest_keeps b j v
      exact ⟨ht, hocc, hf⟩
  obtain ⟨ktrucks, kocc, ktable⟩ := hkept
  refine ⟨by rw [ktrucks, htrucks, hroad], fun i => ⟨(kocc i).1.trans (hlists i).granted, (kocc i).2.trans (hlists i).unauthorised⟩,
    by rw [ktable, htable, hroad], fun j hj hholds hnow hwaits hfull => ?_, fun hno => ?_⟩
  · rw [hj]
    exact (beaconRequest_full ((meetsFull_iff hlen hlists).mpr ⟨hholds, hnow, hwaits, hfull⟩)).trans (by rw [hqueue, hroad])
  · have hv : v.road.queueFull = s.road.queueFull := by rw [hqueue, hroad]
    cases hj : controlledIndex s b.requested with
    | none => exact hv
    | some j => exact (beaconRequest_notFull fun h => hno j ⟨hj, (meetsFull_iff hlen hlists).mp h⟩).trans hv

end

/-- The beacon as its frame hands it on (R107). -/
def handedBeacon (s : State) (truck : Id) (power : Power) (heading : Heading) (current requested : Id) : Beacon :=
  { truck := truck, power := power, heading := heading, current := knownSegment s current, requested := knownSegment s requested }

/-- The record that a beacon makes of the truck (R134), by the state before its event. -/
theorem handedBeacon_record {s v : State} {truck : Id} {power : Power} {heading : Heading} {current requested : Id}
    (heff : v.effective = s.effective) (htime : v.time = s.time) :
    beaconRecord v (handedBeacon v truck power heading current requested)
      = { id := truck, power := power, heading := heading, lastSegment := knownSegment s current, lastBeacon := s.time, lost := none,
          stale := Timer.start s.effective.node.truckStale, forget := Timer.start s.effective.node.truckForget } := by
  have hknown : knownSegment v current = knownSegment s current := by rw [knownSegment, segmentIndex_congr heff, knownSegment]
  simp only [beaconRecord, handedBeacon, hknown, heff, htime]

theorem Timer.start_not_expired (n : Nat) : Timer.start n ≠ .expired := by
  unfold Timer.start
  split <;> nofun

/-- The request step of a beacon in its five cases (R138). -/
theorem beaconRequest_cases (b : Beacon) (i : Fin 16) (s : State) :
    let t := beaconRequest b i s
    let g := s.road.segments[i]
    (Placed b i s → t = s)
    ∧ (¬Placed b i s → waits g b.truck = true →
        t.road = { s.road with segments := s.road.segments.set i { g with
          queue := g.queue.map (fun w => if w.truck = b.truck then b.entry else w), marked := true } })
    ∧ (¬Placed b i s → waits g b.truck = false → g.queue.length = 8 →
        t.road = { s.road with queueFull := saturate countTop s.road.queueFull })
    ∧ (¬Placed b i s → waits g b.truck = false → g.queue.length ≠ 8 →
        t.road.segments[i] = { g with queue := g.queue ++ [b.entry], marked := true }
        ∧ (∀ k : Fin 16, k ≠ i → t.road.segments[k] = s.road.segments[k].unqueue b.truck)
        ∧ t.road.trucks = s.road.trucks ∧ t.road.queueFull = s.road.queueFull ∧ t.road.tableFull = s.road.tableFull) := by
  dsimp only
  have hsize : waitQueueSize = 8 := rfl
  refine ⟨beaconRequest_placed, fun hp hw => ?_, fun hp hw hq => ?_, fun hp hw hq => ?_⟩
  · rw [beaconRequest_unplaced hp, hw, if_pos rfl, refreshRequest_road]
  · rw [beaconRequest_unplaced hp, hw, if_neg Bool.false_ne_true, hsize, if_pos hq, refuseRequest_road]
  · rw [beaconRequest_unplaced hp, hw, if_neg Bool.false_ne_true, hsize, if_neg hq]
    exact queueRequest_road b i s

/-- Settles O43: the beacon by its steps, from what each does to the lists of the segments. -/
theorem beaconTracksAndRequests : Obligations.BeaconTracksAndRequests := by
  refine ⟨fun truck power heading origin current requested s hrun htruck horigin hlen => ?_, fun b i s => beaconRequest_cases b i s,
    fun b i s hholds => ?_⟩
  · have hdef : Frame.defined (.truckBeacon truck power heading origin current requested) = true := by
      unfold Frame.defined
      exact Bool.and_eq_true_iff.mpr ⟨bne_iff_ne.mpr htruck, horigin⟩
    have hexec : exec (.truckBeacon truck power heading origin current requested) s
        = .next (frameEvent (.truckBeacon truck power heading origin current requested) s) := rfl
    rw [frameEvent_defined hrun hdef] at hexec
    obtain ⟨u, hu⟩ := handed_eq (.truckBeacon truck power heading origin current requested) s
    have htake (v : State) : takeFrame (.truckBeacon truck power heading origin current requested) v
        = takeBeacon (handedBeacon v truck power heading current requested) v := rfl
    have rest := frameTaken_sameBut (f := .truckBeacon truck power heading origin current requested) (s := s) (l := [.road])
      (by rw [htake]; exact (takeBeacon_within _ _).1)
    have acted := (frameTaken_acted (.truckBeacon truck power heading origin current requested) s).road
    generalize frameTaken (.truckBeacon truck power heading origin current requested) s = t at hexec acted rest
    rw [htake] at acted
    refine ⟨t, hexec, ?_, rest⟩
    rw [hu] at acted
    generalize hv : ({ beginEvent s with frame := u } : State) = v at acted
    have hroad : v.road = s.road := by rw [← hv]; rfl
    have heff : v.effective = s.effective := by rw [← hv]; rfl
    have htime : v.time = s.time := by rw [← hv]; rfl
    have hplace : truckPlace v truck = truckPlace s truck := by rw [truckPlace, truckPosition, hroad]; rfl
    have hnow (id : Id) : controlledIndex v (knownSegment v id) = controlledIndex s id :=
      (controlledIndex_known v id).trans (controlledIndex_congr heff id)
    obtain ⟨hfull, htable, hocc, htrucks⟩ := acted
    refine ⟨fun p hp => ?_, fun hp => ?_⟩
    · have hp' : truckPlace v (handedBeacon v truck power heading current requested).truck = some p := hplace.trans hp
      obtain ⟨ktrucks, kocc, ktable, kfull, knot⟩ := takeBeacon_road hp' (by rw [hroad]; exact hlen)
      have hrecord := handedBeacon_record (truck := truck) (power := power) (heading := heading) (current := current)
        (requested := requested) heff htime
      generalize takeBeacon (handedBeacon v truck power heading current requested) v = w at *
      simp only [handedBeacon, hnow, hroad] at hrecord ktrucks kocc ktable kfull knot
      refine ⟨?_, fun q hq => ?_, fun i hi => ?_, fun i hi => ⟨fun hh => ?_, fun hh ho => ?_, fun hh ho => ?_⟩, htable.trans ktable,
        fun j ⟨hj, hholds, hstranger, hwaits, hlen⟩ => hfull.trans (kfull j hj hholds hstranger hwaits hlen),
        fun hno => hfull.trans (knot hno)⟩
      · have hw : w.road.trucks[p] = some (beaconRecord v (handedBeacon v truck power heading current requested)) := by
          rw [ktrucks, set_get, if_pos rfl]
          rfl
        rcases htrucks p with h | ⟨-, k, hk, hexpired⟩
        · rw [h, hw]
          exact congrArg some hrecord
        · rw [hw] at hk
          cases hk
          exact absurd hexpired (Timer.start_not_expired _)
      · have hw : w.road.trucks[q] = s.road.trucks[q] := by rw [ktrucks, set_get, if_neg hq]
        rw [← hw]
        exact htrucks q
      · obtain ⟨hgranted, hunauthorised⟩ := kocc i
        rw [Segment.placed_other hi] at hgranted hunauthorised
        exact ⟨(hocc i).1.trans hgranted, (hocc i).2.trans hunauthorised⟩
      all_goals
        obtain ⟨hgranted, hunauthorised⟩ := kocc i
        rw [Segment.placed_now hi] at hgranted hunauthorised
        rw [(hocc i).1, (hocc i).2, hgranted, hunauthorised]
      · rw [Segment.entered_holder hh]
        exact ⟨rfl, rfl⟩
      · rw [Segment.entered_occupant hh ho]
        exact ⟨rfl, rfl⟩
      · rw [Segment.entered_stranger hh ho]
        exact ⟨rfl, rfl⟩
    · have hp' : truckPlace v (handedBeacon v truck power heading current requested).truck = none := hplace.trans hp
      have taken := takeBeacon_full (beaconTruck_full hp')
      simp only [taken, hroad] at hfull htable hocc
      exact ⟨htable, hfull, hocc⟩
  · obtain ⟨hat, d, hget⟩ := beaconEnter_holder hholds
    refine ⟨?_, fun k hk => hat.others hk, hat.rest.1⟩
    simp only [hget]

end Sys2Proof.Machine
end

section
/-! PROOFS. A segment's direction, its gated grade, and what evacuation leaves in it (R137, R143 to R145). -/

set_option Elab.async false

namespace Sys2Proof.Machine

open Sys2Proof.Config

/-! ## Directions -/

section
variable {s t : State} {i : Fin 16}

theorem directionOf_cases (l : List Heading) : (.inbye ∉ l → .outbye ∉ l → directionOf l = .free)
    ∧ (.inbye ∈ l → .outbye ∉ l → directionOf l = .inbye) ∧ (.inbye ∉ l → .outbye ∈ l → directionOf l = .outbye)
    ∧ (.inbye ∈ l → .outbye ∈ l → directionOf l = .conflict) := by
  cases l with
  | nil => exact ⟨fun _ _ => rfl, nofun, fun _ => nofun, nofun⟩
  | cons h rest =>
    have hall : (rest.all (fun k => k == h) = true) ↔ ∀ k ∈ h :: rest, k = h := by simp
    rw [directionOf]
    cases h with
    | inbye =>
      have hsame : (∀ k ∈ Heading.inbye :: rest, k = Heading.inbye) ↔ Heading.outbye ∉ Heading.inbye :: rest :=
        ⟨fun h hm => Heading.noConfusion (h _ hm), fun h k hk => by cases k with | inbye => rfl | outbye => exact absurd hk h⟩
      simp only [hall, hsame]
      exact ⟨fun h => absurd List.mem_cons_self h, fun _ h => if_pos h, fun h => absurd List.mem_cons_self h,
        fun _ h => if_neg (not_not.mpr h)⟩
    | outbye =>
      have hsame : (∀ k ∈ Heading.outbye :: rest, k = Heading.outbye) ↔ Heading.inbye ∉ Heading.outbye :: rest :=
        ⟨fun h hm => Heading.noConfusion (h _ hm), fun h k hk => by cases k with | outbye => rfl | inbye => exact absurd hk h⟩
      simp only [hall, hsame]
      exact ⟨fun _ h => absurd List.mem_cons_self h, fun _ h => absurd List.mem_cons_self h, fun h _ => if_pos h,
        fun h _ => if_neg (not_not.mpr h)⟩

/-- A heading among those that give a segment its direction (R137). -/
theorem mem_segmentHeadings {g : Segment} {d : Heading} : d ∈ segmentHeadings s g ↔
    (∃ id ∈ g.granted ++ g.unauthorised, ∃ k, truckOf s id = some k ∧ k.heading = d) ∨ ∃ x ∈ g.holders, x.dir = d := by
  simp only [segmentHeadings, List.mem_append, List.mem_filterMap, List.mem_map, Option.map_eq_some_iff]

theorem rederive_direction (i : Fin 16) (s : State) : (rederive i s).road.segments[i].direction = derivedDirection s i := by
  rw [(rederive_road i s).2]
  rfl

theorem turned_produce {k n : Nat} {w : Word} (hrun : s.run = true) (hroom : occupancy s.fault ≠ 64) :
    (addRecord k n w (turned i s)).fault.produce = s.fault.produce + 1 := addRecord_produce hrun hroom

theorem joinAlert_ring (m : AlertMember) (s : State) : (joinAlert m s).ring = s.ring := by
  unfold joinAlert
  split
  · rfl
  · rfl

theorem leaveAlert_ring (m : AlertMember) (s : State) : (leaveAlert m s).ring = s.ring := by
  unfold leaveAlert
  split
  · rfl
  · rfl

theorem joinAlert_fault (m : AlertMember) (s : State) : (joinAlert m s).fault = s.fault := by
  unfold joinAlert
  split
  · rfl
  · rfl

theorem leaveAlert_fault (m : AlertMember) (s : State) : (leaveAlert m s).fault = s.fault := by
  unfold leaveAlert
  split
  · rfl
  · rfl

theorem conflictTold_ring (i : Fin 16) (s : State) :
    (conflictTold i s).ring = { s.ring with requests := s.ring.requests ++ [.halt (segmentId s i)] } := by
  rw [conflictTold, joinAlert_ring, requestFrame_ring, addRecord_ring]
  rfl

theorem conflictEnded_ring (i : Fin 16) (s : State) : (conflictEnded i s).ring = s.ring := by
  show (leaveAlert _ (addRecord _ _ _ (turned i s))).ring = _
  rw [leaveAlert_ring, addRecord_ring]
  rfl

/-- A direction derived again asks for a HALT at most (R137). -/
theorem rederive_ring (i : Fin 16) (s : State) : (rederive i s).ring = s.ring
    ∨ (rederive i s).ring = { s.ring with requests := s.ring.requests ++ [.halt (segmentId s i)] } := by
  rw [rederive_eq]
  split
  · exact .inl rfl
  · split
    · exact .inr (conflictTold_ring i s)
    · split
      · exact .inl (conflictEnded_ring i s)
      · exact .inl rfl

/-- The direction of a segment derived again, in every case (R137). -/
theorem rederive_cases (i : Fin 16) (s : State) :
    let g := s.road.segments[i]
    let t := rederive i s
    let h := t.road.segments[i]
    (g.direction ≠ .conflict → h.direction = .conflict →
        AlertMember.segment i ∈ t.level.alerts ∧ h = { g with direction := .conflict }
        ∧ t.ring.requests = s.ring.requests ++ [.halt s.effective.segments[i].id]
        ∧ (s.run = true → occupancy s.fault ≠ 64 → t.fault.produce = s.fault.produce + 1))
    ∧ (g.direction = .conflict → h.direction ≠ .conflict →
        AlertMember.segment i ∉ t.level.alerts ∧ h = { g with direction := h.direction, marked := true }
        ∧ t.ring.requests = s.ring.requests
        ∧ (s.run = true → occupancy s.fault ≠ 64 → t.fault.produce = s.fault.produce + 1))
    ∧ ((g.direction = .conflict ↔ h.direction = .conflict) →
        t.level.alerts = s.level.alerts ∧ h = { g with direction := h.direction }
        ∧ t.ring.requests = s.ring.requests ∧ t.fault = s.fault)
    ∧ (∀ m, m ≠ .segment i → (m ∈ t.level.alerts ↔ m ∈ s.level.alerts)) := by
  dsimp only
  rw [rederive_direction]
  have hget := (rederive_road i s).2
  refine ⟨fun hg hd => ?_, fun hg hd => ?_, fun hsame => ?_, fun m hm => ?_⟩
  · rw [hget, hd, redirected_into, rederive_into hg hd]
    refine ⟨mem_joinAlert.mpr (.inl rfl), rfl, by rw [conflictTold_ring]; rfl, fun hrun hroom => ?_⟩
    rw [conflictTold, joinAlert_fault]
    exact turned_produce hrun hroom
  · rw [hget, redirected_out hg hd, rederive_out hd hg]
    refine ⟨fun h => (mem_leaveAlert.mp h).1 rfl, rfl, by rw [conflictEnded_ring], fun hrun hroom => ?_⟩
    show (leaveAlert _ (addRecord _ _ _ (turned i s))).fault.produce = _
    rw [leaveAlert_fault]
    exact turned_produce hrun hroom
  · rw [hget]
    by_cases hg : s.road.segments[i].direction = .conflict
    · have h := (hsame.mp hg).trans hg.symm
      rw [rederive_same h, h, redirected_same]
      exact ⟨rfl, rfl, rfl, rfl⟩
    · have hd : derivedDirection s i ≠ .conflict := fun h => hg (hsame.mpr h)
      rw [redirected_turned hg]
      by_cases h : derivedDirection s i = s.road.segments[i].direction
      · rw [rederive_same h]
        exact ⟨rfl, rfl, rfl, rfl⟩
      · rw [rederive_turned h hd hg]
        exact ⟨rfl, rfl, rfl, rfl⟩
  · rw [rederive_eq]
    split
    · rfl
    · split
      · rw [conflictTold, mem_joinAlert, or_iff_right hm]
        show m ∈ (addRecord _ _ _ (turned i s)).level.alerts ↔ _
        rw [addRecord_level]
        rfl
      · split
        · show m ∈ (leaveAlert _ (addRecord _ _ _ (turned i s))).level.alerts ↔ _
          rw [mem_leaveAlert, and_iff_right hm, addRecord_level]
          rfl
        · rfl

end

/-! ## Revocations -/

/-- The REVOKE frames that the event has asked for. -/
def revokesAsked (s : State) : List PartFrame := s.ring.requests.filter PartFrame.isRevoke

/-- The truck's GRANT for the segment is withdrawn: it waits nowhere, and where it stands in a slot its record says so (R97). -/
def GrantWithdrawn (truck seg : Id) (s : State) : Prop :=
  (∀ f ∈ s.ring.list ++ s.ring.requests, PartFrame.grants truck seg f = false)
    ∧ ∀ (n : Fin 16) r, s.ring.records[n] = some r → PartFrame.grants truck seg r.frame = true → r.withdrawn = true

section
variable {s t u : State} {i : Fin 16} {truck seg : Id}

theorem GrantWithdrawn.of_ring (h : GrantWithdrawn truck seg s) (hr : t.ring = s.ring) : GrantWithdrawn truck seg t := by
  unfold GrantWithdrawn at *
  rwa [hr]

theorem GrantWithdrawn.asked (h : GrantWithdrawn truck seg s) {f : PartFrame} (hf : PartFrame.grants truck seg f = false)
    (hr : t.ring = { s.ring with requests := s.ring.requests ++ [f] }) : GrantWithdrawn truck seg t := by
  obtain ⟨hwaits, hrecords⟩ := h
  unfold GrantWithdrawn
  rw [hr]
  refine ⟨fun k hk => ?_, hrecords⟩
  rw [← List.append_assoc, List.mem_append, List.mem_singleton] at hk
  rcases hk with hk | rfl
  · exact hwaits k hk
  · exact hf

theorem withdrawGrant_ring (truck seg : Id) (s : State) : (withdrawGrant truck seg s).ring = { s.ring with
    list := s.ring.list.filter (fun f => !PartFrame.grants truck seg f)
    requests := s.ring.requests.filter (fun f => !PartFrame.grants truck seg f)
    records := mapTable (fun r => r.map fun k =>
      if PartFrame.grants truck seg k.frame then { k with withdrawn := true } else k) s.ring.records } := by
  have hname : (fun f : PartFrame => match f with | .grant t g _ => t == truck && g == seg | _ => false)
      = PartFrame.grants truck seg := by
    funext f
    cases f <;> rfl
  have hmark : (fun r : Option FrameRecord => match r with
      | some r => some (if PartFrame.grants truck seg r.frame then { r with withdrawn := true } else r)
      | none => none) = fun r => r.map fun k => if PartFrame.grants truck seg k.frame then { k with withdrawn := true } else k := by
    funext r
    cases r <;> rfl
  have hwithdrawn : withdrawGrant truck seg s = withdrawFrames (PartFrame.grants truck seg) s := by
    rw [← hname]
    rfl
  rw [hwithdrawn, ← hmark]
  rfl

theorem mapTable_at {α β : Type} {n : Nat} (f : α → β) (v : Vector α n) (i : Fin n) : (mapTable f v)[i] = f v[i] := by
  simp [mapTable]

/-- The withdrawal of one truck's GRANT leaves another's withdrawn (R97). -/
theorem withdrawGrant_withdrawn (truck seg : Id) (s : State) : GrantWithdrawn truck seg (withdrawGrant truck seg s)
    ∧ ∀ {a b : Id}, GrantWithdrawn a b s → GrantWithdrawn a b (withdrawGrant truck seg s) := by
  have hrecord (n : Fin 16) : (withdrawGrant truck seg s).ring.records[n] = s.ring.records[n].map fun k =>
      if PartFrame.grants truck seg k.frame then { k with withdrawn := true } else k := by
    simp only [withdrawGrant_ring]
    exact mapTable_at _ _ n
  constructor
  · refine ⟨fun f hf => ?_, fun n r hr hg => ?_⟩
    · rw [withdrawGrant_ring, ← List.filter_append, List.mem_filter] at hf
      simpa using hf.2
    · rw [hrecord, Option.map_eq_some_iff] at hr
      obtain ⟨k, -, rfl⟩ := hr
      split at hg
      · rename_i hk
        rw [if_pos hk]
      · rename_i hk
        exact absurd hg hk
  · rintro a b ⟨hwaits, hrecords⟩
    refine ⟨fun f hf => ?_, fun n r hr hg => ?_⟩
    · rw [withdrawGrant_ring, ← List.filter_append, List.mem_filter] at hf
      exact hwaits f hf.1
    · rw [hrecord, Option.map_eq_some_iff] at hr
      obtain ⟨k, hk, rfl⟩ := hr
      split
      · rfl
      · rename_i hnot
        rw [if_neg hnot] at hg
        exact hrecords n k hk hg

theorem withdrawGrant_revokes (truck seg : Id) (s : State) : revokesAsked (withdrawGrant truck seg s) = revokesAsked s := by
  rw [revokesAsked, withdrawGrant_ring, revokesAsked, List.filter_filter]
  refine List.filter_congr fun f _ => ?_
  cases f <;> simp [PartFrame.isRevoke, PartFrame.grants]

theorem revokesAsked_ring (h : t.ring = s.ring) : revokesAsked t = revokesAsked s := by rw [revokesAsked, h, revokesAsked]

theorem rederive_revokes (i : Fin 16) (s : State) : revokesAsked (rederive i s) = revokesAsked s := by
  rcases rederive_ring i s with h | h
  · exact revokesAsked_ring h
  · rw [revokesAsked, h, List.filter_append]
    exact List.append_nil _

theorem rederive_withdrawn (h : GrantWithdrawn truck seg s) (i : Fin 16) : GrantWithdrawn truck seg (rederive i s) := by
  rcases rederive_ring i s with hr | hr
  · exact h.of_ring hr
  · exact h.asked rfl hr

theorem markSegment_ring (i : Fin 16) (s : State) : (markSegment i s).ring = s.ring := rfl

theorem announceRevoke_revokes (i : Fin 16) (truck : Id) (reason : RevokeReason) (form : Nat) (s : State) :
    revokesAsked (announceRevoke i truck reason form s) = revokesAsked s ++ [.revoke truck s.effective.segments[i].id reason] := by
  rw [revokesAsked, announceRevoke_requests, List.filter_append]
  rfl

/-! ## One truck revoked -/

/-- What a revocation of the truck does in segment `i` besides its list: it asks for one REVOKE and leaves other grants withdrawn. -/
structure Revoked (i : Fin 16) (reason : RevokeReason) (id : Id) (s t : State) : Prop where
  road : RoadAt i s t
  effective : t.effective = s.effective
  asked : revokesAsked t = revokesAsked s ++ [.revoke id s.effective.segments[i].id reason]
  withdrawn : ∀ {a b : Id}, GrantWithdrawn a b s → GrantWithdrawn a b t

theorem revokeHolder_revoked (i : Fin 16) (reason : RevokeReason) (id : Id) (s : State) :
    Revoked i reason id s (revokeHolder i reason id s)
      ∧ (∃ d m, (revokeHolder i reason id s).road.segments[i] = { s.road.segments[i] with
          holders := s.road.segments[i].holders.filter (fun h => h.truck != id), direction := d, marked := m })
      ∧ GrantWithdrawn id s.effective.segments[i].id (revokeHolder i reason id s) := by
  have hat : RoadAt i s (dropHolder i id s) := changeSegment_roadAt i _ s
  have hget : (dropHolder i id s).road.segments[i]
      = { s.road.segments[i] with holders := s.road.segments[i].holders.filter (fun h => h.truck != id) } := changeSegment_get i _ s
  have heff : (dropHolder i id s).effective = s.effective := rfl
  have hring : (dropHolder i id s).ring = s.ring := rfl
  have hid : segmentId s i = s.effective.segments[i].id := rfl
  unfold revokeHolder
  dsimp only
  rw [hid]
  generalize dropHolder i id s = u at hat hget heff hring
  obtain ⟨hself, hothers⟩ := withdrawGrant_withdrawn id s.effective.segments[i].id u
  have hwith := withdrawGrant_revokes id s.effective.segments[i].id u
  have hwroad : (withdrawGrant id s.effective.segments[i].id u).road = u.road := rfl
  have hweff : (withdrawGrant id s.effective.segments[i].id u).effective = u.effective := rfl
  generalize withdrawGrant id s.effective.segments[i].id u = v at hself hothers hwith hwroad hweff
  have hask := announceRevoke_revokes i id reason 1 v
  have haroad := announceRevoke_road i id reason 1 v
  have haring := announceRevoke_requests i id reason 1 v
  have haeff := (announceRevoke_works i id reason 1 v).effective
  generalize announceRevoke i id reason 1 v = w at hask haroad haring haeff
  have hveff : v.effective = s.effective := hweff.trans heff
  have hwuroad : w.road = u.road := haroad.trans hwroad
  have hwithdrawn {a b : Id} (h : GrantWithdrawn a b v) : GrantWithdrawn a b (markSegment i (rederive i w)) :=
    (rederive_withdrawn (h.asked rfl haring) i).of_ring (markSegment_ring i _)
  refine ⟨⟨?_, ?_, ?_, fun h => hwithdrawn (hothers (h.of_ring hring))⟩, ?_, hwithdrawn hself⟩
  · exact ((hat.same hwuroad).trans (rederive_road i w).1).trans (markSegment_road i _).1
  · exact ((rederive_works i w).effective.trans haeff).trans hveff
  · have h1 : revokesAsked (markSegment i (rederive i w)) = revokesAsked w :=
      (revokesAsked_ring (markSegment_ring i _)).trans (rederive_revokes i w)
    rw [h1, hask, hwith, hveff, revokesAsked_ring hring]
  · rw [(markSegment_road i _).2, (rederive_road i w).2]
    simp only [hwuroad, hget]
    exact ⟨_, _, rfl⟩

theorem revokeWaiter_revoked (i : Fin 16) (reason : RevokeReason) (id : Id) (s : State) :
    Revoked i reason id s (revokeWaiter i reason id s) := by
  have hring : (revokeWaiter i reason id s).ring = _ := announceRevoke_requests i id reason 2 (dropWaiter i id s)
  refine ⟨?_, ?_, ?_, fun h => (h.of_ring (t := dropWaiter i id s) rfl).asked rfl hring⟩
  · exact (((changeSegment_roadAt i _ s).same (announceRevoke_road i id reason 2 _)).trans (markSegment_road i _).1)
  · exact (announceRevoke_works i id reason 2 _).effective
  · exact announceRevoke_revokes i id reason 2 (dropWaiter i id s)

theorem leaveOrder_revoked (i : Fin 16) (reason : RevokeReason) (id : Id) (s : State) :
    Revoked i reason id s (leaveOrder i reason id s) :=
  ⟨.of_road (announceRevoke_road i id reason 3 s), (announceRevoke_works i id reason 3 s).effective,
    announceRevoke_revokes i id reason 3 s, fun h => h.asked rfl (announceRevoke_requests i id reason 3 s)⟩

/-! ## A list of trucks revoked -/

/-- What the revocation of a list of trucks does in segment `i` besides its lists. -/
structure AllRevoked (i : Fin 16) (reason : RevokeReason) (l : List Id) (s t : State) : Prop where
  road : RoadAt i s t
  effective : t.effective = s.effective
  asked : revokesAsked t = revokesAsked s ++ l.map (fun id => .revoke id s.effective.segments[i].id reason)
  withdrawn : ∀ {a b : Id}, GrantWithdrawn a b s → GrantWithdrawn a b t

variable {reason : RevokeReason} {l m : List Id}

theorem AllRevoked.nil (i : Fin 16) (reason : RevokeReason) (s : State) : AllRevoked i reason [] s s :=
  ⟨.of_road rfl, rfl, (List.append_nil _).symm, fun h => h⟩

theorem AllRevoked.cons {id : Id} (h : Revoked i reason id s u) (k : AllRevoked i reason l u t) :
    AllRevoked i reason (id :: l) s t := by
  refine ⟨h.road.trans k.road, k.effective.trans h.effective, ?_, fun w => k.withdrawn (h.withdrawn w)⟩
  rw [k.asked, h.asked, h.effective, List.append_assoc]
  rfl

theorem AllRevoked.trans (h : AllRevoked i reason l s u) (k : AllRevoked i reason m u t) : AllRevoked i reason (l ++ m) s t := by
  refine ⟨h.road.trans k.road, k.effective.trans h.effective, ?_, fun w => k.withdrawn (h.withdrawn w)⟩
  rw [k.asked, h.asked, h.effective, List.append_assoc, List.map_append]

theorem eachTruck_revoked {f : Id → State → State} (hf : ∀ id u, Revoked i reason id u (f id u)) (l : List Id) (s : State) :
    AllRevoked i reason l s (eachTruck f l s) := by
  unfold eachTruck
  induction l generalizing s with
  | nil => exact .nil i reason s
  | cons id rest ih => exact .cons (hf id s) (ih _)

/-- A list without the entries of the trucks of another. -/
theorem filter_ne_contains {α : Type} (f : α → Id) (id : Id) (l : List Id) (as : List α) :
    (as.filter (fun a => f a != id)).filter (fun a => !l.contains (f a)) = as.filter (fun a => !(id :: l).contains (f a)) := by
  rw [List.filter_filter]
  refine List.filter_congr fun a _ => ?_
  rw [List.contains_cons, Bool.not_or, Bool.and_comm, bne]

/-- Every listed truck revoked as a holder: the holders without them, their grants withdrawn (R141). -/
theorem revokeHolders (i : Fin 16) (reason : RevokeReason) (l : List Id) (s : State) :
    (∃ d m, (eachTruck (revokeHolder i reason) l s).road.segments[i] = { s.road.segments[i] with
        holders := s.road.segments[i].holders.filter (fun h => !l.contains h.truck), direction := d, marked := m })
      ∧ ∀ id ∈ l, GrantWithdrawn id s.effective.segments[i].id (eachTruck (revokeHolder i reason) l s) := by
  induction l generalizing s with
  | nil =>
    refine ⟨⟨s.road.segments[i].direction, s.road.segments[i].marked, ?_⟩, nofun⟩
    show s.road.segments[i] = _
    simp only [List.contains_nil, Bool.not_false, List.filter_true]
  | cons id rest ih =>
    obtain ⟨hr, ⟨d, m, hget⟩, hself⟩ := revokeHolder_revoked i reason id s
    obtain ⟨⟨d', m', kget⟩, krest⟩ := ih (revokeHolder i reason id s)
    have hkeep := eachTruck_revoked (revokeHolder_revoked i reason · · |>.1) rest (revokeHolder i reason id s)
    refine ⟨⟨d', m', ?_⟩, fun k hk => ?_⟩
    · show (eachTruck (revokeHolder i reason) rest (revokeHolder i reason id s)).road.segments[i] = _
      rw [kget]
      simp only [hget, filter_ne_contains]
    · rcases List.mem_cons.mp hk with rfl | hk
      · exact hkeep.withdrawn hself
      · have h := krest k hk
        rwa [hr.effective] at h

/-- Every listed truck revoked as a waiter: the queue without them (R141). -/
theorem revokeWaiters (i : Fin 16) (reason : RevokeReason) (l : List Id) (s : State) :
    ∃ m, (eachTruck (revokeWaiter i reason) l s).road.segments[i] = { s.road.segments[i] with
        queue := s.road.segments[i].queue.filter (fun w => !l.contains w.truck), marked := m } := by
  induction l generalizing s with
  | nil =>
    refine ⟨s.road.segments[i].marked, ?_⟩
    show s.road.segments[i] = _
    simp only [List.contains_nil, Bool.not_false, List.filter_true]
  | cons id rest ih =>
    obtain ⟨m, hm⟩ := ih (revokeWaiter i reason id s)
    refine ⟨m, ?_⟩
    show (eachTruck (revokeWaiter i reason) rest (revokeWaiter i reason id s)).road.segments[i] = _
    rw [hm]
    simp only [revokeWaiter_segment, filter_ne_contains]

theorem leaveOrders_road (i : Fin 16) (reason : RevokeReason) (l : List Id) (s : State) :
    (eachTruck (leaveOrder i reason) l s).road = s.road := by
  unfold eachTruck
  induction l generalizing s with
  | nil => rfl
  | cons id rest ih => exact (ih _).trans (announceRevoke_road i id reason 3 s)

/-- Dropping the trucks of a list that `p` names drops what `p` names. -/
theorem filter_not_contains {α : Type} (f : α → Id) (p : Id → Bool) (as : List α) :
    as.filter (fun a => !((as.map f).filter p).contains (f a)) = as.filter (fun a => !p (f a)) := by
  refine List.filter_congr fun a ha => ?_
  congr 1
  rw [Bool.eq_iff_iff, List.contains_iff_mem, List.mem_filter]
  exact ⟨fun h => h.2, fun h => ⟨List.mem_map.mpr ⟨a, ha, rfl⟩, h⟩⟩

/-! ## Gas -/

/-- The revocations for gas (R143, R144). -/
theorem revokeForGas_spec (i : Fin 16) (p : Id → Bool) (s : State) :
    let g := s.road.segments[i]
    let t := revokeForGas i p s
    AllRevoked i .gas ((g.holders.map (·.truck) ++ g.queue.map (·.truck) ++ g.granted ++ g.unauthorised).filter p) s t
      ∧ (∃ d m, t.road.segments[i] = { g with
          holders := g.holders.filter (fun x => !p x.truck), queue := g.queue.filter (fun w => !p w.truck),
          direction := d, marked := m })
      ∧ ∀ x ∈ g.holders, p x.truck = true → GrantWithdrawn x.truck s.effective.segments[i].id t := by
  dsimp only
  generalize hg : s.road.segments[i] = g
  have heq : revokeForGas i p s = eachTruck (leaveOrder i .gas) ((g.granted ++ g.unauthorised).filter p)
      (eachTruck (revokeWaiter i .gas) ((g.queue.map (·.truck)).filter p)
        (eachTruck (revokeHolder i .gas) ((g.holders.map (·.truck)).filter p) s)) := by
    rw [← hg]
    rfl
  rw [heq]
  have hall := eachTruck_revoked (revokeHolder_revoked i .gas · · |>.1) ((g.holders.map (·.truck)).filter p) s
  obtain ⟨⟨d, m, hget⟩, hwithdrawn⟩ := revokeHolders i .gas ((g.holders.map (·.truck)).filter p) s
  generalize eachTruck (revokeHolder i .gas) ((g.holders.map (·.truck)).filter p) s = u at hall hget hwithdrawn
  have kall := eachTruck_revoked (revokeWaiter_revoked i .gas) ((g.queue.map (·.truck)).filter p) u
  obtain ⟨m', kget⟩ := revokeWaiters i .gas ((g.queue.map (·.truck)).filter p) u
  generalize eachTruck (revokeWaiter i .gas) ((g.queue.map (·.truck)).filter p) u = v at kall kget
  have lall := eachTruck_revoked (leaveOrder_revoked i .gas) ((g.granted ++ g.unauthorised).filter p) v
  have lroad := leaveOrders_road i .gas ((g.granted ++ g.unauthorised).filter p) v
  generalize eachTruck (leaveOrder i .gas) ((g.granted ++ g.unauthorised).filter p) v = w at lall lroad
  refine ⟨?_, ⟨d, m', ?_⟩, fun x hx hp => lall.withdrawn (kall.withdrawn (hwithdrawn x.truck ?_))⟩
  · have h := (hall.trans kall).trans lall
    simpa only [List.filter_append, List.append_assoc] using h
  · simp only [lroad, kget, hget, hg, filter_not_contains]
  · exact List.mem_filter.mpr ⟨List.mem_map.mpr ⟨x, hx, rfl⟩, hp⟩

theorem sup_eq (a b : Grade) : Grade.sup a b = a ∨ Grade.sup a b = b := by
  unfold Grade.sup
  split
  · exact .inr rfl
  · exact .inl rfl

/-- The highest held grade of a list of channels that a mask holds (R132). -/
theorem foldl_sup_bounds (s : State) (gate : BitVec 24) (l : List (Fin 24)) (g0 : Grade) :
    let top := l.foldl (fun g c => if bitOf gate c.val then Grade.sup g (held s.channels[c]) else g) g0
    Grade.code g0 ≤ Grade.code top
      ∧ (∀ c ∈ l, bitOf gate c.val = true → Grade.code (held s.channels[c]) ≤ Grade.code top)
      ∧ (top = g0 ∨ ∃ c ∈ l, bitOf gate c.val = true ∧ held s.channels[c] = top) := by
  induction l generalizing g0 with
  | nil => exact ⟨Nat.le_refl _, nofun, .inl rfl⟩
  | cons c rest ih =>
    obtain ⟨hbase, hrest, hfrom⟩ := ih (if bitOf gate c.val then Grade.sup g0 (held s.channels[c]) else g0)
    rw [List.foldl_cons]
    generalize rest.foldl _ _ = top at hbase hrest hfrom
    cases hc : bitOf gate c.val with
    | false =>
      rw [hc, if_neg Bool.false_ne_true] at hbase hfrom
      refine ⟨hbase, fun d hd hg => ?_, hfrom.imp id fun ⟨d, hd, h⟩ => ⟨d, List.mem_cons_of_mem c hd, h⟩⟩
      rcases List.mem_cons.mp hd with rfl | hd
      · rw [hc] at hg
        cases hg
      · exact hrest d hd hg
    | true =>
      rw [hc, if_pos rfl] at hbase hfrom
      have hsup := code_sup g0 (held s.channels[c])
      refine ⟨by omega, fun d hd hg => ?_, ?_⟩
      · rcases List.mem_cons.mp hd with rfl | hd
        · omega
        · exact hrest d hd hg
      · rcases hfrom with h | ⟨d, hd, h⟩
        · rcases sup_eq g0 (held s.channels[c]) with hs | hs
          · exact .inl (h.trans hs)
          · exact .inr ⟨c, List.mem_cons_self, hc, (h.trans hs).symm⟩
        · exact .inr ⟨d, List.mem_cons_of_mem c hd, h⟩

theorem gatedGrade_bounds (s : State) (gate : BitVec 24) :
    (∀ c : Fin 24, bitOf gate c.val = true → Grade.code (held s.channels[c]) ≤ Grade.code (gatedGrade s gate))
      ∧ (gatedGrade s gate = .clear ∨ ∃ c : Fin 24, bitOf gate c.val = true ∧ held s.channels[c] = gatedGrade s gate) := by
  obtain ⟨-, hall, hfrom⟩ := foldl_sup_bounds s gate (List.finRange 24) .clear
  exact ⟨fun c hc => hall c (List.mem_finRange c) hc, hfrom.imp id fun ⟨c, _, h⟩ => ⟨c, h⟩⟩

/-- A segment given its gated grade. -/
def regated (i : Fin 16) (s : State) : State := changeSegment i (fun g => { g with gated := gatedGrade s s.effective.segments[i].gate }) s

theorem regateSegment_eq (i : Fin 16) (s : State) : regateSegment i s =
    if Grade.code s.road.segments[i].gated < Grade.code (gatedGrade s s.effective.segments[i].gate) then
      if gatedGrade s s.effective.segments[i].gate = .trip then revokeForGas i (fun _ => true) (regated i s)
      else if gatedGrade s s.effective.segments[i].gate = .alarm then
        markSegment i (revokeForGas i (isDiesel (regated i s)) (regated i s))
      else regated i s
    else if Grade.code (gatedGrade s s.effective.segments[i].gate) < Grade.code s.road.segments[i].gated then
      markSegment i (regated i s)
    else regated i s := rfl

theorem regated_segment (i : Fin 16) (s : State) : (regated i s).road.segments[i]
    = { s.road.segments[i] with gated := gatedGrade s s.effective.segments[i].gate } := changeSegment_get i _ s

/-- The trucks that a rise of the gated grade to `after` puts out of a segment (R143, R144). -/
def gasBars (s : State) (after : Grade) (id : Id) : Bool := decide (after = .trip) || isDiesel s id

/-- A segment after a rise of its gated grade to ALARM or TRIP (R143, R144). -/
theorem regateSegment_acts (hrise : Grade.code s.road.segments[i].gated < Grade.code (gatedGrade s s.effective.segments[i].gate))
    (halarm : 2 ≤ Grade.code (gatedGrade s s.effective.segments[i].gate)) :
    let g := s.road.segments[i]
    let after := gatedGrade s s.effective.segments[i].gate
    let t := regateSegment i s
    AllRevoked i .gas ((g.holders.map (·.truck) ++ g.queue.map (·.truck) ++ g.granted ++ g.unauthorised).filter (gasBars s after))
        (regated i s) t
      ∧ (∃ d m, t.road.segments[i] = { g with
          gated := after, holders := g.holders.filter (fun x => !gasBars s after x.truck),
          queue := g.queue.filter (fun w => !gasBars s after w.truck), direction := d, marked := m } ∧ (after = .alarm → m = true))
      ∧ ∀ x ∈ g.holders, gasBars s after x.truck = true → GrantWithdrawn x.truck s.effective.segments[i].id t := by
  have hbars : gasBars s (gatedGrade s s.effective.segments[i].gate) = (if gatedGrade s s.effective.segments[i].gate = .trip
      then fun _ => true else isDiesel (regated i s)) := by
    funext id
    unfold gasBars
    split
    · rename_i h
      rw [h]
      rfl
    · rename_i h
      rw [decide_eq_false h, Bool.false_or]
      rfl
  have hseg := regated_segment i s
  have heff : (regated i s).effective = s.effective := rfl
  have hdone := regateSegment_eq i s
  dsimp only
  rw [hbars]
  generalize gatedGrade s s.effective.segments[i].gate = after at *
  generalize regated i s = u at *
  rw [if_pos hrise] at hdone
  by_cases htrip : after = .trip
  · rw [if_pos htrip] at hdone ⊢
    obtain ⟨hall, ⟨d, m, hget⟩, hwithdrawn⟩ := revokeForGas_spec i (fun _ => true) u
    rw [← hdone] at hall hget hwithdrawn
    simp only [hseg, heff] at hall hget hwithdrawn
    exact ⟨hall, ⟨d, m, hget, fun h => by rw [htrip] at h; cases h⟩, fun x hx _ => hwithdrawn x hx trivial⟩
  · have hat : after = .alarm := by
      cases after with
      | trip => exact absurd rfl htrip
      | alarm => rfl
      | clear => exact absurd halarm (by decide)
      | notice => exact absurd halarm (by decide)
    rw [if_neg htrip, if_pos hat] at hdone
    rw [if_neg htrip]
    obtain ⟨hall, ⟨d, m, hget⟩, hwithdrawn⟩ := revokeForGas_spec i (isDiesel u) u
    obtain ⟨kat, kget⟩ := markSegment_road i (revokeForGas i (isDiesel u) u)
    have hring := markSegment_ring i (revokeForGas i (isDiesel u) u)
    have kmark : (markSegment i (revokeForGas i (isDiesel u) u)).effective = (revokeForGas i (isDiesel u) u).effective := rfl
    rw [← hdone] at kat kget hring kmark
    simp only [hseg, heff] at hall hget hwithdrawn
    refine ⟨⟨hall.road.trans kat, kmark.trans hall.effective, (revokesAsked_ring hring).trans hall.asked,
      fun w => (hall.withdrawn w).of_ring hring⟩, ⟨d, true, ?_, fun _ => rfl⟩, fun x hx hp => (hwithdrawn x hx hp).of_ring hring⟩
    rw [kget, hget]

/-- A segment whose gated grade does not rise to ALARM or TRIP keeps its lists (R143, R144). -/
theorem regateSegment_rests (hno : ¬(Grade.code s.road.segments[i].gated < Grade.code (gatedGrade s s.effective.segments[i].gate)
      ∧ 2 ≤ Grade.code (gatedGrade s s.effective.segments[i].gate))) :
    RoadAt i s (regateSegment i s)
      ∧ (regateSegment i s).road.segments[i] = { s.road.segments[i] with
          gated := gatedGrade s s.effective.segments[i].gate
          marked := s.road.segments[i].marked
            || decide (Grade.code (gatedGrade s s.effective.segments[i].gate) < Grade.code s.road.segments[i].gated) }
      ∧ (regateSegment i s).ring = s.ring := by
  have hat : RoadAt i s (regated i s) := changeSegment_roadAt i _ s
  have hseg := regated_segment i s
  have hring : (regated i s).ring = s.ring := rfl
  rw [regateSegment_eq]
  generalize gatedGrade s s.effective.segments[i].gate = after at *
  generalize regated i s = u at *
  by_cases hrise : Grade.code s.road.segments[i].gated < Grade.code after
  · rw [if_pos hrise]
    have hlow : ¬2 ≤ Grade.code after := fun h => hno ⟨hrise, h⟩
    have htrip : after ≠ .trip := fun h => hlow (by rw [h]; decide)
    have halarm : after ≠ .alarm := fun h => hlow (by rw [h]; decide)
    rw [if_neg htrip, if_neg halarm]
    have hnot : ¬Grade.code after < Grade.code s.road.segments[i].gated := by omega
    rw [decide_eq_false hnot, Bool.or_false]
    exact ⟨hat, hseg, hring⟩
  · rw [if_neg hrise]
    by_cases hfall : Grade.code after < Grade.code s.road.segments[i].gated
    · rw [if_pos hfall, decide_eq_true hfall, Bool.or_true, (markSegment_road i u).2]
      refine ⟨hat.trans (markSegment_road i u).1, ?_, hring⟩
      rw [hseg]
    · rw [if_neg hfall, decide_eq_false hfall, Bool.or_false]
      exact ⟨hat, hseg, hring⟩

theorem regateSegment_road (i : Fin 16) (s : State) : RoadAt i s (regateSegment i s)
    ∧ (regateSegment i s).road.segments[i].gated = gatedGrade s s.effective.segments[i].gate := by
  by_cases hacts : Grade.code s.road.segments[i].gated < Grade.code (gatedGrade s s.effective.segments[i].gate)
      ∧ 2 ≤ Grade.code (gatedGrade s s.effective.segments[i].gate)
  · obtain ⟨hall, ⟨d, m, hget, -⟩, -⟩ := regateSegment_acts hacts.1 hacts.2
    have hat : RoadAt i s (regated i s) := changeSegment_roadAt i _ s
    exact ⟨hat.trans hall.road, by rw [hget]⟩
  · obtain ⟨hat, hget, -⟩ := regateSegment_rests hacts
    exact ⟨hat, by rw [hget]⟩

/-- A segment gated again, in every case (R143, R144). -/
theorem regateSegment_cases (i : Fin 16) (s : State) :
    let g := s.road.segments[i]
    let set := s.effective.segments[i]
    let t := regateSegment i s
    let h := t.road.segments[i]
    let out := fun (id : Id) => decide (h.gated = .trip) || isDiesel s id
    let acts := Grade.code g.gated < Grade.code h.gated ∧ 2 ≤ Grade.code h.gated
    (∀ c : Fin 24, bitOf set.gate c.val = true → Grade.code (held s.channels[c]) ≤ Grade.code h.gated)
    ∧ (h.gated = .clear ∨ ∃ c : Fin 24, bitOf set.gate c.val = true ∧ held s.channels[c] = h.gated)
    ∧ h.granted = g.granted ∧ h.unauthorised = g.unauthorised
    ∧ (acts →
        h.holders = g.holders.filter (fun x => !out x.truck) ∧ h.queue = g.queue.filter (fun w => !out w.truck)
        ∧ t.ring.requests.filter PartFrame.isRevoke = s.ring.requests.filter PartFrame.isRevoke
            ++ ((g.holders.map (·.truck) ++ g.queue.map (·.truck) ++ g.granted ++ g.unauthorised).filter out).map
                (fun id => .revoke id set.id .gas)
        ∧ (∀ x ∈ g.holders, out x.truck = true → GrantWithdrawn x.truck set.id t)
        ∧ (h.gated = .alarm → h.marked = true))
    ∧ (¬acts → h = { g with gated := h.gated, marked := g.marked || decide (Grade.code h.gated < Grade.code g.gated) }
        ∧ t.ring.requests = s.ring.requests ∧ t.ring.list = s.ring.list ∧ t.ring.records = s.ring.records)
    ∧ (∀ k : Fin 16, k ≠ i → t.road.segments[k] = s.road.segments[k]) := by
  dsimp only
  obtain ⟨hat, hgated⟩ := regateSegment_road i s
  obtain ⟨hall, hfrom⟩ := gatedGrade_bounds s s.effective.segments[i].gate
  rw [hgated]
  refine ⟨hall, hfrom, ?_⟩
  by_cases hacts : Grade.code s.road.segments[i].gated < Grade.code (gatedGrade s s.effective.segments[i].gate)
      ∧ 2 ≤ Grade.code (gatedGrade s s.effective.segments[i].gate)
  · obtain ⟨hrevoked, ⟨d, m, hget, hmark⟩, hwithdrawn⟩ := regateSegment_acts hacts.1 hacts.2
    refine ⟨by rw [hget], by rw [hget], fun _ => ⟨by rw [hget]; rfl, by rw [hget]; rfl, hrevoked.asked, hwithdrawn, fun h => ?_⟩,
      fun h => absurd hacts h, fun k hk => hat.others hk⟩
    rw [hget]
    exact hmark h
  · obtain ⟨-, hget, hring⟩ := regateSegment_rests hacts
    exact ⟨by rw [hget], by rw [hget], fun h => absurd h hacts, fun _ => ⟨hget, by rw [hring], by rw [hring], by rw [hring]⟩,
      fun k hk => hat.others hk⟩

/-! ## A reading that brings its channel to TRIP -/

/-- A segment at TRIP without holders and waiters. -/
def gasCleared (g : Segment) : Prop := g.gated = .trip ∧ g.holders = [] ∧ g.queue = []

theorem gasCleared_law (l : Level) : SegmentLaw l gasCleared where
  left k h := by
    obtain ⟨hgated, hholders, hqueue⟩ := h
    exact ⟨k.gated.trans hgated, List.sublist_nil.mp (hholders ▸ k.holders), List.sublist_nil.mp (hqueue ▸ k.queue)⟩
  grant hq _ _ _ h := by
    rw [h.2.2] at hq
    cases hq

theorem gatedGrade_trip {gate : BitVec 24} {c : Fin 24} (hbit : bitOf gate c.val = true) (hheld : held s.channels[c] = .trip) :
    gatedGrade s gate = .trip := by
  have h := (gatedGrade_bounds s gate).1 c hbit
  rw [hheld] at h
  cases hg : gatedGrade s gate with
  | trip => rfl
  | clear | notice | alarm =>
    rw [hg] at h
    exact absurd h (by decide)

/-- A rise of the gated grade to TRIP empties the holders and the queue and leaves the occupants (R144). -/
theorem regateSegment_cleared {c : Fin 24} (hbit : bitOf s.effective.segments[i].gate c.val = true)
    (hheld : held s.channels[c] = .trip) (hbefore : s.road.segments[i].gated ≠ .trip) :
    gasCleared (regateSegment i s).road.segments[i]
      ∧ (regateSegment i s).road.segments[i].granted = s.road.segments[i].granted
      ∧ (regateSegment i s).road.segments[i].unauthorised = s.road.segments[i].unauthorised := by
  have htrip := gatedGrade_trip hbit hheld
  have hrise : Grade.code s.road.segments[i].gated < Grade.code Grade.trip := by
    cases hg : s.road.segments[i].gated with
    | trip => exact absurd hg hbefore
    | clear | notice | alarm => decide
  obtain ⟨-, ⟨d, m, hget, -⟩, -⟩ := regateSegment_acts (by rw [htrip]; exact hrise) (by rw [htrip]; decide)
  have hbars (id : Id) : gasBars s .trip id = true := Bool.true_or _
  rw [hget, htrip]
  have hnone {α : Type} (truck : α → Id) (as : List α) : as.filter (fun a => !gasBars s .trip (truck a)) = [] := by
    simp only [hbars, Bool.not_true, List.filter_false]
  exact ⟨⟨rfl, hnone Holder.truck _, hnone Waiter.truck _⟩, rfl, rfl⟩

/-- One turn of the segments' gating (R143, R144). -/
def regateTurn (channels : List (Fin 24)) (i : Fin 16) (s : State) : State :=
  if controlled s i && channels.any (fun c => bitOf s.effective.segments[i].gate c.val) then regateSegment i s else s

theorem regate_cleared {channels : List (Fin 24)} {c : Fin 24} (hc : c ∈ channels) (hcontrolled : controlled s i = true)
    (hbit : bitOf s.effective.segments[i].gate c.val = true) (hheld : held s.channels[c] = .trip)
    (hbefore : s.road.segments[i].gated ≠ .trip) :
    gasCleared (regate channels s).road.segments[i]
      ∧ (regate channels s).road.segments[i].granted = s.road.segments[i].granted
      ∧ (regate channels s).road.segments[i].unauthorised = s.road.segments[i].unauthorised := by
  have heq : regate channels s = forEach 16 (regateTurn channels) s := rfl
  rw [heq]
  refine forEach_road_of (P := fun u => u.channels = s.channels ∧ u.effective = s.effective)
    (R := fun j g h => j = i → g.gated ≠ .trip → gasCleared h ∧ h.granted = g.granted ∧ h.unauthorised = g.unauthorised)
    (fun j u => ?_) (fun j u hu => ?_) (fun j u hu hj hg => ?_) ⟨rfl, rfl⟩ i rfl hbefore
  · unfold regateTurn
    split
    · exact (regateSegment_road j u).1
    · exact .of_road rfl
  · unfold regateTurn
    split
    · have hsame := (regateSegment_within j u).1
      exact ⟨hsame.channels.trans hu.1, hsame.effective.trans hu.2⟩
    · exact hu
  · subst hj
    obtain ⟨hchannels, heff⟩ := hu
    have hany : (controlled u j && channels.any (fun c => bitOf u.effective.segments[j].gate c.val)) = true := by
      rw [controlled_congr heff, hcontrolled, Bool.true_and, List.any_eq_true]
      exact ⟨c, hc, by rw [heff]; exact hbit⟩
    rw [regateTurn, if_pos hany]
    exact regateSegment_cleared (by rw [heff]; exact hbit) (by rw [hchannels]; exact hheld) hg

/-- The state in which the channels' readers gate the segments (R19; log entry 9). -/
def gasTold (s0 s : State) : State := (gradesChanged s0 s).foldl alertChannel (reevaluate (channelTouched s0 s) s)

theorem gasTold_same (s0 s : State) : (gasTold s0 s).road = s.road ∧ (gasTold s0 s).channels = s.channels
    ∧ (gasTold s0 s).effective = s.effective := by
  have hw := (reevaluate_works (channelTouched s0 s) s).next (foldl_works (fun i u => alertChannel_works u i) (gradesChanged s0 s) _)
  have hs := (reevaluate_within (channelTouched s0 s) s).next
    (foldl_within (l := [.level]) (fun i u => alertChannel_within u i) (gradesChanged s0 s) _)
  exact ⟨hw.roads (by decide), hs.1.channels, hw.effective⟩

theorem airReaders_road (alarms : Bool) (s0 s : State) :
    (airReaders alarms s0 s).road = (regate (gradesChanged s0 s) (gasTold s0 s)).road := by
  cases alarms with
  | false => rfl
  | true =>
    refine (forEach_works (o := []) (fun c u => ?_) (regate (gradesChanged s0 s) (gasTold s0 s))).roads (by decide)
    split
    · exact deriveAlarm_works c u
    · exact .refl [] u

/-- The channels' readers at a rise of a channel to TRIP (R144). -/
theorem airReaders_cleared {s0 : State} {c : Fin 24} {alarms : Bool} (hcontrolled : controlled s i = true)
    (hbit : bitOf s.effective.segments[i].gate c.val = true) (hfrom : held s0.channels[c] ≠ .trip)
    (hheld : held s.channels[c] = .trip) (hbefore : s.road.segments[i].gated ≠ .trip) :
    gasCleared (airReaders alarms s0 s).road.segments[i]
      ∧ (airReaders alarms s0 s).road.segments[i].granted = s.road.segments[i].granted
      ∧ (airReaders alarms s0 s).road.segments[i].unauthorised = s.road.segments[i].unauthorised := by
  obtain ⟨hroad, hchannels, heff⟩ := gasTold_same s0 s
  have hchanged : c ∈ gradesChanged s0 s := by
    rw [gradesChanged, List.mem_filter]
    exact ⟨List.mem_finRange c, bne_iff_ne.mpr (by rw [hheld]; exact hfrom)⟩
  simp only [airReaders_road]
  have h := regate_cleared (s := gasTold s0 s) (i := i) hchanged (by rw [controlled_congr heff]; exact hcontrolled)
    (by rw [heff]; exact hbit) (by simp only [hchannels]; exact hheld) (by simp only [hroad]; exact hbefore)
  simp only [hroad] at h
  exact h

/-- A reading that brings its channel to TRIP clears the segments that the channel gates (R144). -/
theorem event_rawReading_cleared {n : Fin 16} {data : Word} {c : Fin 24} (hc : channelOf s (.localInput n) = some c)
    (hnew : s.channels[c].seq ≠ some (bits data 12 4)) (hcontrolled : controlled s i = true)
    (hbit : bitOf s.effective.segments[i].gate c.val = true) (hbefore : s.road.segments[i].gated ≠ .trip)
    (hfrom : held s.channels[c] ≠ .trip) (hheld : held (event (rawReading n data) s).channels[c] = .trip) :
    gasCleared (event (rawReading n data) s).road.segments[i]
      ∧ (event (rawReading n data) s).road.segments[i].granted = s.road.segments[i].granted
      ∧ (event (rawReading n data) s).road.segments[i].unauthorised = s.road.segments[i].unauthorised := by
  have acted := event_sameBut_acted (rawReading n data) s
  have hdup : readingVerdict (channelSet (beginEvent s) c) (beginEvent s).channels[c] (bits data 0 12) (bits data 12 4)
      (bitOf data 16) ≠ .duplicate := by
    rcases readingVerdict_cases (set := channelSet (beginEvent s) c) (r := bits data 0 12) hnew (bitOf data 16) with h | h | h | h <;>
      rw [show (beginEvent s).channels[c] = s.channels[c] from rfl, h] <;> decide
  have hread := rawReading_readers (s := beginEvent s) (w := data) hc rfl hdup
  generalize readingVerdict (channelSet (beginEvent s) c) (beginEvent s).channels[c] (bits data 0 12) (bits data 12 4)
    (bitOf data 16) = v at hread
  have harrived := arrival_works c (v == .taken) (takeReading (channelSet (beginEvent s) c) v (bits data 0 12) (bits data 12 4))
    (beginEvent s)
  generalize arrival c (v == .taken) (takeReading (channelSet (beginEvent s) c) v (bits data 0 12) (bits data 12 4))
    (beginEvent s) = a at hread harrived
  have hroad : a.road = s.road := harrived.roads (by decide)
  have heff : a.effective = s.effective := harrived.effective
  have hchannels : (event (rawReading n data) s).channels = a.channels := by
    rw [acted.channels, hread]
    exact (airReaders_within true (beginEvent s) a).1.channels
  have hcleared := airReaders_cleared (s0 := beginEvent s) (s := a) (i := i) (alarms := true) (by rw [controlled_congr heff]; exact hcontrolled)
    (by rw [heff]; exact hbit) hfrom (by simp only [← hchannels]; exact hheld) (by simp only [hroad]; exact hbefore)
  rw [← hread] at hcleared
  simp only [hroad] at hcleared
  obtain ⟨hempty, hgranted, hunauthorised⟩ := hcleared
  obtain ⟨-, -, hocc, -⟩ := acted.road
  exact ⟨event_keeps_segment (fun l => gasCleared_law l) hempty, (hocc i).1.trans hgranted, (hocc i).2.trans hunauthorised⟩

/-! ## The entry into EVACUATE -/

/-- No holder and no waiter runs INBYE. -/
def outbyeOnly (g : Segment) : Prop := (∀ x ∈ g.holders, x.dir = .outbye) ∧ ∀ w ∈ g.queue, w.dir = .outbye

theorem outbyeOnly_law : SegmentLaw .evacuate outbyeOnly where
  left k h := ⟨fun x hx => h.1 x (k.holders.subset hx), fun w hw => h.2 w (k.queue.subset hw)⟩
  grant {g w rest holder} hq hfree _ hdir h := by
    obtain ⟨hholders, hqueue⟩ := h
    rw [hq] at hqueue
    refine ⟨fun x hx => ?_, fun k hk => hqueue k (List.mem_cons_of_mem w hk)⟩
    rcases List.mem_append.mp hx with hx | hx
    · exact hholders x hx
    · rw [List.mem_singleton.mp hx, hdir]
      exact hqueue w List.mem_cons_self

/-- What is left of a list when the trucks of its INBYE entries have gone runs OUTBYE. -/
theorem outbye_of_filter {α : Type} (truck : α → Id) (dir : α → Heading) (as : List α) : ∀ a ∈ as.filter (fun a =>
    !((as.filter (fun b => dir b == .inbye)).map truck).contains (truck a)), dir a = .outbye := by
  intro a ha
  obtain ⟨hm, hnot⟩ := List.mem_filter.mp ha
  cases hd : dir a with
  | outbye => rfl
  | inbye =>
    have hin : ((as.filter (fun b => dir b == .inbye)).map truck).contains (truck a) = true := by
      rw [List.contains_iff_mem, List.mem_map]
      exact ⟨a, List.mem_filter.mpr ⟨hm, by rw [hd]; rfl⟩, rfl⟩
    rw [hin] at hnot
    cases hnot

theorem evacuateSegment_outbye (i : Fin 16) (s : State) : RoadAt i s (evacuateSegment i s)
    ∧ outbyeOnly (evacuateSegment i s).road.segments[i] := by
  unfold evacuateSegment
  dsimp only
  generalize hl : (s.road.segments[i].holders.filter (fun h => h.dir == .inbye)).map (·.truck) = l
  generalize hm : (s.road.segments[i].queue.filter (fun w => w.dir == .inbye)).map (·.truck) = m
  have hall := eachTruck_revoked (revokeHolder_revoked i .evacuation · · |>.1) l s
  obtain ⟨⟨d, k, hget⟩, -⟩ := revokeHolders i .evacuation l s
  generalize eachTruck (revokeHolder i .evacuation) l s = u at hall hget
  have kall := eachTruck_revoked (revokeWaiter_revoked i .evacuation) m u
  obtain ⟨k', kget⟩ := revokeWaiters i .evacuation m u
  generalize eachTruck (revokeWaiter i .evacuation) m u = v at kall kget
  refine ⟨(hall.road.trans kall.road).trans (markSegment_road i v).1, ?_⟩
  rw [(markSegment_road i v).2, kget, hget]
  subst hl hm
  exact ⟨outbye_of_filter Holder.truck Holder.dir _, outbye_of_filter Waiter.truck Waiter.dir _⟩

/-- One turn of the roads' evacuation (R145). -/
def evacuateTurn (i : Fin 16) (s : State) : State := if controlled s i then evacuateSegment i s else s

theorem evacuateRoads_outbye (hcontrolled : controlled s i = true) : outbyeOnly (evacuateRoads s).road.segments[i] := by
  have heq : evacuateRoads s = forEach 16 evacuateTurn s := rfl
  rw [heq]
  refine forEach_road_of (P := fun u => u.effective = s.effective) (R := fun j _ h => j = i → outbyeOnly h)
    (fun j u => ?_) (fun j u hu => ?_) (fun j u hu hj => ?_) rfl i rfl
  · unfold evacuateTurn
    split
    · exact (evacuateSegment_outbye j u).1
    · exact .of_road rfl
  · unfold evacuateTurn
    split
    · exact (evacuateSegment_works j u).effective.trans hu
    · exact hu
  · subst hj
    rw [evacuateTurn, if_pos (by rw [controlled_congr hu]; exact hcontrolled)]
    exact (evacuateSegment_outbye j u).2

/-- A cause is in force, and where the level is EVACUATE the segment runs OUTBYE alone. -/
structure EvacuatedAt (i : Fin 16) (s : State) : Prop where
  cause : s.level.cause.isSome = true
  controlled : controlled s i = true
  outbye : s.level.level = .evacuate → outbyeOnly s.road.segments[i]

theorem EvacuatedAt.same (h : EvacuatedAt i s) (hs : SameBut [] s t)
    (ho : t.level.level = .evacuate → outbyeOnly t.road.segments[i]) : EvacuatedAt i t :=
  ⟨by rw [hs.level.2.2.2.1 h.cause]; exact h.cause, (controlled_congr hs.effective i).trans h.controlled, ho⟩

theorem EvacuatedAt.deriveLevel (h : EvacuatedAt i s) (hlevel : (Machine.deriveLevel s).level.level = .evacuate) :
    outbyeOnly (Machine.deriveLevel s).road.segments[i] := by
  obtain ⟨c, hc⟩ := Option.isSome_iff_exists.mp h.cause
  have hof := levelOf_of_cause hc
  by_cases hsame : levelOf s.level = s.level.level
  · have hid : Machine.deriveLevel s = s := if_pos hsame
    rw [hid] at hlevel ⊢
    exact h.outbye hlevel
  · have hderived := deriveLevel_road hsame
    have heff : (leveled s.level.level .evacuate s).effective = s.effective := (leveled_sameBut _ _ s).effective
    have hout := evacuateRoads_outbye ((controlled_congr heff i).trans h.controlled)
    have hroad (u : State) : (tellReaders s.level.level .evacuate u).road = (evacuateRoads u).road := by
      rw [tellReaders, if_pos rfl]
    rw [hof, hroad] at hderived
    rw [hderived]
    exact hout

theorem EvacuatedAt.settleStep {s0 : State} (h : EvacuatedAt i s) (hstep : Machine.settleStep s0 s = some t) : EvacuatedAt i t := by
  refine h.same (settleStep_sameBut hstep) fun hlevel => ?_
  rcases settleStep_road hstep with rfl | ⟨k, rfl⟩ | ⟨p, -, rfl⟩ | ⟨hroad, hsame⟩
  · exact h.deriveLevel hlevel
  · have hl := ((serveSegment_works k s).level (by decide)).1.symm.trans hlevel
    exact outbyeOnly_law.serveSegment k hl (h.outbye hl)
  · have hl := ((forgetTruck_works p s).level (by decide)).1.symm.trans hlevel
    rw [forgetTruck_segments]
    exact h.outbye hl
  · rw [hroad]
    exact h.outbye (hsame.symm.trans hlevel)

theorem EvacuatedAt.event {f : State → State} (h : EvacuatedAt i (f (beginEvent s))) : EvacuatedAt i (Machine.event f s) :=
  event_keeps (fun _ _ _ hu hstep => hu.settleStep hstep)
    (fun u hu => hu.same (sweepPut_sameBut u) fun hl => by
      rw [sweepPut_road]
      exact hu.outbye (((sweepPut_works u).level (by decide)).1.symm.trans hl))
    (fun u hu => hu.same (driveLines_sameBut u) hu.outbye) h

end

/-- Settles O37: the direction and the gated grade by their cases, a rise to TRIP and the entry into EVACUATE by what every thing at
the end of an event keeps of the segment. -/
theorem segmentsFollowHeadingsGasAndLevel : Obligations.SegmentsFollowHeadingsGasAndLevel := by
  refine ⟨fun i s => ?_, fun i s => regateSegment_cases i s,
    fun addr data o c i s hrun hfull hregion hc hnew hcontrolled hbit hbefore hfrom => ?_,
    fun tag arg i s hrun hlow hhigh hcause hlevel hcontrolled => ?_⟩
  · obtain ⟨hfree, hin, hout, hconflict⟩ := directionOf_cases (segmentHeadings s s.road.segments[i])
    simp only [mem_segmentHeadings] at hfree hin hout hconflict
    have hdir : (rederive i s).road.segments[i].direction = directionOf (segmentHeadings s s.road.segments[i]) :=
      rederive_direction i s
    rw [← hdir] at hfree hin hout hconflict
    obtain ⟨hinto, hended, hsame, hothers⟩ := rederive_cases i s
    have hat := (rederive_road i s).1
    exact ⟨hfree, hin, hout, hconflict, hinto, hended, hsame, hothers, fun k hk => hat.others hk, hat.rest.1⟩
  · obtain ⟨d, hexec⟩ := exec_rawAirWrite_new hrun hfull hregion hc hnew
    refine ⟨_, hexec, fun hheld => ?_⟩
    obtain ⟨hempty, hgranted, hunauthorised⟩ := event_rawReading_cleared (s := reachMemory (fullAccess .sensor addr data) d s)
      hc hnew hcontrolled hbit hbefore hfrom hheld
    exact ⟨hempty.1, hempty.2.1, hempty.2.2, hgranted, hunauthorised⟩
  · have hexec : exec (.evacuate tag arg) s = .next (serveWrite s.strap (requestAccess s 4 tag arg) s) := rfl
    have hjudge := judge_evacuate tag (u := begun (requestWord 4 tag arg) s) hrun hlow hhigh s.strap
    rw [serveWrite_request, event_of_done hjudge] at hexec
    generalize requestWord 4 tag arg = w at hexec
    have hg := localCause_of_none (kind := .request) (reason := BitVec.ofNat 4 arg.toNat) (fault := 0) (s := begun w s) hcause
    have acted := (doneEvent_acted (s := s) (w := w) (g := localCause .request (BitVec.ofNat 4 arg.toNat) 0)).road
    obtain ⟨entered, -⟩ := doneEvent_entry (w := w) (g := localCause .request (BitVec.ofNat 4 arg.toNat) 0) hrun (by rw [hg]; exact hrun)
      (by rw [hg]) hlevel (by rw [hg]; rfl)
    have evacuated : EvacuatedAt i (doneEvent w (localCause .request (BitVec.ofNat 4 arg.toNat) 0) s) := by
      refine EvacuatedAt.event (f := doneAction w (localCause .request (BitVec.ofNat 4 arg.toNat) 0)) (s := requested w s) ?_
      have hdone : doneAction w (localCause .request (BitVec.ofNat 4 arg.toNat) 0) (beginEvent (requested w s))
          = withOutcome (some (outcomeWord w outDone 0)) (localCause .request (BitVec.ofNat 4 arg.toNat) 0 (begun w s)) := rfl
      rw [hdone, hg]
      exact ⟨rfl, hcontrolled, fun h => absurd h hlevel⟩
    obtain ⟨-, -, hocc, -⟩ := acted
    rw [hg] at hocc
    obtain ⟨hholders, hqueue⟩ := evacuated.outbye entered.level
    exact ⟨_, hexec, hholders, hqueue, hocc i⟩

end Sys2Proof.Machine
end

section
/-! PROOFS. The muster summary is not at rest after every event (R61): an event that takes as many frame requests as its end has room for,
and whose last request is a dropped frame that evacuates, ends before the summary follows the truck that its last thing forgets. -/

set_option Elab.async false

namespace Sys2Proof.Machine

open Sys2Proof.Config

/-! ## Requests that a waiting relay absorbs -/

/-- Units with nothing to do but the frame requests: a state as the end of an event finds it whose list holds a relay of the miner. -/
structure Asking (s0 s : State) (miner : Id) : Prop where
  run : s.run = true
  free : followUpFree s = false
  level : levelFirst s0 s = false
  marked : firstMarked s = none
  forgettable : firstForgettable s = none
  muster : musterStale s = false
  waiting : s.ring.list.any (PartFrame.relays miner) = true

section
variable {s0 s t : State} {miner : Id} {f : PartFrame} {rest : List PartFrame}

/-- The state with other requests and report words. -/
def withAsked (l : List PartFrame) (r : List Post) (s : State) : State :=
  { s with ring := { s.ring with requests := l }, path := { s.path with reports := r } }

theorem settleStep_asked (h : Asking s0 s miner) (hf : s.ring.requests = f :: rest) :
    settleStep s0 s = some (takeRequest f { s with ring := { s.ring with requests := rest } }) := by
  obtain ⟨hrun, hfree, hlevel, hmarked, hforgettable, hmuster, -⟩ := h
  simp only [settleStep, settleUnits, hfree, hrun, hlevel, hmarked, hforgettable, hmuster, hf, Bool.not_true, Bool.false_eq_true,
    if_false]

/-- A relay of a miner that the list already relays is absorbed (R92). -/
theorem takeRequest_absorbed {first : Time} {node : NodeId} (h : s.ring.list.any (PartFrame.relays miner) = true)
    (l : List PartFrame) (r : List Post) : takeRequest (.distressRelay miner first node) (withAsked l r s)
      = withAsked l (r ++ [.changed 0x170]) s := by
  have habsorb : replaceOrAbsorb (.distressRelay miner first node) s.ring.list = some s.ring.list := if_pos h
  have hlist : (withAsked l r s).ring.list = s.ring.list := rfl
  simp only [takeRequest, hlist, habsorb]
  rfl

theorem Asking.withAsked (h : Asking s0 s miner) (l : List PartFrame) (r : List Post) : Asking s0 (withAsked l r s) miner := by
  obtain ⟨hrun, hfree, hlevel, hmarked, hforgettable, hmuster, hwaiting⟩ := h
  exact ⟨hrun, hfree, hlevel, hmarked, hforgettable, hmuster, hwaiting⟩

theorem Asking.step (h : Asking s0 s miner) (f : PartFrame) (rest : List PartFrame) (r : List Post) :
    settleStep s0 (Machine.withAsked (f :: rest) r s) = some (takeRequest f (Machine.withAsked rest r s)) :=
  settleStep_asked (h.withAsked (f :: rest) r) rfl

/-- Absorbed requests take one thing each of the end of an event and leave a report word (R92, R129). -/
theorem settle_absorbed {call : Time} {node : NodeId} (h : Asking s0 s miner) (k n : Nat) (r : List Post) :
    ∃ r', settle (k + n) s0 (withAsked (List.replicate k (.distressRelay miner call node) ++ rest) r s)
      = settle n s0 (withAsked rest r' s) := by
  induction k generalizing r with
  | zero => exact ⟨r, by rw [Nat.zero_add]; rfl⟩
  | succ k ih =>
    obtain ⟨r', hr'⟩ := ih (r ++ [.changed 0x170])
    refine ⟨r', ?_⟩
    have hstep := h.step (.distressRelay miner call node) (List.replicate k (.distressRelay miner call node) ++ rest) r
    rw [takeRequest_absorbed h.waiting] at hstep
    rw [Nat.succ_add, List.replicate_succ, List.cons_append, settle_of_step hstep]
    exact hr'

end

/-! ## The last things of the event -/

/-- The truck that waits for the segment. -/
def lostTruck : Truck :=
  { id := 7, power := .diesel, heading := .inbye, lastSegment := 0, lastBeacon := 0, lost := some 0, stale := .expired, forget := .expired }

/-- One LOST truck, whose forget timer has expired, waits for segment 0 INBYE. -/
def lostRoad : RoadUnit :=
  { segments := (Vector.replicate 16 {}).set 0 { queue := [{ truck := 7, dir := .inbye }] }
    trucks := (Vector.replicate 32 none).set 0 (some lostTruck) }

/-- Segment 0 is controlled, and a dropped frame evacuates. -/
def lostSettings : Settings :=
  { segments := (Vector.replicate 16 {}).set 0 { id := 1, controlled := true }
    faults := (Vector.replicate 12 {}).set 11 { escalation := .evacuate } }

/-- The state in which the frame has been dropped: a cause is in force, and the level is to be derived. -/
structure Dropped (s : State) : Prop where
  run : s.run = true
  followUp : s.path.followUp = none
  effective : s.effective = lostSettings
  road : s.road = lostRoad
  cause : s.level.cause.isSome = true
  level : s.level.level = .normal

section
variable {s0 s t : State} {i : Fin 16}

theorem lostSettings_controlled (h : s.effective = lostSettings) (i : Fin 16) : controlled s i = decide (i = 0) := by
  rw [controlled, h]
  revert i
  decide

theorem evacuateRoads_other (h : controlled s i = false) : (evacuateRoads s).road.segments[i] = s.road.segments[i] := by
  have heq : evacuateRoads s = forEach 16 evacuateTurn s := rfl
  rw [heq]
  refine forEach_road_of (P := fun u => u.effective = s.effective) (R := fun j g h => j = i → h = g)
    (fun j u => ?_) (fun j u hu => ?_) (fun j u hu hj => ?_) rfl i rfl
  · unfold evacuateTurn
    split
    · exact (evacuateSegment_outbye j u).1
    · exact .of_road rfl
  · unfold evacuateTurn
    split
    · exact (evacuateSegment_works j u).effective.trans hu
    · exact hu
  · subst hj
    rw [evacuateTurn, controlled_congr hu, h, if_neg Bool.false_ne_true]

theorem evacuateRoads_marked (h : controlled s i = true) : (evacuateRoads s).road.segments[i].marked = true := by
  have heq : evacuateRoads s = forEach 16 evacuateTurn s := rfl
  rw [heq]
  refine forEach_road_of (P := fun u => u.effective = s.effective) (R := fun j _ h => j = i → h.marked = true)
    (fun j u => ?_) (fun j u hu => ?_) (fun j u hu hj => ?_) rfl i rfl
  · unfold evacuateTurn
    split
    · exact (evacuateSegment_outbye j u).1
    · exact .of_road rfl
  · unfold evacuateTurn
    split
    · exact (evacuateSegment_works j u).effective.trans hu
    · exact hu
  · subst hj
    rw [evacuateTurn, if_pos (by rw [controlled_congr hu]; exact h)]
    exact congrArg Segment.marked (changeSegment_get j _ _)

/-- The roads at an entry into EVACUATE (R145). -/
theorem deriveLevel_entry_road {c : Cause} (hc : s.level.cause = some c) (hl : s.level.level ≠ .evacuate) :
    ∃ u, u.road = s.road ∧ u.effective = s.effective ∧ (deriveLevel s).road = (evacuateRoads u).road := by
  have hof := levelOf_of_cause hc
  have hderived := deriveLevel_road (s := s) (by rw [hof]; exact Ne.symm hl)
  rw [hof] at hderived
  refine ⟨leveled s.level.level .evacuate s, leveled_road _ _ _, (leveled_sameBut _ _ s).effective, hderived.trans ?_⟩
  rw [tellReaders, if_pos rfl]

/-- The muster summary at an entry into EVACUATE counts the LOST trucks (R61). -/
theorem deriveLevel_entry_lost {c : Cause} (hc : s.level.cause = some c) (hl : s.level.level ≠ .evacuate) :
    (deriveLevel s).level.muster.lost = lostCount s := by
  have hof := levelOf_of_cause hc
  have htrucks : (levelHanded s.level.level (levelOf s.level) s).road.trucks = s.road.trucks := by
    rw [levelHanded_road, (tellReaders_left _ _ _).table.1, leveled_road]
  rw [deriveLevel_eq (by rw [hof]; exact Ne.symm hl), ((laterRecords_works _ _).level (by decide)).2, if_pos hof]
  show lostCount (levelHanded s.level.level (levelOf s.level) s) = _
  rw [lostCount, htrucks, lostCount]

theorem lostRoad_trucks {q : Fin 32} (h : q ≠ 0) : lostRoad.trucks[q] = none := by
  revert q
  decide

theorem lostRoad_unmarked (i : Fin 16) : lostRoad.segments[i].marked = false := by
  revert i
  decide

theorem lostRoad_lists {i : Fin 16} (h : i ≠ 0) : ({} : Segment).SameLists lostRoad.segments[i] := by
  have hget : lostRoad.segments[i] = {} := by
    revert i
    decide
  rw [hget]
  exact .refl _

/-- The segments and trucks once the level has been derived: nobody holds, occupies or waits. -/
structure Deserted (s : State) (marked : Bool) : Prop where
  run : s.run = true
  followUp : s.path.followUp = none
  cause : s.level.cause.isSome = true
  level : s.level.level = .evacuate
  lost : s.level.muster.lost = 1
  trucks : s.road.trucks = lostRoad.trucks
  lists : ∀ i : Fin 16, ({} : Segment).SameLists s.road.segments[i]
  marks : ∀ i : Fin 16, s.road.segments[i].marked = (marked && decide (i = 0))

theorem Dropped.derived (h : Dropped s) : Deserted (deriveLevel s) true := by
  obtain ⟨hrun, hfollow, heff, hroad, hcause, hlevel⟩ := h
  obtain ⟨c, hc⟩ := Option.isSome_iff_exists.mp hcause
  have hne : s.level.level ≠ .evacuate := by rw [hlevel]; decide
  have hof := levelOf_of_cause hc
  have entered := deriveLevel_entry hrun hc hne
  have hlost := deriveLevel_entry_lost hc hne
  obtain ⟨u, huroad, hueff, hderived⟩ := deriveLevel_entry_road hc hne
  have hleft := deriveLevel_left s
  have hwithin := deriveLevel_within s
  have hused := lostSettings_controlled (s := u) (hueff.trans heff)
  refine ⟨entered.run, hwithin.2.2.2.1.trans hfollow, by rw [entered.cause]; rfl, entered.level, ?_, by rw [hleft.table.1, hroad],
    fun i => ?_, fun i => ?_⟩
  · rw [hlost, lostCount, hroad]
    decide
  · by_cases hi : i = 0
    · subst hi
      obtain ⟨-, hgranted, hunauthorised, hholders, hqueue⟩ := hleft.segments 0
      have hout := (evacuateRoads_outbye (s := u) (i := 0) (by rw [hused]; rfl)).2
      rw [hroad] at hgranted hunauthorised hholders hqueue
      refine ⟨List.sublist_nil.mp hholders, hgranted, hunauthorised, ?_⟩
      rw [← hderived] at hout
      rcases List.sublist_singleton.mp hqueue with h | h
      · exact h
      · rw [h] at hout
        exact absurd (hout _ (List.mem_singleton_self _)) (by decide)
    · rw [hderived, evacuateRoads_other (by rw [hused, decide_eq_false hi]), huroad, hroad]
      exact lostRoad_lists hi
  · by_cases hi : i = 0
    · rw [hderived, evacuateRoads_marked (by rw [hused, decide_eq_true hi]), hi]
      rfl
    · rw [hderived, evacuateRoads_other (by rw [hused, decide_eq_false hi]), huroad, hroad, decide_eq_false hi]
      exact lostRoad_unmarked i

theorem evacuated_not_due (hcause : s.level.cause.isSome = true) (hlevel : s.level.level = .evacuate) : levelDue s = false := by
  obtain ⟨c, hc⟩ := Option.isSome_iff_exists.mp hcause
  rw [levelDue, levelOf_of_cause hc, hlevel]
  exact Bool.and_false _

/-- The marked queue of nobody served (R142). -/
theorem Deserted.served (h : Deserted s true) : settleStep s0 s = some (serveSegment 0 s) ∧ Deserted (serveSegment 0 s) false := by
  obtain ⟨hrun, hfollow, hcause, hlevel, hlost, htrucks, hlists, hmarks⟩ := h
  have hserve : serveSegment 0 s = changeSegment 0 (fun g => { g with marked := false }) s := by
    rw [serveSegment, (hlists 0).queue]
    rfl
  have hfirst : firstMarked s = some 0 := by
    cases hm : firstMarked s with
    | none =>
      have h0 := findIndex_none.mp hm 0
      rw [hmarks 0] at h0
      cases h0
    | some i =>
      have hi := (findIndex_some hm).1
      rw [hmarks i, Bool.true_and] at hi
      rw [of_decide_eq_true hi]
  have hfree : followUpFree s = false := by rw [followUpFree, hfollow]; rfl
  have hdue : levelFirst s0 s = false := by rw [levelFirst, evacuated_not_due hcause hlevel, Bool.false_and]
  refine ⟨?_, ?_⟩
  · simp only [settleStep, settleUnits, hfree, hrun, hdue, hfirst, Bool.not_true, Bool.false_eq_true, if_false]
  · rw [hserve]
    have hat := changeSegment_roadAt 0 (fun g => { g with marked := false }) s
    refine ⟨hrun, hfollow, hcause, hlevel, hlost, htrucks, fun i => ?_, fun i => ?_⟩
    · by_cases hi : i = 0
      · subst hi
        rw [changeSegment_get]
        obtain ⟨hholders, hgranted, hunauthorised, hqueue⟩ := hlists 0
        exact ⟨hholders, hgranted, hunauthorised, hqueue⟩
      · rw [hat.others hi]
        exact hlists i
    · by_cases hi : i = 0
      · subst hi
        rw [changeSegment_get]
        rfl
      · rw [hat.others hi, hmarks i, decide_eq_false hi]
        rfl

/-- The forgettable truck removed, behind the muster summary (R148; log entry 4). -/
theorem Deserted.forgot (h : Deserted s false) : settleStep s0 s = some (forgetTruck 0 s)
    ∧ (forgetTruck 0 s).run = true ∧ (forgetTruck 0 s).level.cause.isSome = true ∧ (forgetTruck 0 s).level.level = .evacuate
    ∧ (forgetTruck 0 s).level.muster.lost = 1 ∧ lostCount (forgetTruck 0 s) = 0 := by
  obtain ⟨hrun, hfollow, hcause, hlevel, hlost, htrucks, hlists, hmarks⟩ := h
  have hmarked : firstMarked s = none := findIndex_none.mpr fun i => by rw [hmarks i]; rfl
  have hplaceless : placeless s 7 = true := by
    rw [placeless, List.all_eq_true]
    intro g hg
    obtain ⟨n, hn, rfl⟩ := List.getElem_of_mem hg
    have hlist := hlists ⟨n, by simpa using hn⟩
    have hholds := hlist.holds 7
    have hwaits := hlist.waits 7
    have hocc := hlist.occupies 7
    simp only [Fin.getElem_fin] at hholds hwaits hocc
    simp only [Vector.getElem_toList, hholds, hwaits, hocc]
    rfl
  have hforget : firstForgettable s = some 0 := by
    have hat (q : Fin 32) : forgettable s q = decide (q = 0) := by
      rw [forgettable, htrucks]
      by_cases hq : q = 0
      · subst hq
        show (_ && placeless s 7) = _
        rw [hplaceless]
        rfl
      · rw [lostRoad_trucks hq, decide_eq_false hq]
    cases hf : firstForgettable s with
    | none =>
      have h0 := firstForgettable_none.mp hf 0
      rw [hat] at h0
      cases h0
    | some q =>
      have hq := firstForgettable_some hf
      rw [hat] at hq
      rw [of_decide_eq_true hq]
  have hfree : followUpFree s = false := by rw [followUpFree, hfollow]; rfl
  have htruck : s.road.trucks[(0 : Fin 32)] = some lostTruck := by rw [htrucks]; rfl
  have hw := forgetTruck_works 0 s
  refine ⟨settleStep_forget hrun hfree (evacuated_not_due hcause hlevel) hmarked hforget, hw.run.trans hrun,
    by rw [(hw.cause (by decide)).1]; exact hcause, (hw.level (by decide)).1.trans hlevel, by rw [(hw.level (by decide)).2]; exact hlost, ?_⟩
  rw [lostCount, (forgetTruck_trucks htruck).1, htrucks]
  decide

/-- Behind the drop, three things more: the level, the queue, and the truck forgotten. -/
theorem Dropped.ends (h : Dropped s) (hbegan : s0.level.level = .normal) : ∃ t, settle 3 s0 s = t ∧ t.run = true
    ∧ t.level.cause.isSome = true ∧ t.level.level = .evacuate ∧ t.level.muster.lost = 1 ∧ lostCount t = 0 := by
  obtain ⟨c, hc⟩ := Option.isSome_iff_exists.mp h.cause
  have hdue : levelFirst s0 s = true := by
    rw [levelFirst, levelDue, levelOf_of_cause hc, h.run, h.level, hbegan]
    rfl
  have hfree : followUpFree s = false := by rw [followUpFree, h.followUp]; rfl
  obtain ⟨hserve, hserved⟩ := h.derived.served (s0 := s0)
  obtain ⟨hforget, hend⟩ := hserved.forgot (s0 := s0)
  refine ⟨_, ?_, hend⟩
  rw [settle_of_step (settleStep_derive h.run hfree hdue), settle_of_step hserve, settle_of_step hforget]
  rfl

/-! ## The whole event -/

/-- A relay of miner 1, and one of miner 2. -/
def relayOne : PartFrame := .distressRelay 1 0 0
def relayTwo : PartFrame := .distressRelay 2 0 0

/-- The entry of a miner in the distress list. -/
def entryOf (miner : Id) : Distress := { miner := miner, node := 0, first := 0, last := 0, call := none }

/-- A full send list of relays of miner 1, `k` entries of that miner in the distress list and one of miner 2, and the repeat timer
due. -/
def crowded (k : Nat) : State :=
  { run := true, effective := lostSettings, road := lostRoad,
    level := { repeatTimer := { period := some 1, due := true } },
    ring := { list := List.replicate 8 relayOne },
    call := { distress := List.replicate k (entryOf 1) ++ [entryOf 2] } }

/-- A request that finds the list full of its own urgency is dropped (R93). -/
theorem takeRequest_dropped (hlist : s.ring.list = List.replicate 8 relayOne) : takeRequest relayTwo s = dropFrame relayTwo false s := by
  have hnone : replaceOrAbsorb relayTwo (List.replicate 8 relayOne) = none := by decide
  have hroom : ¬(List.replicate 8 relayOne).length < sendListSize := by decide
  have hleast : leastUrgent (List.replicate 8 relayOne) = 2 := by decide
  have hnewest : (List.replicate 8 relayOne).reverse.find? (fun g => PartFrame.urgency g == 2) = some relayOne := by decide
  have hurgency : ¬PartFrame.urgency relayTwo < 2 := by decide
  simp only [takeRequest, hlist, hnone, if_neg hroom, hleast, hnewest, if_neg hurgency]

theorem lostSettings_escalation (h : s.effective = lostSettings) : escalation s .frameDropped = .evacuate := by
  rw [escalation, h]
  decide

/-- The drop of the last request evacuates (R93, R172). -/
theorem dropFrame_dropped (hrun : s.run = true) (hfollow : s.path.followUp = none) (heff : s.effective = lostSettings)
    (hroad : s.road = lostRoad) (hcause : s.level.cause = none) (hlevel : s.level.level = .normal) (f : PartFrame) :
    Dropped (dropFrame f false s) := by
  have hw := dropFrame_works f false s
  have hwithin := dropFrame_within f false s
  refine ⟨hw.run.trans hrun, hwithin.2.2.2.1.trans hfollow, hw.effective.trans heff, (hw.roads (by decide)).trans hroad, ?_,
    (hw.level (by decide)).1.trans hlevel⟩
  have hcounted (d : FaultId) : (recordFault .frameDropped d s).level.cause.isSome = true := by
    have hesc : escalation (countFault .frameDropped d s) .frameDropped = .evacuate := lostSettings_escalation heff
    have hnone : (countFault .frameDropped d s).level.cause = none := hcause
    simp only [recordFault, hrun, Bool.not_true, Bool.false_eq_true, if_false, hesc]
    rw [postFault, postChanged_level, localCause_of_none hnone]
    rfl
  unfold dropFrame
  dsimp only
  rw [addRecord_level]
  exact hcounted _

theorem repeatRelays_list (s : State) : (repeatRelays s).ring.list = s.ring.list :=
  foldl_keeps (f := fun t (d : Distress) => requestRelay d.miner d.first d.node t) (fun v => v.ring.list = s.ring.list)
    (fun _ _ h => h) s.call.distress s rfl

theorem crowded_level (k : Nat) : (beginEvent (crowded k)).level.level = .normal := rfl

/-- The state in which the relays have been asked for. -/
theorem crowded_asked (k : Nat) :
    (repeatExpiry (beginEvent (crowded k))).ring.requests = List.replicate k relayOne ++ [relayTwo]
      ∧ (repeatExpiry (beginEvent (crowded k))).ring.list = List.replicate 8 relayOne := by
  refine ⟨?_, ?_⟩
  · rw [repeatExpiry_requests, evacuateRequests_below (by rw [crowded_level]; decide)]
    show [] ++ [] ++ (List.replicate k (entryOf 1) ++ [entryOf 2]).map _ = _
    rw [List.map_append, List.map_replicate]
    rfl
  · rw [repeatExpiry_eq, if_neg (by rw [crowded_level]; decide), repeatRelays_list]
    rfl

theorem firstMarked_congr (h : t.road = s.road) : firstMarked t = firstMarked s := by rw [firstMarked, h, firstMarked]

theorem firstForgettable_congr (h : t.road = s.road) : firstForgettable t = firstForgettable s := by
  have hplace (id : Id) : placeless t id = placeless s id := placeless_congr (by rw [h]) id
  simp only [firstForgettable, h, hplace]

theorem crowded_asking (k : Nat) : Asking (beginEvent (crowded k)) (repeatExpiry (beginEvent (crowded k))) 1 := by
  have hw := repeatExpiry_works (beginEvent (crowded k))
  have hwithin := repeatExpiry_within (beginEvent (crowded k))
  have hlevel := repeatExpiry_level (beginEvent (crowded k))
  obtain ⟨-, hlist⟩ := crowded_asked k
  have hroad : (repeatExpiry (beginEvent (crowded k))).road = lostRoad := hw.roads (by decide)
  have hfollow : (repeatExpiry (beginEvent (crowded k))).path.followUp = none := hwithin.2.2.2.1
  generalize repeatExpiry (beginEvent (crowded k)) = u at *
  refine ⟨hw.run, by rw [followUpFree, hfollow]; rfl, ?_, ?_, ?_, ?_, by rw [hlist]; decide⟩
  · rw [levelFirst, levelDue, hlevel]
    exact (congrArg (· && _) (Bool.and_false _)).trans (Bool.false_and _)
  · rw [firstMarked_congr (s := { road := lostRoad }) hroad]
    decide
  · rw [firstForgettable_congr (s := { road := lostRoad }) hroad]
    decide
  · rw [musterStale, hlevel]
    rfl

theorem withAsked_self (s : State) : withAsked s.ring.requests s.path.reports s = s := rfl

/-- The event ends with the truck forgotten and still counted. -/
theorem crowded_ends (k : Nat) : ∃ t, settle (k + 4) (beginEvent (crowded k)) (repeatExpiry (beginEvent (crowded k))) = t
    ∧ t.run = true ∧ t.level.cause.isSome = true ∧ t.level.level = .evacuate ∧ t.level.muster.lost = 1 ∧ lostCount t = 0 := by
  have hasking := crowded_asking k
  obtain ⟨hrequests, hlist⟩ := crowded_asked k
  have hw := repeatExpiry_works (beginEvent (crowded k))
  have hwithin := repeatExpiry_within (beginEvent (crowded k))
  have hlevel := repeatExpiry_level (beginEvent (crowded k))
  have hroad : (repeatExpiry (beginEvent (crowded k))).road = lostRoad := hw.roads (by decide)
  have heff : (repeatExpiry (beginEvent (crowded k))).effective = lostSettings := hw.effective
  have hfollow : (repeatExpiry (beginEvent (crowded k))).path.followUp = none := hwithin.2.2.2.1
  have hrun : (repeatExpiry (beginEvent (crowded k))).run = true := hw.run
  generalize repeatExpiry (beginEvent (crowded k)) = u at *
  obtain ⟨r, hr⟩ := settle_absorbed (rest := [relayTwo]) (call := 0) (node := 0) hasking k 4 u.path.reports
  have hself : withAsked (List.replicate k (.distressRelay 1 0 0) ++ [relayTwo]) u.path.reports u = u := by
    have h := withAsked_self u
    rwa [hrequests] at h
  rw [hself] at hr
  rw [hr, settle_of_step (hasking.step relayTwo [] r), takeRequest_dropped (s := withAsked [] r u) hlist]
  have hcause : (withAsked [] r u).level.cause = none := (congrArg LevelUnit.cause hlevel).trans rfl
  have hnormal : (withAsked [] r u).level.level = .normal := (congrArg LevelUnit.level hlevel).trans rfl
  exact (dropFrame_dropped (s := withAsked [] r u) hrun hfollow heff hroad hcause hnormal relayTwo).ends rfl

theorem crowded_step (k : Nat) :
    step { crowded k with pending := [.repeatTimerExpiry] } = .next (event repeatExpiry (crowded k)) := by
  have hexec : step { crowded k with pending := [.repeatTimerExpiry] }
      = .next (expiryEvent (crowded k).level.repeatTimer.due repeatExpiry (crowded k)) := rfl
  exact hexec.trans (congrArg Host.Outcome.next (expiryEvent_due rfl rfl))

/-- With as many entries as the end of the event has room for, the muster summary does not follow. -/
theorem crowded_lags {k : Nat} (hk : settleBound = k + 4) :
    ¬∀ s t : State, LevelFollows s → MusterFollows s → step s = .next t → MusterFollows t := by
  intro hmuster
  obtain ⟨t, ht, hrun, hcause, hlevel, hlost, hcount⟩ := crowded_ends k
  have hr : (beginEvent (crowded k)).run = true := rfl
  have hbase : eventBase (beginEvent (crowded k)) (repeatExpiry (beginEvent (crowded k))) = beginEvent (crowded k) := by
    rw [eventBase, hr]
    simp
  have hevent : event repeatExpiry (crowded k) = driveLines t := by
    rw [event_eq, hbase, hk, ht, hr, if_neg (by simp), levelEvents_of_not_due 2 (evacuated_not_due hcause hlevel)]
  have hlevels : LevelFollows { crowded k with pending := [.repeatTimerExpiry] } :=
    ⟨fun h => (nomatch (show false = true from h)), fun _ => rfl⟩
  have hmusters : MusterFollows { crowded k with pending := [.repeatTimerExpiry] } :=
    ⟨rfl, fun h => (nomatch (show Level.normal = .evacuate from h))⟩
  have hshows := (hmuster _ _ hlevels hmusters (crowded_step k)).2
  rw [hevent] at hshows
  obtain ⟨-, -, hfigure⟩ := hshows hlevel
  have hfigure : t.level.muster.lost = lostCount t := hfigure
  rw [hlost, hcount] at hfigure
  cases hfigure

end

/-- Refutes O53: an event whose requests take all the things that its end has room for leaves in EVACUATE a muster summary that counts a
truck which the event's last thing has forgotten. -/
theorem not_linesFollowTheirFunctions : ¬ Obligations.LinesFollowTheirFunctions := by
  intro h
  obtain ⟨-, -, hmuster, -⟩ := h
  have hbound : settleBound = 19996 + 4 := rfl
  exact crowded_lags hbound hmuster

end Sys2Proof.Machine
end

section
/-! PROOFS. What the end of an event leaves of a slot's shadow: a drain notice and the building of a frame are all that changes one, and
both pass by a slot that `SlotStays` names (R90, R95). On it rest the controller's descriptor writes (R88, R89) and the partial writes. -/

set_option Elab.async false

namespace Sys2Proof.Machine

open Sys2Proof.Config

section
variable {m : List Host.Cell} {n : Fin 64} {h : Shadow} {s t : State}

/-! ## A slot that stays -/

/-- A drain notice of the slot is on its way: its entry is queued, or is still to enter. -/
def Noticed (k : Fin 16) (s : State) : Prop :=
  (∃ w ∈ s.path.queue, w.notice = some k) ∨ ∃ w, (Post.write w ∈ s.path.posts ∨ Post.write w ∈ s.path.reports) ∧ w.notice = some k

/-- Slot `n` has the shadow `h`, which no drain notice on its way changes, and which admits no frame. -/
structure SlotKept (n : Fin 64) (h : Shadow) (s : State) : Prop where
  shadow : s.ring.shadows[n] = h
  closed : ringStart s 1 ≤ n.val ∨ h.state ≠ .empty
  spared : ∀ k, Noticed k s → k.val = n.val → h.state = .unknown

/-- The notice of a new own-write does not change slot `n`. -/
def Spares (n : Fin 64) (h : Shadow) (w : OwnWrite) : Prop := ∀ k, w.notice = some k → k.val = n.val → h.state = .unknown

theorem Spares.of_no_notice {w : OwnWrite} (hw : w.notice = none) : Spares n h w := fun k hk => by
  rw [hw] at hk
  cases hk

/-- A slot that stays, in the state in which an event begins. -/
theorem slotKept_beginEvent (hq : QueueKept s) (hs : SlotStays s n) : SlotKept n s.ring.shadows[n] (beginEvent s) := by
  have told {k : Fin 16} (hk : Noticed k (beginEvent s)) : ∃ w ∈ s.path.queue, w.notice = some k :=
    hk.resolve_right fun ⟨w, hw, _⟩ => hw.elim (fun hw => by cases hw) fun hw => by cases hw
  refine ⟨rfl, hs.imp_right fun h => ?_, fun k hk hkn => ?_⟩
  · rcases h with h | ⟨h, -⟩
    · rw [h]
      decide
    · exact h
  · obtain ⟨w, hw, hnotice⟩ := told hk
    rcases hs with hout | hunknown | ⟨-, hnone⟩
    · have := (hq.2.2.2.1 w hw k hnotice).2
      omega
    · exact hunknown
    · exact absurd hkn (hnone w hw k hnotice)

/-! ## What leaves it -/

theorem SlotKept.of_same (hs : SlotKept n h s) (heff : t.effective = s.effective) (hshadow : t.ring.shadows[n] = s.ring.shadows[n])
    (htold : ∀ k, Noticed k t → Noticed k s) : SlotKept n h t where
  shadow := hshadow.trans hs.shadow
  closed := by simpa only [ringStart, heff] using hs.closed
  spared k hk := hs.spared k (htold k hk)

/-- A unit's work that names no own-write with a notice. -/
theorem Works.noticed {o : List Opening} (hw : Works o s t) (hqueue : t.path.queue = s.path.queue) (hn : .words ∉ o) (k : Fin 16)
    (hk : Noticed k t) : Noticed k s := by
  rcases hk with ⟨w, hq, hnotice⟩ | ⟨w, hp, hnotice⟩
  · exact .inl ⟨w, hqueue ▸ hq, hnotice⟩
  · refine .inr ⟨w, ?_, hnotice⟩
    have plain (hr : RecordOrReport s (.write w)) : False := by
      obtain ⟨hnone, -⟩ := hr
      rw [hnone] at hnotice
      cases hnotice
    exact hp.imp (fun hp => (hw.posts hn _ hp).resolve_right plain) fun hp => (hw.reports hn _ hp).resolve_right plain

theorem SlotKept.works {l : List Area} {o : List Opening} (hs : SlotKept n h s) (hb : Within l s t) (hw : Works o s t)
    (hn : .words ∉ o := by decide) : SlotKept n h t :=
  hs.of_same hw.effective (by rw [hb.2.2.2.2.2.2.2.1]) (hw.noticed hb.2.2.1 hn)

/-- A report word is no own-write. -/
theorem noticed_reportChanged {l : List Nat} {k : Fin 16} (hk : Noticed k (reportChanged l s)) : Noticed k s :=
  hk.imp_right fun ⟨w, hw, hnotice⟩ => ⟨w, hw.imp_right fun hw => (List.mem_append.mp hw).resolve_right (by simp), hnotice⟩

theorem SlotKept.reportChanged {l : List Nat} (hs : SlotKept n h s) : SlotKept n h (reportChanged l s) :=
  hs.of_same rfl rfl fun _ hk => noticed_reportChanged hk

/-- Own-writes that do not change slot `n` are handed on. -/
theorem SlotKept.handOn {l : List Post} (hs : SlotKept n h s) (hl : ∀ w, Post.write w ∈ l → Spares n h w) :
    SlotKept n h { s with path := { s.path with posts := s.path.posts ++ l } } where
  shadow := hs.shadow
  closed := hs.closed
  spared k hk hkn := by
    rcases hk with hk | ⟨w, hw | hw, hnotice⟩
    · exact hs.spared k (.inl hk) hkn
    · rcases List.mem_append.mp hw with hw | hw
      · exact hs.spared k (.inr ⟨w, .inl hw, hnotice⟩) hkn
      · exact hl w hw k hnotice hkn
    · exact hs.spared k (.inr ⟨w, .inr hw, hnotice⟩) hkn

/-- The shadow of another slot is changed. -/
theorem SlotKept.changeShadow_other {i : Fin 64} {f : Shadow → Shadow} (hs : SlotKept n h s) (hne : n ≠ i) :
    SlotKept n h (changeShadow i f s) := hs.of_same rfl (modifyAt_other _ _ hne) fun _ hk => noticed_reportChanged hk

theorem SlotKept.drainNotice {i : Fin 16} (hs : SlotKept n h s) (hi : i.val = n.val → h.state = .unknown) :
    SlotKept n h (drainNotice i s) := by
  unfold Machine.drainNotice
  dsimp only
  split
  · exact hs
  · rename_i hstate
    have hne : n ≠ Fin.ofNat 64 i.val := fun he => by
      have hv : i.val = n.val := by
        rw [he]
        exact (Nat.mod_eq_of_lt (by omega)).symm
      refine hstate ?_
      simp only [← he, hs.shadow]
      exact hi hv
    exact (hs.changeShadow_other hne).of_same rfl rfl fun _ hk => noticed_reportChanged hk

theorem SlotKept.drainOldest (hs : SlotKept n h s) : SlotKept n h (drainOldest s) := by
  match hq : s.path.queue with
  | [] => rwa [drainOldest_nil hq]
  | w :: rest =>
    have written : SlotKept n h (writtenOut w rest s) := hs.of_same rfl rfl fun k hk => by
      rcases hk with ⟨v, hv, hnotice⟩ | hk
      · exact .inl ⟨v, hq ▸ List.mem_cons_of_mem _ hv, hnotice⟩
      · exact .inr hk
    match hn : w.notice with
    | some i =>
      rw [drainOldest_notice hq hn]
      exact written.drainNotice (hs.spared i (.inl ⟨w, hq ▸ List.mem_cons_self, hn⟩))
    | none =>
      rw [drainOldest_plain hq hn]
      exact written

/-! ## Entering -/

theorem SlotKept.appendEntry {w : OwnWrite} (hs : SlotKept n h s) (hw : Spares n h w) : SlotKept n h (appendEntry w s) where
  shadow := hs.shadow
  closed := hs.closed
  spared k hk := by
    rcases hk with ⟨v, hv, hnotice⟩ | hk
    · rcases List.mem_append.mp hv with hv | hv
      · exact hs.spared k (.inl ⟨v, hv, hnotice⟩)
      · exact hw k (List.mem_singleton.mp hv ▸ hnotice)
    · exact hs.spared k (.inr hk)

theorem SlotKept.recordFault {k : FaultKind} {d : FaultId} (hs : SlotKept n h s) : SlotKept n h (recordFault k d s) :=
  hs.works (recordFault_within _ _ _) (recordFault_works _ _ _)

theorem SlotKept.enterNew {w : OwnWrite} (hs : SlotKept n h s) (hw : Spares n h w) : SlotKept n h (enterNew w s) := by
  unfold Machine.enterNew
  split
  · exact hs.appendEntry hw
  · have stalled : SlotKept n h (stallEnter w s) := (hs.drainOldest.appendEntry hw).of_same rfl rfl fun _ hk => hk
    exact stalled.recordFault

theorem SlotKept.enterQueue {w : OwnWrite} (hs : SlotKept n h s) (hw : Spares n h w) : SlotKept n h (enterQueue w s) := by
  have coalesced : SlotKept n h { s with path := { s.path with queue := coalesce s.path.queue w } } :=
    hs.of_same rfl rfl fun k hk => by
      rcases hk with ⟨v, hv, hnotice⟩ | hk
      · obtain ⟨e, he, rfl⟩ := List.mem_map.mp hv
        refine .inl ⟨e, he, ?_⟩
        split at hnotice
        · exact hnotice
        · exact hnotice
      · exact .inr hk
  unfold Machine.enterQueue
  split
  · split
    · exact hs.of_same rfl rfl fun _ hk => hk
    · exact coalesced
    · exact coalesced
  · exact hs.enterNew hw

theorem SlotKept.enterMirror {o : Nat} (hs : SlotKept n h s) : SlotKept n h (enterMirror o s) := by
  have told : SlotKept n h { s with path := { s.path with shown := (o, mirror s o) :: s.path.shown } } :=
    hs.of_same rfl rfl fun _ hk => hk
  exact told.enterQueue (.of_no_notice rfl)

theorem SlotKept.enterPost {s0 : State} {p : Post} (hs : SlotKept n h s) (hp : ∀ w, p = .write w → Spares n h w) :
    SlotKept n h (enterPost s0 p s) := by
  unfold Machine.enterPost
  split
  · exact hs.enterQueue (hp _ rfl)
  · split
    · exact hs
    · exact hs.enterMirror
  · split
    · exact hs.enterMirror
    · exact hs

theorem SlotKept.enterFollowUp (hs : SlotKept n h s) : SlotKept n h (enterFollowUp s) := by
  unfold Machine.enterFollowUp
  split
  · have dropped : SlotKept n h { s with path := { s.path with followUp := none } } := hs.of_same rfl rfl fun _ hk => hk
    exact dropped.enterNew (.of_no_notice rfl)
  · exact hs

theorem SlotKept.settlePath {s0 : State} (hs : SlotKept n h s) (ht : settlePath s0 s = some t) : SlotKept n h t := by
  rcases settlePath_cases ht with ⟨p, rest, hp, rfl⟩ | ⟨p, rest, -, hr, rfl⟩ | ⟨w, -, -, -, rfl⟩ | ⟨-, -, -, -, rfl⟩
  · have dropped : SlotKept n h { s with path := { s.path with posts := rest } } := hs.of_same rfl rfl fun k hk => by
      rcases hk with hk | ⟨w, hw, hnotice⟩
      · exact .inl hk
      · exact .inr ⟨w, hw.imp_left fun hw => hp ▸ List.mem_cons_of_mem _ hw, hnotice⟩
    refine dropped.enterPost fun w hw k hk => hs.spared k (.inr ⟨w, .inl ?_, hk⟩)
    rw [hp, hw]
    exact List.mem_cons_self
  · have dropped : SlotKept n h { s with path := { s.path with reports := rest } } := hs.of_same rfl rfl fun k hk => by
      rcases hk with hk | ⟨w, hw, hnotice⟩
      · exact .inl hk
      · exact .inr ⟨w, hw.imp_right fun hw => hr ▸ List.mem_cons_of_mem _ hw, hnotice⟩
    refine dropped.enterPost fun w hw k hk => hs.spared k (.inr ⟨w, .inr ?_, hk⟩)
    rw [hr, hw]
    exact List.mem_cons_self
  · have dropped : SlotKept n h { s with path := { s.path with outcome := none } } := hs.of_same rfl rfl fun _ hk => hk
    exact dropped.enterQueue (.of_no_notice rfl)
  · exact hs.of_same rfl rfl fun _ hk => hk

/-! ## The units' work and the end of an event -/

/-- The own-writes of a built frame name no slot but the one at the fill index. -/
theorem frameWrites_notice {i k : Fin 16} {f : PartFrame} {seq : BitVec 8} {w : OwnWrite}
    (hw : Post.write w ∈ frameWrites s i f seq) (hk : w.notice = some k) : k = i := by
  simp only [frameWrites, List.mem_append, List.mem_cons, List.not_mem_nil, or_false] at hw
  rcases hw with hw | hw | hw | hw
  · obtain ⟨j, hj, he⟩ := List.mem_mapIdx.mp hw
    cases he
    cases hk
  · cases hw
    cases hk
  · cases hw
    cases hk
  · cases hw
    exact (Option.some.inj hk).symm

/-- A list that can be served finds the slot at the fill index EMPTY, so that slot `n` is another. -/
theorem SlotKept.fill_ne (hs : SlotKept n h s) (hpath : PathKept m s) (hcan : canBuild s = true) : n ≠ Fin.ofNat 64 s.ring.fill.val := by
  simp only [canBuild, Bool.and_eq_true, beq_iff_eq] at hcan
  obtain ⟨⟨⟨⟨hrun, -⟩, hempty⟩, -⟩, -⟩ := hcan
  have hfill := hpath.queue.2.2.2.2.1 hrun
  intro he
  have hv : n.val = s.ring.fill.val := by
    rw [he]
    exact Nat.mod_eq_of_lt (by omega)
  rcases hs.closed with hout | hclosed
  · omega
  · refine hclosed ?_
    rw [← hs.shadow, ← hempty]
    simp only [fillShadow, he]

theorem SlotKept.buildFrame (hs : SlotKept n h s) (hpath : PathKept m s) (hcan : canBuild s = true) : SlotKept n h (buildFrame s) := by
  have hne := hs.fill_ne hpath hcan
  have hval : s.ring.fill.val ≠ n.val := fun hv => hne (Fin.ext (by
    rw [← hv]
    exact (Nat.mod_eq_of_lt (by omega)).symm))
  unfold Machine.buildFrame
  split
  · exact hs
  · rename_i f rest hl
    dsimp only
    have taken : SlotKept n h { s with ring := { s.ring with
        list := rest, seq := s.ring.seq + 1,
        records := s.ring.records.set s.ring.fill (some { frame := f, seq := s.ring.seq + 1, withdrawn := false }) } } :=
      hs.of_same rfl rfl fun _ hk => hk
    have shown := taken.changeShadow_other (f := fun h => { h with tag := 0, dest := 4095, kind := BitVec.ofNat 8 (PartFrame.code f) }) hne
    exact (shown.handOn fun w hw k hk hkn => absurd (frameWrites_notice hw hk ▸ hkn) hval).reportChanged

theorem SlotKept.settleUnits {s0 : State} (hs : SlotKept n h s) (hpath : PathKept m s) (ht : settleUnits s0 s = some t) :
    SlotKept n h t := by
  obtain ⟨-, ⟨-, rfl⟩ | ⟨-, i, -, rfl⟩ | ⟨-, -, p, hp, rfl⟩ | ⟨-, -, -, -, rfl⟩ | ⟨-, -, -, -, f, rest, hf, rfl⟩
    | ⟨-, -, -, -, -, hcan, rfl⟩⟩ := settleUnits_cases ht
  · exact hs.works (deriveLevel_within s) (deriveLevel_works s)
  · exact hs.works (serveSegment_within i s) (serveSegment_works i s)
  · exact hs.works (forgetTruck_within hp) (forgetTruck_works p s)
  · exact hs.works (setMuster_within _ s) (setMuster_works _ s)
  · refine hs.works (l := []) (.trans ?_ (takeRequest_within f _)) (takeRequest_works hf)
    simp [Within, SameBut, SameBase, SameLevel, SameRoad, SameFault, SamePath]
  · exact hs.buildFrame hpath hcan

theorem SlotKept.settleStep {s0 : State} (hs : SlotKept n h s) (hpath : PathKept m s) (ht : settleStep s0 s = some t) :
    SlotKept n h t := by
  rcases settleStep_cases ht with ⟨-, rfl⟩ | ⟨-, hu⟩ | ⟨-, -, hp⟩
  · exact hs.enterFollowUp
  · exact hs.settleUnits hpath hu
  · exact hs.settlePath hp

theorem SlotKept.sweepPut (hs : SlotKept n h s) : SlotKept n h (sweepPut s) := by
  have swept (u : State) (hu : SlotKept n h u) (c : Option Nat) : SlotKept n h { u with path := { u.path with sweep := c } } :=
    hu.of_same rfl rfl fun _ hk => hk
  unfold Machine.sweepPut
  split
  · exact hs
  · split
    · split
      · exact swept _ (hs.appendEntry (.of_no_notice rfl)) _
      · exact swept s hs none
    · exact hs

/-- What an event's action leaves of a slot, the event leaves. -/
theorem SlotKept.event {f : State → State} (hs : SlotKept n h (f (beginEvent s))) (hpath : PathKept m (f (beginEvent s))) :
    (event f s).ring.shadows[n] = h :=
  (event_keeps (P := fun u => SlotKept n h u ∧ PathKept m u) (fun _ _ _ ⟨hu, hp⟩ ht => ⟨hu.settleStep hp ht, hp.settleStep ht⟩)
    (fun _ ⟨hu, hp⟩ => ⟨hu.sweepPut, hp.sweepPut⟩)
    (fun _ ⟨hu, hp⟩ => ⟨hu.of_same rfl rfl fun _ hk => hk, { hp with }⟩) ⟨hs, hpath⟩).1.shadow

/-! ## What an event's action does to a slot -/

theorem PathKept.noticed {k : Fin 16} (hpath : PathKept m s) (hk : Noticed k s) : k.val < ringStart s 1 := by
  rcases hk with ⟨w, hw, hnotice⟩ | ⟨w, hw | hw, hnotice⟩
  · exact (hpath.queue.2.2.2.1 w hw k hnotice).2
  · exact (hpath.posts _ hw).2 k hnotice
  · exact (hpath.reports _ hw).2 k hnotice

/-- The shadow of slot `n` is changed: the slot lies outside the PART ring, or it does not become EMPTY and does not leave UNKNOWN. -/
theorem SlotKept.changeShadow {f : Shadow → Shadow} (hs : SlotKept n h s) (hpath : PathKept m s)
    (hf : ringStart s 1 ≤ n.val ∨ ((f h).state ≠ .empty ∧ (h.state = .unknown → (f h).state = .unknown))) :
    SlotKept n (f h) (changeShadow n f s) where
  shadow := (modifyAt_self s.ring.shadows n f).trans (congrArg f hs.shadow)
  closed := hf.imp_right And.left
  spared k hk hkn := by
    have told : Noticed k s := noticed_reportChanged hk
    have hpart := hpath.noticed told
    rcases hf with hout | ⟨-, hunknown⟩
    · omega
    · exact hunknown (hs.spared k told hkn)

theorem PathKept.recordFault {k : FaultKind} {d : FaultId} (hpath : PathKept m s) (hrun : s.run = true) :
    PathKept m (recordFault k d s) := hpath.works (recordFault_within _ _ _).beside (recordFault_works _ _ _) hrun

theorem PathKept.changeShadow {i : Fin 64} {f : Shadow → Shadow} (hpath : PathKept m s) (hrun : s.run = true) :
    PathKept m (changeShadow i f s) := hpath.works (changeShadow_beside _ _ _) (changeShadow_works _ _ _) hrun

/-! ## Controller writes of descriptor words (R88, R89) -/

theorem QueueKept.reachMemory {a : Access} {w : Word} (hq : QueueKept s) : QueueKept (reachMemory a w s) :=
  hq.of_same rfl rfl rfl rfl rfl rfl (.inl rfl)

/-- The cases of R88. -/
theorem controllerWord0_cases (n : Fin 64) (addr : Addr) (w : Word) (s : State) :
    (s.ring.shadows[n].scanned = false ∧ controllerWord0 n addr w s = s)
    ∨ (s.ring.shadows[n].scanned = true ∧ s.ring.shadows[n].state = .inFlight
        ∧ controllerWord0 n addr w s = recordFault .slotCollision (.bus .controller addr w) s)
    ∨ (s.ring.shadows[n].scanned = true ∧ s.ring.shadows[n].state ≠ .inFlight
        ∧ controllerWord0 n addr w s = changeShadow n
            (fun h => { h with state := if bitOf w 31 then .ready else .empty, length := bits w 0 11 }) s) := by
  unfold controllerWord0
  dsimp only
  split
  · exact .inl ⟨by simpa using ‹(!s.ring.shadows[n].scanned) = true›, rfl⟩
  · have hscanned : s.ring.shadows[n].scanned = true := by simpa using ‹¬(!s.ring.shadows[n].scanned) = true›
    split
    · exact .inr (.inl ⟨hscanned, ‹_›, rfl⟩)
    · refine .inr (.inr ⟨hscanned, ‹_›, ?_⟩)
      cases bitOf w 31 with
      | true => rfl
      | false => rfl

/-- The cases of R89. -/
theorem controllerWord2_cases (n : Fin 64) (addr : Addr) (w : Word) (s : State) :
    (s.ring.shadows[n].state = .inFlight
        ∧ controllerWord2 n addr w s = recordFault .slotCollision (.bus .controller addr w) s)
    ∨ (s.ring.shadows[n].state ≠ .inFlight
        ∧ controllerWord2 n addr w s = changeShadow n
            (fun h => { h with tag := bits w 0 8, dest := bits w 8 12, kind := bits w 20 8 }) s) := by
  unfold controllerWord2
  split
  · exact .inl ⟨‹_›, rfl⟩
  · exact .inr ⟨‹_›, rfl⟩

/-- What a full-word write of a controller does at a descriptor word outside the PART ring. -/
theorem takenWord_controller {o : Nat} (hout : ringStart s 1 ≤ o / 16) : permitted s .controller .txSlots o = true
    ∧ (o % 16 = 0 → takenWord s .controller .txSlots o = some (.txWord0 (Fin.ofNat 64 (o / 16))))
    ∧ (o % 16 = 8 → takenWord s .controller .txSlots o = some (.txWord2 (Fin.ofNat 64 (o / 16)))) := by
  have hoff : outsidePart s o = true := decide_eq_true hout
  refine ⟨by simp [permitted, hoff], fun ho => ?_, fun ho => ?_⟩
  · simp [takenWord, hoff, ho]
  · simp [takenWord, hoff, ho]

theorem exec_txWord0ControllerWrite {addr : Addr} {data : Word} (hrun : s.run = true) (hfull : fullWordAccess addr 0xF = true)
    (hat : regionAt s (wordBase addr.toNat) = some (.txSlots, 16 * n.val)) (hout : ringStart s 1 ≤ n.val) :
    exec (.txWord0ControllerWrite addr data) s
      = .next (event (controllerWord0 n addr data) (reachMemory (fullAccess .controller addr data) data s)) := by
  have harm : exec (.txWord0ControllerWrite addr data) s = .next (serveWrite s.strap (fullAccess .controller addr data) s) := rfl
  have hdiv : 16 * n.val / 16 = n.val := by omega
  have hslot : Fin.ofNat 64 n.val = n := Fin.ext (by simp)
  obtain ⟨hperm, htaken, -⟩ := takenWord_controller (s := s) (o := 16 * n.val) (by rwa [hdiv])
  have htaken := htaken (by omega)
  rw [hdiv, hslot] at htaken
  rw [harm, serveWrite_taken (a := fullAccess .controller addr data) hrun hat hperm htaken hfull]
  rfl

theorem exec_txWord2ControllerWrite {addr : Addr} {data : Word} (hrun : s.run = true) (hfull : fullWordAccess addr 0xF = true)
    (hat : regionAt s (wordBase addr.toNat) = some (.txSlots, 16 * n.val + 8)) (hout : ringStart s 1 ≤ n.val) :
    exec (.txWord2ControllerWrite addr data) s
      = .next (event (controllerWord2 n addr data) (reachMemory (fullAccess .controller addr data) data s)) := by
  have harm : exec (.txWord2ControllerWrite addr data) s = .next (serveWrite s.strap (fullAccess .controller addr data) s) := rfl
  have hdiv : (16 * n.val + 8) / 16 = n.val := by omega
  have hslot : Fin.ofNat 64 n.val = n := Fin.ext (by simp)
  obtain ⟨hperm, -, htaken⟩ := takenWord_controller (s := s) (o := 16 * n.val + 8) (by rwa [hdiv])
  have htaken := htaken (by omega)
  rw [hdiv, hslot] at htaken
  rw [harm, serveWrite_taken (a := fullAccess .controller addr data) hrun hat hperm htaken hfull]
  rfl

/-! ## Events that act on a slot -/

/-- A fault that an event's action records is counted once at the event's end. -/
theorem event_counter {f : State → State} {k : FaultKind} {d : FaultId} {u : State} (hf : f (beginEvent s) = recordFault k d u)
    (hrun : u.run = true) (hfault : u.fault = s.fault)
    (hk : FaultKind.index k ≠ 6 ∧ FaultKind.index k ≠ 7 ∧ FaultKind.index k ≠ 11 := by decide) :
    (event f s).fault.counters[FaultKind.index k] = saturate countTop s.fault.counters[FaultKind.index k] := by
  rw [(event_sameBut_acted f s).counter_eq (by simp) hk, hf, recordFault_counter k d hrun hk, hfault]

/-- An event whose action changes nothing leaves every slot that stays. -/
theorem event_slots_of_none {f : State → State} (hq : QueueKept s) (hf : f (beginEvent s) = beginEvent s) :
    ∀ i : Fin 64, SlotStays s i → (event f s).ring.shadows[i] = s.ring.shadows[i] := fun _ hs =>
  SlotKept.event (by rw [hf]; exact slotKept_beginEvent hq hs) (by rw [hf]; exact pathKept_beginEvent hq)

/-- An event whose action records a fault leaves every slot that stays. -/
theorem event_slots_of_fault {f : State → State} {k : FaultKind} {d : FaultId} (hq : QueueKept s) (hrun : s.run = true)
    (hf : f (beginEvent s) = recordFault k d (beginEvent s)) :
    ∀ i : Fin 64, SlotStays s i → (event f s).ring.shadows[i] = s.ring.shadows[i] := fun _ hs =>
  SlotKept.event (hf ▸ (slotKept_beginEvent hq hs).recordFault) (hf ▸ (pathKept_beginEvent hq).recordFault hrun)

/-- An event whose action changes the shadow of a slot outside the PART ring leaves it so, and every other slot that stays. -/
theorem event_slots_of_given {f : State → State} {g : Shadow → Shadow} (hq : QueueKept s) (hrun : s.run = true)
    (hout : ringStart s 1 ≤ n.val) (hf : f (beginEvent s) = changeShadow n g (beginEvent s)) :
    (event f s).ring.shadows[n] = g s.ring.shadows[n]
      ∧ ∀ i : Fin 64, i ≠ n → SlotStays s i → (event f s).ring.shadows[i] = s.ring.shadows[i] := by
  have hpath : PathKept s.mem (f (beginEvent s)) := hf ▸ (pathKept_beginEvent hq).changeShadow hrun
  refine ⟨SlotKept.event ?_ hpath, fun i hne hs => SlotKept.event ?_ hpath⟩
  · exact hf ▸ (slotKept_beginEvent hq (.inl hout)).changeShadow (pathKept_beginEvent hq) (.inl hout)
  · exact hf ▸ (slotKept_beginEvent hq hs).changeShadow_other hne

/-- Settles O26: the cases of R88 and R89, and the slots that stay through the end of the event. -/
theorem controllerGivesSlots : Obligations.ControllerGivesSlots := by
  unfold Obligations.ControllerGivesSlots
  refine ⟨fun addr data n s hrun hfull hat hout hq => ?_, fun addr data n s hrun hfull hat hout hq => ?_⟩
  · refine ⟨_, exec_txWord0ControllerWrite hrun hfull hat hout, ?_⟩
    have hq' : QueueKept (reachMemory (fullAccess .controller addr data) data s) := hq.reachMemory
    have hmem : SameBut [] s (reachMemory (fullAccess .controller addr data) data s) := reachMemory_sameBut _ _ s
    have hfault : (reachMemory (fullAccess .controller addr data) data s).fault = s.fault := rfl
    have hring : (reachMemory (fullAccess .controller addr data) data s).ring = s.ring := rfl
    have hstays (m : Fin 64) (hs : SlotStays s m) : SlotStays (reachMemory (fullAccess .controller addr data) data s) m := hs
    have hrun' : (reachMemory (fullAccess .controller addr data) data s).run = true := hrun
    have hout' : ringStart (reachMemory (fullAccess .controller addr data) data s) 1 ≤ n.val := hout
    generalize reachMemory (fullAccess .controller addr data) data s = u at *
    have same : SameBut [.fault] s (event (controllerWord0 n addr data) u) :=
      event_sameBut_of hmem (controllerWord0_beside n addr data _).1
    rw [← hring, ← hfault]
    rcases controllerWord0_cases n addr data (beginEvent u) with ⟨hscan, hf⟩ | ⟨hscan, hstate, hf⟩ | ⟨hscan, hstate, hf⟩
    · have kept := event_slots_of_none hq' hf
      refine ⟨⟨fun _ => ⟨kept n (.inl hout'), event_sameBut_of hmem (by rw [hf]; exact .refl _ _)⟩, fun h => ?_, fun h => ?_⟩,
        fun m _ hs => kept m (hstays m hs), same⟩
      · exact absurd (h.symm.trans hscan) (by decide)
      · exact absurd (h.symm.trans hscan) (by decide)
    · have kept := event_slots_of_fault hq' hrun' hf
      refine ⟨⟨fun h => ?_, fun _ _ => ⟨kept n (.inl hout'), event_counter hf hrun' rfl⟩, fun _ h => absurd hstate h⟩,
        fun m _ hs => kept m (hstays m hs), same⟩
      exact absurd (h.symm.trans hscan) (by decide)
    · obtain ⟨given, kept⟩ := event_slots_of_given hq' hrun' hout' hf
      refine ⟨⟨fun h => ?_, fun _ h => absurd h hstate, fun _ _ => ⟨given, ?_⟩⟩, fun m hne hs => kept m hne (hstays m hs), same⟩
      · exact absurd (h.symm.trans hscan) (by decide)
      · exact event_sameBut_of hmem (hf ▸ (changeShadow_beside _ _ _).1)
  · refine ⟨_, exec_txWord2ControllerWrite hrun hfull hat hout, ?_⟩
    have hq' : QueueKept (reachMemory (fullAccess .controller addr data) data s) := hq.reachMemory
    have hmem : SameBut [] s (reachMemory (fullAccess .controller addr data) data s) := reachMemory_sameBut _ _ s
    have hfault : (reachMemory (fullAccess .controller addr data) data s).fault = s.fault := rfl
    have hring : (reachMemory (fullAccess .controller addr data) data s).ring = s.ring := rfl
    have hstays (m : Fin 64) (hs : SlotStays s m) : SlotStays (reachMemory (fullAccess .controller addr data) data s) m := hs
    have hrun' : (reachMemory (fullAccess .controller addr data) data s).run = true := hrun
    have hout' : ringStart (reachMemory (fullAccess .controller addr data) data s) 1 ≤ n.val := hout
    generalize reachMemory (fullAccess .controller addr data) data s = u at *
    have same : SameBut [.fault] s (event (controllerWord2 n addr data) u) :=
      event_sameBut_of hmem (controllerWord2_beside n addr data _).1
    rw [← hring, ← hfault]
    rcases controllerWord2_cases n addr data (beginEvent u) with ⟨hstate, hf⟩ | ⟨hstate, hf⟩
    · have kept := event_slots_of_fault hq' hrun' hf
      exact ⟨⟨fun _ => ⟨kept n (.inl hout'), event_counter hf hrun' rfl⟩, fun h => absurd hstate h⟩,
        fun m _ hs => kept m (hstays m hs), same⟩
    · obtain ⟨given, kept⟩ := event_slots_of_given hq' hrun' hout' hf
      exact ⟨⟨fun h => absurd h hstate, fun _ => ⟨given, event_sameBut_of hmem (hf ▸ (changeShadow_beside _ _ _).1)⟩⟩,
        fun m hne hs => kept m hne (hstays m hs), same⟩

end

end Sys2Proof.Machine
end

section
/-! PROOFS. Writes that the guards forbid, writes that pass and are not taken, and partial writes of taken words (R65 to R68, R90). -/

set_option Elab.async false

namespace Sys2Proof.Machine

open Sys2Proof.Config

section
variable {n : Fin 64} {h : Shadow} {s t u : State}

/-! ## A fault and nothing else -/

/-- A recorded fault of one kind changes no other counter but those the end of an event may raise, and neither index nor patrol. -/
theorem recordFault_rest (k : FaultKind) (d : FaultId) (hrun : s.run = true) :
    (∀ j : Fin 12, j ≠ FaultKind.index k → j ≠ 6 → j ≠ 7 → j ≠ 11 →
        (recordFault k d s).fault.counters[j] = s.fault.counters[j])
      ∧ (recordFault k d s).fault.consume = s.fault.consume ∧ (recordFault k d s).fault.patrol = s.fault.patrol := by
  obtain ⟨hconsume, hpatrol, hcounters⟩ := (recordFault_counted k d hrun).1.fault (by simp)
  exact ⟨fun j hj h6 h7 h11 => (hcounters j h6 h7 h11).trans (modifyAt_other _ _ hj), hconsume, hpatrol⟩

/-- What an event whose action records a fault first, and then leaves the fault unit, shows of that unit. -/
theorem event_fault {l : List Area} {f : State → State} {k : FaultKind} {d : FaultId} (hrun : s.run = true)
    (hf : SameBut l (recordFault k d (beginEvent s)) (f (beginEvent s))) (hl : .fault ∉ l)
    (hk : FaultKind.index k ≠ 6 ∧ FaultKind.index k ≠ 7 ∧ FaultKind.index k ≠ 11) :
    (event f s).fault.counters[FaultKind.index k] = saturate countTop s.fault.counters[FaultKind.index k]
      ∧ (∀ j : Fin 12, j ≠ FaultKind.index k → j ≠ 6 → j ≠ 7 → j ≠ 11 → (event f s).fault.counters[j] = s.fault.counters[j])
      ∧ (event f s).fault.consume = s.fault.consume ∧ (event f s).fault.patrol = s.fault.patrol := by
  have same : SameFault (recordFault k d (beginEvent s)) (event f s) := (hf.fault hl).trans ((event_sameBut_acted f s).fault (by simp))
  obtain ⟨hconsume, hpatrol, hcounters⟩ := same
  obtain ⟨hrest, hc, hp⟩ := recordFault_rest (s := beginEvent s) k d hrun
  refine ⟨?_, fun j hj h6 h7 h11 => (hcounters j h6 h7 h11).trans (hrest j hj h6 h7 h11), hconsume.trans hc, hpatrol.trans hp⟩
  exact (hcounters _ hk.1 hk.2.1 hk.2.2).trans (recordFault_counter (s := beginEvent s) k d hrun hk)

/-- What follows the counting of a fault leaves the log's entry. -/
theorem recordFault_logKept (k : FaultKind) (d : FaultId) (hrun : s.run = true) :
    LogKept (countFault k d s) (recordFault k d s) := by
  rw [recordFault, if_neg (by simp [hrun])]
  refine LogKept.trans ?_ ((postFault_works _ _).log (by decide))
  split
  · exact (joinAlert_works_latch _).log (by decide)
  · exact (localCause_works _ _ _ _).log (by decide)
  · exact .refl _
  · exact .refl _

/-- An EMPTY log takes a recorded fault whose kind is logged. -/
theorem event_recordFault_log {k : FaultKind} {d : FaultId} (hrun : s.run = true) (hempty : s.fault.log = none)
    (hlogged : s.effective.faults[FaultKind.index k].logOff = false) :
    ∃ further, (event (recordFault k d) s).fault.log = some { kind := k, ident := d, time := s.time, further := further } := by
  have counted : (countFault k d (beginEvent s)).fault.log = some { kind := k, ident := d, time := s.time, further := 0 } := by
    rw [countFault_log]
    show (if s.effective.faults[FaultKind.index k].logOff = true then _ else match s.fault.log with | none => _ | some e => _) = _
    rw [hlogged, hempty]
    rfl
  obtain ⟨-, hheld, -⟩ := (recordFault_logKept (s := beginEvent s) k d hrun).trans (event_logKept (recordFault k d) s)
  exact hheld _ counted

/-! ## Guarded and plain writes -/

/-- Settles O21: a forbidden write is the event that records GUARD_WRITE; one that is not taken reaches memory alone. -/
theorem guardedAndPlainWrites : Obligations.GuardedAndPlainWrites := by
  unfold Obligations.GuardedAndPlainWrites
  refine ⟨fun init addr lanes data k o s hrun hat hperm => ?_, fun init addr lanes data s hrun hsetup => ?_⟩
  · have hexec : exec (.guardWrite init addr lanes data) s
        = .next (serveWrite s.strap { init := init, addr := addr, lanes := lanes, data := data } s) := rfl
    rw [serveWrite_forbidden (a := { init := init, addr := addr, lanes := lanes, data := data }) hrun hat hperm] at hexec
    obtain ⟨hcount, hrest, hconsume, hpatrol⟩ := event_fault (f := recordFault .guardWrite (.bus init addr data))
      (k := .guardWrite) (d := .bus init addr data) hrun (.refl [] _) (by simp) (by decide)
    exact ⟨_, hexec, hcount, hrest, fun hempty hlogged => event_recordFault_log hrun hempty hlogged, hconsume, hpatrol,
      event_sameBut (recordFault_within _ _ _).1⟩
  · have hexec : exec (.plainWrite init addr lanes data) s
        = .next (serveWrite s.strap { init := init, addr := addr, lanes := lanes, data := data } s) := rfl
    refine ⟨_, hexec, ?_⟩
    rcases Bool.eq_false_or_eq_true s.run with hr | hr
    · rcases hrun hr with hat | ⟨k, o, hat, hperm, htaken⟩
      · exact serveWrite_outside (a := { init := init, addr := addr, lanes := lanes, data := data }) hr hat
      · exact serveWrite_untaken (a := { init := init, addr := addr, lanes := lanes, data := data }) hr hat hperm htaken
    · rw [serveWrite_setup hr]
      refine setupWrite_plain (a := { init := init, addr := addr, lanes := lanes, data := data }) fun o hat hc => ?_
      exact absurd (hat.symm.trans (hsetup hr hc.1 hc.2)) (by simp)

/-! ## Partial writes -/

/-- Slot `n` is UNKNOWN, so that neither a notice nor a frame changes it. -/
theorem SlotKept.of_unknown (hshadow : s.ring.shadows[n] = h) (hu : h.state = .unknown) : SlotKept n h s :=
  ⟨hshadow, .inr (by rw [hu]; decide), fun _ _ _ => hu⟩

theorem missWrite_slot {x : Taken} (hx : x = .txWord0 n ∨ x = .txWord2 n ∨ x = .txModem n) (s : State) :
    missWrite x s = unknownSlot n s := by
  rcases hx with rfl | rfl | rfl
  · rfl
  · rfl
  · rfl

theorem missWrite_header (b : Fin 32) (j : Fin 4) (s : State) :
    missWrite (.header b j) s = changeCapture b (uncaptureWord j) s := rfl

theorem changeCapture_frame (b : Fin 32) (f : Capture → Capture) (s : State) :
    (changeCapture b f s).frame = { s.frame with capture := modifyAt s.frame.capture b f } := rfl

/-- A word that is no header word leaves the frame unit. -/
theorem missWrite_frame {x : Taken} (hx : ∀ b j, x ≠ .header b j) (s : State) : (missWrite x s).frame = s.frame := by
  cases x with
  | header b j => exact absurd rfl (hx b j)
  | txWord0 | txWord2 | txModem | adjustment | request | consume | rawAir | rxWord0 => rfl

/-- A word that lies not in slot `n` leaves its shadow. -/
theorem SlotKept.missWrite {x : Taken} (hs : SlotKept n h s) (h0 : x ≠ .txWord0 n) (h2 : x ≠ .txWord2 n) (hm : x ≠ .txModem n) :
    SlotKept n h (missWrite x s) := by
  cases x with
  | txWord0 i => exact hs.changeShadow_other fun he => h0 (he ▸ rfl)
  | txWord2 i => exact hs.changeShadow_other fun he => h2 (he ▸ rfl)
  | txModem i => exact hs.changeShadow_other fun he => hm (he ▸ rfl)
  | header | adjustment | request | consume | rawAir | rxWord0 => exact hs.of_same rfl rfl fun _ hk => hk

/-- Settles O22: the fault is counted, the taking unit's word is missed, and the end of the event leaves both. -/
theorem partialWritesNotTaken : Obligations.PartialWritesNotTaken := by
  unfold Obligations.PartialWritesNotTaken
  intro init addr lanes data k o x s hrun hpart hat hperm htaken hq
  have hexec : exec (.partialWrite init addr lanes data) s
      = .next (serveWrite s.strap { init := init, addr := addr, lanes := lanes, data := data } s) := rfl
  rw [serveWrite_partial (a := { init := init, addr := addr, lanes := lanes, data := data }) hrun hat hperm htaken hpart] at hexec
  refine ⟨_, hexec, ?_⟩
  have hq' : QueueKept (reachMemory { init := init, addr := addr, lanes := lanes, data := data } data s) := hq.reachMemory
  have hmem : SameBut [] s (reachMemory { init := init, addr := addr, lanes := lanes, data := data } data s) :=
    reachMemory_sameBut _ _ s
  have hfault : (reachMemory { init := init, addr := addr, lanes := lanes, data := data } data s).fault = s.fault := rfl
  have hframe : (reachMemory { init := init, addr := addr, lanes := lanes, data := data } data s).frame = s.frame := rfl
  have hring : (reachMemory { init := init, addr := addr, lanes := lanes, data := data } data s).ring = s.ring := rfl
  have hstays (m : Fin 64) (hs : SlotStays s m) :
      SlotStays (reachMemory { init := init, addr := addr, lanes := lanes, data := data } data s) m := hs
  have hrun' : (reachMemory { init := init, addr := addr, lanes := lanes, data := data } data s).run = true := hrun
  generalize reachMemory { init := init, addr := addr, lanes := lanes, data := data } data s = u at *
  dsimp only [busIdent]
  have missed := missWrite_beside x (recordFault .partialWrite (.bus init addr data) (beginEvent u))
  have path : PathKept u.mem (missWrite x (recordFault .partialWrite (.bus init addr data) (beginEvent u))) :=
    ((pathKept_beginEvent hq').recordFault hrun').works missed (missWrite_works x _)
      ((recordFault_within _ _ _).1.run.trans hrun')
  obtain ⟨hcount, hrest, hconsume, hpatrol⟩ := event_fault
    (f := fun v => missWrite x (recordFault .partialWrite (.bus init addr data) v)) hrun' missed.1 (by simp) (by decide)
  have acted := event_sameBut_acted (fun v => missWrite x (recordFault .partialWrite (.bus init addr data) v)) u
  have told : (recordFault .partialWrite (.bus init addr data) (beginEvent u)).frame = u.frame :=
    (recordFault_within _ _ _).1.frame (by simp)
  rw [← hfault, ← hframe, ← hring]
  refine ⟨hcount, hrest, hconsume, hpatrol, fun n hx => ?_, fun n h0 h2 hm hs => ?_, fun b j hx => ?_, fun hx => ?_,
    event_sameBut_of hmem ?_⟩
  · refine SlotKept.event (.of_unknown ?_ rfl) path
    rw [missWrite_slot hx]
    refine (modifyAt_self _ _ _).trans ?_
    rw [(recordFault_within _ _ _).2.2.2.2.2.2.2.1]
    rfl
  · exact SlotKept.event ((slotKept_beginEvent hq' (hstays n hs)).recordFault.missWrite h0 h2 hm) path
  · subst hx
    rw [acted.frame (by simp), missWrite_header, changeCapture_frame, told]
    rfl
  · exact (acted.frame (by simp)).trans ((missWrite_frame hx _).trans told)
  · exact SameBut.trans ((recordFault_within _ _ _).1.mono (by simp)) (missed.1.mono (by simp))

end

end Sys2Proof.Machine
end

section
/-! PROOFS. The end of an event whose units are at rest and whose own-writes find room: what is handed on enters the queue in its order,
then the report words that changed, each once, and the outcome word last (R70, R71, R164). -/

set_option Elab.async false

namespace Sys2Proof.Machine

open Sys2Proof.Config

section
variable {s0 s t u : State} {k l : Nat}

/-! ## The end of an event, some things at a time -/

/-- The end of an event does `k` things on its way from `s` to `t`. -/
def SettlesIn (k : Nat) (s0 s t : State) : Prop := ∀ n, settle (n + k) s0 s = settle n s0 t

theorem SettlesIn.refl (s0 s : State) : SettlesIn 0 s0 s s := fun _ => rfl

theorem SettlesIn.of_step (h : settleStep s0 s = some t) : SettlesIn 1 s0 s t := fun _ => settle_of_step h

theorem SettlesIn.trans (h : SettlesIn k s0 s u) (h' : SettlesIn l s0 u t) : SettlesIn (k + l) s0 s t := fun n => by
  rw [show n + (k + l) = n + l + k by omega, h, h']

theorem SettlesIn.settled (h : SettlesIn k s0 s t) (hk : k ≤ 20000) (ht : settleStep s0 t = none) : settle settleBound s0 s = t := by
  have hbound : settleBound = 20000 := rfl
  obtain ⟨m, hm⟩ : ∃ m, settleBound = m + k := ⟨settleBound - k, by omega⟩
  rw [hm, h, settle_of_none _ ht]

/-! ## Units at rest -/

/-- The units have nothing left to do, and no follow-up value is free to enter. -/
structure AtRest (s0 s : State) : Prop where
  units : settleUnits s0 s = none
  followUp : followUpFree s = false

theorem AtRest.step (h : AtRest s0 s) : settleStep s0 s = settlePath s0 s := by
  rw [settleStep, h.followUp, h.units]
  rfl

theorem settleUnits_rest (hlevel : levelFirst s0 s = false) (hmarked : firstMarked s = none) (hforget : firstForgettable s = none)
    (hmuster : musterStale s = false) (hreq : s.ring.requests = []) (hbuild : canBuild s = false) : settleUnits s0 s = none := by
  unfold settleUnits
  simp only [hlevel, hmarked, hforget, hmuster, hreq, hbuild]
  simp

/-- The units' work does not depend on the own-writes that wait. -/
theorem settleUnits_withPath {p : PathUnit} (h : settleUnits s0 s = none) (hp : p.scanCursor = s.path.scanCursor) :
    settleUnits s0 { s with path := p } = none := by
  rcases Bool.eq_false_or_eq_true s.run with hrun | hrun
  · obtain ⟨hlevel, hmarked, hforget, hmuster, hreq, hbuild⟩ := settleUnits_none hrun h
    refine settleUnits_rest hlevel hmarked hforget hmuster hreq ?_
    have hsame : canBuild { s with path := p } = canBuild s := by
      simp only [canBuild, fillShadow, hp]
    rw [hsame]
    exact hbuild
  · unfold settleUnits
    simp [hrun]

/-- A mirror word shows nothing of the own-writes that wait. -/
theorem mirror_withPath (p : PathUnit) (o : Nat) : mirror { s with path := p } o = mirror s o := rfl

/-! ## The own-writes on their way -/

/-- The state with these own-writes queued, these report words kept in mind, and this still to enter. -/
def lined (q : List OwnWrite) (shown : List (Nat × Word)) (posts reports : List Post) (outcome : Option Word) (s : State) : State :=
  { s with path := { s.path with queue := q, shown := shown, posts := posts, reports := reports, outcome := outcome } }

theorem lined_self (s : State) : lined s.path.queue s.path.shown s.path.posts s.path.reports s.path.outcome s = s := rfl

/-- The units are at rest, and a follow-up value that is held waits for the entry of the produce index in `q`. -/
structure Calm (s0 s : State) (q : List OwnWrite) : Prop where
  units : settleUnits s0 s = none
  held : s.path.followUp.isSome = true → queued q (eventsAddr s 0) = true

variable {q : List OwnWrite} {shown : List (Nat × Word)} {posts reports : List Post} {outcome : Option Word}

theorem queued_append {p : List OwnWrite} {a : Addr} (h : queued q a = true) : queued (q ++ p) a = true := by
  rw [queued, List.any_append, Bool.or_eq_true]
  exact .inl h

theorem Calm.append {p : List OwnWrite} (h : Calm s0 s q) : Calm s0 s (q ++ p) :=
  ⟨h.units, fun hf => queued_append (h.held hf)⟩

theorem Calm.atRest (h : Calm s0 s q) : AtRest s0 (lined q shown posts reports outcome s) where
  units := settleUnits_withPath h.units rfl
  followUp := by
    have held : s.path.followUp.isSome = true → queued q (eventsAddr s 0) = true := h.held
    show (s.path.followUp.isSome && !queued q (eventsAddr s 0)) = false
    cases hf : s.path.followUp.isSome with
    | false => rfl
    | true => rw [held hf]; rfl

/-! ### Own-writes with new addresses -/

theorem queued_of_mem {w : OwnWrite} {a : Addr} (hw : w ∈ q) (ha : w.addr = a) : queued q a = true := by
  rw [queued, List.any_eq_true]
  exact ⟨w, hw, by simp [ha]⟩

theorem queued_of_new {a : Addr} (h : a ∉ q.map (·.addr)) : queued q a = false := by
  rw [queued, List.any_eq_false]
  intro w hw
  simp only [beq_iff_eq]
  exact fun ha => h (List.mem_map.mpr ⟨w, hw, ha⟩)

/-- An own-write to a new address joins the tail of a queue with room. -/
theorem enterQueue_new {w : OwnWrite} (hnew : w.addr ∉ s.path.queue.map (·.addr)) (hroom : s.path.queue.length < 32) :
    enterQueue w s = { s with path := { s.path with queue := s.path.queue ++ [w] } } := by
  rw [enterQueue, queued_of_new hnew, enterNew]
  exact if_pos hroom

/-- The own-writes handed on enter in their order, where their addresses are new and find room. -/
theorem settles_writes {P : List OwnWrite} (hcalm : Calm s0 s q) (hnew : ((q ++ P).map (·.addr)).Nodup)
    (hroom : q.length + P.length ≤ 32) :
    SettlesIn P.length s0 (lined q shown (P.map .write ++ posts) reports outcome s) (lined (q ++ P) shown posts reports outcome s) := by
  induction P generalizing q with
  | nil =>
    rw [List.append_nil]
    exact .refl _ _
  | cons w P ih =>
    have hw : w.addr ∉ q.map (·.addr) := by
      rw [List.map_append, List.map_cons, List.nodup_append] at hnew
      exact fun hm => hnew.2.2 _ hm _ List.mem_cons_self rfl
    have hassoc : q ++ w :: P = q ++ [w] ++ P := by rw [List.append_assoc]; rfl
    simp only [List.length_cons] at hroom
    have first : SettlesIn 1 s0 (lined q shown ((w :: P).map .write ++ posts) reports outcome s)
        (lined (q ++ [w]) shown (P.map .write ++ posts) reports outcome s) := by
      refine .of_step ?_
      rw [hcalm.atRest.step]
      show some (enterQueue w (lined q shown (P.map .write ++ posts) reports outcome s)) = _
      rw [enterQueue_new hw (by show q.length < 32; omega)]
      rfl
    rw [hassoc] at hnew ⊢
    have rest := first.trans (ih hcalm.append hnew (by rw [List.length_append, List.length_singleton]; omega))
    rwa [Nat.add_comm] at rest

/-! ### Report words -/

/-- The changed words of a list, each once and in the order of their first mention. -/
def enteredWords (s0 s : State) (done words : List Nat) : List Nat :=
  words.foldl (fun d o => if o ∈ d ∨ mirror s0 o = mirror s o then d else d ++ [o]) done

/-- The event keeps the entered words in mind. -/
def InMind (s : State) (done : List Nat) (shown : List (Nat × Word)) : Prop :=
  ∀ o, shown.lookup o = if o ∈ done then some (mirror s o) else none

theorem InMind.cons {done : List Nat} (h : InMind s done shown) {o : Nat} {d : List Nat} (hd : ∀ k, k ∈ d ↔ k ∈ done ∨ k = o) :
    InMind s d ((o, mirror s o) :: shown) := by
  intro k
  rw [List.lookup_cons]
  by_cases hk : k = o
  · subst hk
    simp [hd]
  · have hb : (k == o) = false := by simpa using hk
    rw [hb, h k]
    simp [hd, hk]

theorem coalesce_same {w : OwnWrite} (h : ∀ e ∈ q, e.addr = w.addr → e.data = w.data) : coalesce q w = q := by
  rw [coalesce]
  refine (List.map_congr_left fun e he => ?_).trans (List.map_id q)
  split
  · rw [← h e he ‹_›]
    rfl
  · rfl

/-- A word that stands in the queue with its value enters without a change of the queue. -/
theorem enterQueue_same {w : OwnWrite} (hw : w ∈ s.path.queue) (hkind : w.kind = .coalescing)
    (hone : ∀ e ∈ s.path.queue, e.addr = w.addr → e.data = w.data) : enterQueue w s = s := by
  rw [enterQueue, queued_of_mem hw rfl]
  simp only [hkind, coalesce_same hone]
  rfl

/-- The words of a list that differ from what they showed before the event. -/
def changedWords (s0 s : State) (words : List Nat) : List Nat := words.filter fun o => mirror s0 o != mirror s o

theorem mem_changedWords {words : List Nat} {o : Nat} : o ∈ changedWords s0 s words ↔ o ∈ words ∧ mirror s0 o ≠ mirror s o := by
  rw [changedWords, List.mem_filter, bne_iff_ne]

/-- What the report words of an event find in the queue: none of them beside those that the event has entered, each with its value. -/
structure WordsIn (s0 s : State) (q : List OwnWrite) (words done : List Nat) : Prop where
  changed : ∀ o ∈ done, o ∈ changedWords s0 s words
  distinct : done.Nodup
  new : (q.map (·.addr) ++ words.map (reportAddr s)).Nodup
  room : q.length + (changedWords s0 s words).length ≤ 32

variable {words done : List Nat} {o : Nat}

theorem WordsIn.sub (h : WordsIn s0 s q words done) : ∀ o ∈ done, o ∈ words := fun o ho => (mem_changedWords.mp (h.changed o ho)).1

theorem WordsIn.addr_ne (h : WordsIn s0 s q words done) (ho : o ∈ words) : ∀ e ∈ q, e.addr ≠ reportAddr s o := fun e he ha =>
  (List.nodup_append.mp h.new).2.2 _ (List.mem_map.mpr ⟨e, he, rfl⟩) _ (List.mem_map.mpr ⟨o, ho, rfl⟩) ha

theorem WordsIn.inj (h : WordsIn s0 s q words done) {i : Nat} (hi : i ∈ words) (ho : o ∈ words) (ha : reportAddr s i = reportAddr s o) :
    i = o := List.inj_on_of_nodup_map (List.nodup_append.mp h.new).2.1 hi ho ha

theorem WordsIn.new_addr (h : WordsIn s0 s q words done) (ho : o ∈ words) (hn : o ∉ done) :
    reportAddr s o ∉ (q ++ done.map (mirrorWrite s)).map (·.addr) := by
  rw [List.map_append, List.mem_append, not_or]
  refine ⟨fun hm => ?_, fun hm => ?_⟩
  · obtain ⟨e, he, ha⟩ := List.mem_map.mp hm
    exact h.addr_ne ho e he ha
  · rw [List.map_map] at hm
    obtain ⟨i, hi, ha⟩ := List.mem_map.mp hm
    exact hn (h.inj (h.sub i hi) ho ha ▸ hi)

theorem WordsIn.snoc (h : WordsIn s0 s q words done) (ho : o ∈ changedWords s0 s words) (hn : o ∉ done) :
    WordsIn s0 s q words (done ++ [o]) where
  changed k hk := (List.mem_append.mp hk).elim (h.changed k) fun hk => List.mem_singleton.mp hk ▸ ho
  distinct := h.distinct.append (List.nodup_singleton o) (List.disjoint_singleton.mpr hn)
  new := h.new
  room := h.room

/-- The words entered are distinct words of the list, so that one more finds room. -/
theorem WordsIn.room_left (h : WordsIn s0 s q words done) (ho : o ∈ changedWords s0 s words) (hn : o ∉ done) :
    (q ++ done.map (mirrorWrite s)).length < 32 := by
  have hlen : (done ++ [o]).length ≤ (changedWords s0 s words).length :=
    ((h.snoc ho hn).distinct.subperm fun k hk => (h.snoc ho hn).changed k hk).length_le
  have hroom := h.room
  simp only [List.length_append, List.length_singleton, List.length_map] at hlen ⊢
  omega

/-- One report word, named as changed. -/
theorem settles_word (hcalm : Calm s0 s (q ++ done.map (mirrorWrite s))) (hin : WordsIn s0 s q words done) (hmind : InMind s done shown)
    (ho : o ∈ words) : ∃ shown', InMind s (enteredWords s0 s done [o]) shown'
      ∧ SettlesIn 1 s0 (lined (q ++ done.map (mirrorWrite s)) shown [] (.changed o :: reports) outcome s)
          (lined (q ++ (enteredWords s0 s done [o]).map (mirrorWrite s)) shown' [] reports outcome s) := by
  have hstep {u : State} (hu : enterPost s0 (.changed o) (lined (q ++ done.map (mirrorWrite s)) shown [] reports outcome s) = u) :
      SettlesIn 1 s0 (lined (q ++ done.map (mirrorWrite s)) shown [] (.changed o :: reports) outcome s) u := by
    refine .of_step ?_
    rw [hcalm.atRest.step, ← hu]
    rfl
  have hpost : enterPost s0 (.changed o) (lined (q ++ done.map (mirrorWrite s)) shown [] reports outcome s)
      = if (shown.lookup o).getD (mirror s0 o) != mirror s o || queued (q ++ done.map (mirrorWrite s)) (reportAddr s o) then
          enterQueue (mirrorWrite s o)
            (lined (q ++ done.map (mirrorWrite s)) ((o, mirror s o) :: shown) [] reports outcome s)
        else lined (q ++ done.map (mirrorWrite s)) shown [] reports outcome s := rfl
  by_cases hdone : o ∈ done
  · have hmem : mirrorWrite s o ∈ q ++ done.map (mirrorWrite s) := List.mem_append_right _ (List.mem_map.mpr ⟨o, hdone, rfl⟩)
    have hwords : enteredWords s0 s done [o] = done := if_pos (.inl hdone)
    rw [hwords]
    refine ⟨_, hmind.cons fun k => ⟨.inl, fun hk => hk.elim id fun hk => hk ▸ hdone⟩, hstep ?_⟩
    rw [hpost, queued_of_mem (a := reportAddr s o) hmem rfl, Bool.or_true, if_pos rfl]
    refine enterQueue_same hmem rfl fun e he ha => ?_
    rcases List.mem_append.mp he with he | he
    · exact absurd ha (hin.addr_ne ho e he)
    · obtain ⟨i, hi, rfl⟩ := List.mem_map.mp he
      rw [hin.inj (hin.sub i hi) ho ha]
  · have hnew := hin.new_addr ho hdone
    have hlookup : shown.lookup o = none := (hmind o).trans (if_neg hdone)
    rw [hlookup, queued_of_new hnew, Bool.or_false, Option.getD_none] at hpost
    by_cases hsame : mirror s0 o = mirror s o
    · have hwords : enteredWords s0 s done [o] = done := if_pos (.inr hsame)
      rw [hwords]
      refine ⟨shown, hmind, hstep ?_⟩
      rw [hpost, hsame, if_neg (by simp)]
    · have hwords : enteredWords s0 s done [o] = done ++ [o] := if_neg (not_or.mpr ⟨hdone, hsame⟩)
      rw [hwords]
      refine ⟨_, hmind.cons fun k => by rw [List.mem_append, List.mem_singleton], hstep ?_⟩
      rw [hpost, if_pos (by simpa using hsame), enterQueue_new hnew (hin.room_left (mem_changedWords.mpr ⟨ho, hsame⟩) hdone), List.map_append, ← List.append_assoc]
      rfl

theorem enteredWords_cons (done : List Nat) (o : Nat) (rest : List Nat) :
    enteredWords s0 s done (o :: rest) = enteredWords s0 s (enteredWords s0 s done [o]) rest := rfl

theorem WordsIn.entered (h : WordsIn s0 s q words done) (ho : o ∈ words) : WordsIn s0 s q words (enteredWords s0 s done [o]) := by
  by_cases hc : o ∈ done ∨ mirror s0 o = mirror s o
  · rw [show enteredWords s0 s done [o] = done from if_pos hc]
    exact h
  · rw [show enteredWords s0 s done [o] = done ++ [o] from if_neg hc]
    exact h.snoc (mem_changedWords.mpr ⟨ho, fun hs => hc (.inr hs)⟩) fun hm => hc (.inl hm)

theorem Calm.entered (h : Calm s0 s (q ++ done.map (mirrorWrite s))) (R : List Nat) :
    Calm s0 s (q ++ (enteredWords s0 s done R).map (mirrorWrite s)) := by
  induction R generalizing done with
  | nil => exact h
  | cons o R ih =>
    rw [enteredWords_cons]
    refine ih ?_
    by_cases hc : o ∈ done ∨ mirror s0 o = mirror s o
    · rw [show enteredWords s0 s done [o] = done from if_pos hc]
      exact h
    · rw [show enteredWords s0 s done [o] = done ++ [o] from if_neg hc, List.map_append, ← List.append_assoc]
      exact h.append

/-- The report words enter behind the own-writes: the changed ones, each once, where their addresses are new and find room. -/
theorem settles_words {R : List Nat} (hcalm : Calm s0 s (q ++ done.map (mirrorWrite s))) (hin : WordsIn s0 s q words done)
    (hmind : InMind s done shown) (hR : ∀ o ∈ R, o ∈ words) : ∃ shown', InMind s (enteredWords s0 s done R) shown'
      ∧ WordsIn s0 s q words (enteredWords s0 s done R)
      ∧ SettlesIn R.length s0 (lined (q ++ done.map (mirrorWrite s)) shown [] (R.map .changed ++ reports) outcome s)
          (lined (q ++ (enteredWords s0 s done R).map (mirrorWrite s)) shown' [] reports outcome s) := by
  induction R generalizing done shown with
  | nil => exact ⟨shown, hmind, hin, .refl _ _⟩
  | cons o R ih =>
    have ho := hR o List.mem_cons_self
    obtain ⟨shown', hmind', first⟩ := settles_word (reports := R.map .changed ++ reports) (outcome := outcome) hcalm hin hmind ho
    obtain ⟨shown'', hmind'', hin'', rest⟩ := ih (hcalm.entered [o]) (hin.entered ho) hmind'
      fun k hk => hR k (List.mem_cons_of_mem _ hk)
    rw [enteredWords_cons]
    refine ⟨shown'', hmind'', hin'', ?_⟩
    have both := first.trans rest
    rwa [Nat.add_comm] at both

/-! ### The outcome word, and the end -/

/-- The own-write of an outcome word (R164). -/
def outcomeWrite (s : State) (w : Word) : OwnWrite := { addr := settingAddr s 0xF04, data := w, kind := .coalescing }

theorem settles_outcome {w : Word} (hcalm : Calm s0 s q) (hnew : settingAddr s 0xF04 ∉ q.map (·.addr)) (hroom : q.length < 32) :
    SettlesIn 1 s0 (lined q shown [] [] (some w) s) (lined (q ++ [outcomeWrite s w]) shown [] [] none s) := by
  refine .of_step ?_
  rw [hcalm.atRest.step]
  show some (enterQueue (outcomeWrite s w) (lined q shown [] [] none s)) = _
  rw [enterQueue_new (w := outcomeWrite s w) hnew hroom]
  rfl

/-- With all of it queued the event keeps no report word in mind. -/
theorem settles_cleared (hcalm : Calm s0 s q) :
    ∃ k ≤ 1, SettlesIn k s0 (lined q shown [] [] none s) (lined q [] [] [] none s) := by
  cases shown with
  | nil => exact ⟨0, by omega, .refl _ _⟩
  | cons x rest =>
    refine ⟨1, le_refl 1, .of_step ?_⟩
    rw [hcalm.atRest.step]
    rfl

theorem Calm.ended (hcalm : Calm s0 s q) : settleStep s0 (lined q [] [] [] none s) = none := by
  rw [hcalm.atRest.step]
  rfl

/-- The outcome word enters last, if there is one. -/
theorem settles_last (hcalm : Calm s0 s q) (hnew : outcome.isSome = true → settingAddr s 0xF04 ∉ q.map (·.addr))
    (hroom : outcome.isSome = true → q.length < 32) : ∃ k ≤ 2, SettlesIn k s0 (lined q shown [] [] outcome s)
      (lined (q ++ (outcome.map (outcomeWrite s)).toList) [] [] [] none s) := by
  cases outcome with
  | none =>
    obtain ⟨k, hk, cleared⟩ := settles_cleared (shown := shown) hcalm
    exact ⟨k, by omega, by simpa using cleared⟩
  | some w =>
    obtain ⟨k, hk, cleared⟩ := settles_cleared (shown := shown) (hcalm.append (p := [outcomeWrite s w]))
    exact ⟨1 + k, by omega, (settles_outcome hcalm (hnew rfl) (hroom rfl)).trans cleared⟩

/-- The end of an event whose units are at rest, where everything handed on finds room at a new address. -/
theorem settles_with_room {P : List OwnWrite} {R : List Nat} (hcalm : Calm s0 s s.path.queue) (hposts : s.path.posts = P.map .write)
    (hreports : s.path.reports = R.map .changed) (hshown : s.path.shown = []) (hR : ∀ o ∈ R, o ∈ words)
    (hnew : ((s.path.queue ++ P).map (·.addr) ++ words.map (reportAddr s)).Nodup)
    (hout : s.path.outcome.isSome = true → settingAddr s 0xF04 ∉ (s.path.queue ++ P).map (·.addr) ++ words.map (reportAddr s))
    (hroom : (s.path.queue ++ P).length + (changedWords s0 s words).length + s.path.outcome.toList.length ≤ 32) :
    ∃ k ≤ P.length + R.length + 2, SettlesIn k s0 s (lined (s.path.queue ++ P ++ (enteredWords s0 s [] R).map (mirrorWrite s)
      ++ (s.path.outcome.map (outcomeWrite s)).toList) [] [] [] none s)
      ∧ settleStep s0 (lined (s.path.queue ++ P ++ (enteredWords s0 s [] R).map (mirrorWrite s)
        ++ (s.path.outcome.map (outcomeWrite s)).toList) [] [] [] none s) = none := by
  have start : s = lined s.path.queue [] (P.map .write ++ []) (R.map .changed) s.path.outcome s := by
    rw [List.append_nil, ← hposts, ← hreports, ← hshown]
    rfl
  have written := settles_writes (posts := []) (reports := R.map .changed) (shown := []) (outcome := s.path.outcome) hcalm
    (List.nodup_append.mp hnew).1 (by rw [← List.length_append]; omega)
  have calm : Calm s0 s (s.path.queue ++ P ++ ([] : List Nat).map (mirrorWrite s)) := by
    rw [List.map_nil, List.append_nil]
    exact hcalm.append
  have hin : WordsIn s0 s (s.path.queue ++ P) words [] := ⟨by simp, List.nodup_nil, hnew, by omega⟩
  obtain ⟨shown', -, hin', worded⟩ := settles_words (reports := []) (outcome := s.path.outcome) (shown := []) calm hin
    (fun o => by simp) hR
  rw [List.append_nil, List.map_nil, List.append_nil] at worded
  have hsub : ∀ a ∈ ((enteredWords s0 s [] R).map (mirrorWrite s)).map (·.addr), a ∈ words.map (reportAddr s) := fun a ha => by
    rw [List.map_map] at ha
    obtain ⟨o, ho, rfl⟩ := List.mem_map.mp ha
    exact List.mem_map.mpr ⟨o, hin'.sub o ho, rfl⟩
  have hlen : (enteredWords s0 s [] R).length ≤ (changedWords s0 s words).length := (hin'.distinct.subperm hin'.changed).length_le
  have hnew' (ho : s.path.outcome.isSome = true) :
      settingAddr s 0xF04 ∉ (s.path.queue ++ P ++ (enteredWords s0 s [] R).map (mirrorWrite s)).map (·.addr) := fun hm => by
    refine hout ho ?_
    rw [List.map_append, List.mem_append] at hm
    rw [List.mem_append]
    exact hm.imp_right (hsub _)
  have hroom' (ho : s.path.outcome.isSome = true) :
      (s.path.queue ++ P ++ (enteredWords s0 s [] R).map (mirrorWrite s)).length < 32 := by
    have hone : s.path.outcome.toList.length = 1 := by
      obtain ⟨w, hw⟩ := Option.isSome_iff_exists.mp ho
      rw [hw]
      rfl
    rw [List.length_append, List.length_map]
    omega
  obtain ⟨k, hk, last⟩ := settles_last (shown := shown') (outcome := s.path.outcome) (calm.entered R) hnew' hroom'
  have whole := (written.trans worded).trans last
  rw [← start] at whole
  exact ⟨_, by omega, whole, ((calm.entered R).append).ended⟩

/-- An event in RUN whose end leaves no level to be derived ends as its own-writes have entered. -/
theorem event_of_settle {f : State → State} (hrun : s.run = true) (hsettle : settle settleBound (beginEvent s) (f (beginEvent s)) = t)
    (hlevel : levelDue t = false) : event f s = driveLines t := by
  have hbegun : (beginEvent s).run = true := hrun
  have hbase : eventBase (beginEvent s) (f (beginEvent s)) = beginEvent s := by
    rw [eventBase, hbegun, Bool.not_true, Bool.and_false]
    rfl
  rw [event_eq, hbase, hsettle, hbegun, Bool.not_true, Bool.and_false, if_neg (by decide), levelEvents_of_not_due 2 hlevel]

/-! ## Ends that need no order -/

/-- What is handed on goes to one of the addresses; the follow-up value alone is held. -/
def PostIn (L : List Addr) (s : State) : Post → Prop
  | .write w => w.addr ∈ L ∧ (w.kind = .trailing → w.addr = eventsAddr s 0)
  | .changed o | .always o => reportAddr s o ∈ L

/-- The path unit's own-writes, queued and on their way, go to at most as many addresses as the queue has places. -/
structure Fits (L : List Addr) (s : State) (p : PathUnit) : Prop where
  size : L.length ≤ 32
  distinct : (p.queue.map (·.addr)).Nodup
  queue : ∀ w ∈ p.queue, w.addr ∈ L
  posts : ∀ x ∈ p.posts, PostIn L s x
  reports : ∀ x ∈ p.reports, PostIn L s x
  outcome : p.outcome.isSome = true → settingAddr s 0xF04 ∈ L
  held : p.followUp.isSome = true → queued p.queue (eventsAddr s 0) = true
  cursor : p.scanCursor = s.path.scanCursor

variable {L : List Addr} {p : PathUnit}

theorem Fits.room (h : Fits L s p) {a : Addr} (ha : a ∈ L) (hnew : a ∉ p.queue.map (·.addr)) : p.queue.length < 32 := by
  have hsub : p.queue.map (·.addr) ++ [a] ⊆ L := fun b hb => by
    rcases List.mem_append.mp hb with hb | hb
    · obtain ⟨w, hw, rfl⟩ := List.mem_map.mp hb
      exact h.queue w hw
    · exact List.mem_singleton.mp hb ▸ ha
  have hlen := ((nodup_append_new h.distinct hnew).subperm hsub).length_le
  have hsize := h.size
  rw [List.length_append, List.length_map, List.length_singleton] at hlen
  omega

theorem coalesce_queued (q : List OwnWrite) (w : OwnWrite) (a : Addr) : queued (coalesce q w) a = queued q a := by
  rw [queued, queued, coalesce, List.any_map]
  congr 1
  funext e
  show ((if e.addr = w.addr then _ else e : OwnWrite).addr == a) = _
  split
  · rfl
  · rfl

/-- An own-write to one of the addresses enters without a stall. -/
theorem Fits.enterQueue {w : OwnWrite} (h : Fits L s p) (hw : w.addr ∈ L) (hkind : w.kind = .trailing → w.addr = eventsAddr s 0) :
    ∃ p', enterQueue w { s with path := p } = { s with path := p' } ∧ Fits L s p' := by
  have coalesced : Fits L s { p with queue := coalesce p.queue w } := { h with
    distinct := by
      show ((coalesce p.queue w).map (·.addr)).Nodup
      rw [coalesce_addresses]
      exact h.distinct
    queue := fun v hv => by
      obtain ⟨e, he, rfl⟩ := List.mem_map.mp hv
      split
      · exact h.queue e he
      · exact h.queue e he
    held := fun hf => (coalesce_queued _ _ _).trans (h.held hf) }
  by_cases hq : w.addr ∈ p.queue.map (·.addr)
  · obtain ⟨e, he, hea⟩ := List.mem_map.mp hq
    have hqueued : queued p.queue w.addr = true := queued_of_mem he hea
    cases hk : w.kind with
    | trailing =>
      refine ⟨{ p with followUp := some w.data }, ?_, { h with held := fun _ => hkind hk ▸ hqueued }⟩
      simp only [Machine.enterQueue, hqueued, hk, if_true]
    | coalescing =>
      refine ⟨{ p with queue := coalesce p.queue w }, ?_, coalesced⟩
      simp only [Machine.enterQueue, hqueued, hk, if_true]
    | plain =>
      refine ⟨{ p with queue := coalesce p.queue w }, ?_, coalesced⟩
      simp only [Machine.enterQueue, hqueued, hk, if_true]
  · refine ⟨{ p with queue := p.queue ++ [w] }, enterQueue_new (s := { s with path := p }) hq (h.room hw hq), { h with
      distinct := by
        show ((p.queue ++ [w]).map (·.addr)).Nodup
        rw [List.map_append]
        exact nodup_append_new h.distinct hq
      queue := fun v hv => (List.mem_append.mp hv).elim (h.queue v) fun hv => List.mem_singleton.mp hv ▸ hw
      held := fun hf => queued_append (h.held hf) }⟩

theorem Fits.enterMirror {o : Nat} (h : Fits L s p) (ho : reportAddr s o ∈ L) :
    ∃ p', enterMirror o { s with path := p } = { s with path := p' } ∧ Fits L s p' := by
  have told : Fits L s { p with shown := (o, mirror s o) :: p.shown } := { h with }
  exact told.enterQueue (w := mirrorWrite s o) ho fun hk => by cases hk

theorem Fits.enterPost {x : Post} (h : Fits L s p) (hx : PostIn L s x) :
    ∃ p', enterPost s0 x { s with path := p } = { s with path := p' } ∧ Fits L s p' := by
  cases x with
  | write w => exact h.enterQueue hx.1 hx.2
  | always o =>
    unfold Machine.enterPost
    dsimp only
    split
    · exact ⟨p, rfl, h⟩
    · exact h.enterMirror hx
  | changed o =>
    unfold Machine.enterPost
    dsimp only
    split
    · exact h.enterMirror hx
    · exact ⟨p, rfl, h⟩

theorem Fits.free (h : Fits L s p) : followUpFree { s with path := p } = false := by
  have held : p.followUp.isSome = true → queued p.queue (eventsAddr s 0) = true := h.held
  show (p.followUp.isSome && !queued p.queue (eventsAddr s 0)) = false
  cases hf : p.followUp.isSome with
  | false => rfl
  | true => rw [held hf]; rfl

theorem Fits.settleStep (h : Fits L s p) (hunits : settleUnits s0 s = none) (ht : settleStep s0 { s with path := p } = some t) :
    ∃ p', t = { s with path := p' } ∧ Fits L s p' := by
  rw [Machine.settleStep, h.free, settleUnits_withPath hunits h.cursor] at ht
  rcases settlePath_cases ht with ⟨x, rest, hx, rfl⟩ | ⟨x, rest, -, hx, rfl⟩ | ⟨w, -, -, hw, rfl⟩ | ⟨-, -, -, -, rfl⟩
  · have hx : p.posts = x :: rest := hx
    have dropped : Fits L s { p with posts := rest } := { h with posts := fun y hy => h.posts y (hx ▸ List.mem_cons_of_mem _ hy) }
    exact dropped.enterPost (h.posts x (hx ▸ List.mem_cons_self))
  · have hx : p.reports = x :: rest := hx
    have dropped : Fits L s { p with reports := rest } :=
      { h with reports := fun y hy => h.reports y (hx ▸ List.mem_cons_of_mem _ hy) }
    exact dropped.enterPost (h.reports x (hx ▸ List.mem_cons_self))
  · have hw : p.outcome = some w := hw
    have dropped : Fits L s { p with outcome := none } := { h with outcome := fun ho => by cases ho }
    exact dropped.enterQueue (w := outcomeWrite s w) (h.outcome (by rw [hw]; rfl)) fun hk => by cases hk
  · exact ⟨_, rfl, { h with }⟩

/-- The end of an event whose units are at rest and whose own-writes find room changes the path unit alone. -/
theorem Fits.settle (hunits : settleUnits s0 s = none) (n : Nat) (h : Fits L s p) :
    ∃ p', settle n s0 { s with path := p } = { s with path := p' } ∧ Fits L s p' := by
  induction n generalizing p with
  | zero => exact ⟨p, rfl, h⟩
  | succ n ih =>
    cases hstep : Machine.settleStep s0 { s with path := p } with
    | none => exact ⟨p, settle_of_none _ hstep, h⟩
    | some t =>
      obtain ⟨p', rfl, h'⟩ := h.settleStep hunits hstep
      obtain ⟨p'', he, h''⟩ := ih h'
      exact ⟨p'', (settle_of_step hstep).trans he, h''⟩

/-- An event in RUN whose action leaves the units at rest and hands on what finds room changes beyond that the path unit and the lines
alone. -/
theorem event_fits {f : State → State} (hrun : s.run = true) (ha : (f (beginEvent s)).run = true)
    (hlevel : (f (beginEvent s)).level.level = s.level.level) (hunits : settleUnits (beginEvent s) (f (beginEvent s)) = none)
    (hfits : Fits L (f (beginEvent s)) (f (beginEvent s)).path) :
    ∃ p', event f s = driveLines { f (beginEvent s) with path := p' } ∧ Fits L (f (beginEvent s)) p' := by
  obtain ⟨p', he, hp'⟩ := hfits.settle hunits settleBound
  refine ⟨p', event_of_settle hrun he ?_, hp'⟩
  obtain ⟨hfirst, -⟩ := settleUnits_none ha hunits
  have hsame : ((f (beginEvent s)).level.level == (beginEvent s).level.level) = true := by
    rw [hlevel]
    exact beq_self_eq_true _
  rw [levelFirst, hsame, Bool.and_true] at hfirst
  exact hfirst

end

end Sys2Proof.Machine
end

section
/-! PROOFS. What a MODEM read of transmit word 0 returns and leaves (R84). -/

set_option Elab.async false

namespace Sys2Proof.Machine

open Sys2Proof.Config

section
variable {n : Fin 64} {s t : State}

/-! ## The word shown -/

theorem ownerFields_bit : ∀ (o d : Bool) (i : Fin 32), (layout [(30, 1, d.toNat), (31, 1, o.toNat)]).getLsbD i.val
    = if i.val = 31 then o else if i.val = 30 then d else false := by decide

theorem ownerMask_bit : ∀ i : Fin 32, (~~~(0xC0000000 : Word)).getLsbD i.val = (i.val != 31 && i.val != 30) := by decide

/-- The bits of a word with its owner and discard fields replaced (R179). -/
theorem withOwner_bit (o d : Bool) (w : Word) (i : Fin 32) :
    (withOwner o d w).getLsbD i.val = if i.val = 31 then o else if i.val = 30 then d else w.getLsbD i.val := by
  rw [withOwner, BitVec.getLsbD_or, BitVec.getLsbD_and, ownerFields_bit, ownerMask_bit]
  by_cases h31 : i.val = 31
  · simp [h31]
  · by_cases h30 : i.val = 30
    · simp [h30]
    · simp [h31, h30]

theorem withOwner_owner (o d : Bool) (w : Word) : bitOf (withOwner o d w) 31 = o := withOwner_bit o d w 31

theorem withOwner_discard (o d : Bool) (w : Word) : bitOf (withOwner o d w) 30 = d := withOwner_bit o d w 30

theorem withOwner_rest (o d : Bool) (w : Word) : (withOwner o d w).extractLsb' 0 30 = w.extractLsb' 0 30 := by
  apply BitVec.eq_of_getLsbD_eq
  intro i hi
  have hbit := withOwner_bit o d w ⟨i, by omega⟩
  simp only [BitVec.getLsbD_extractLsb', Nat.zero_add, hi, decide_true, Bool.true_and]
  rw [hbit, if_neg (by simp; omega), if_neg (by simp; omega)]

/-! ## The answer's effect -/

/-- A slot that an answer shows is READY (R83, case 6). -/
theorem modemAnswer_ready (h : modemAnswer s n = .present ∨ ∃ b, modemAnswer s n = .discard b) :
    s.ring.shadows[n].state = .ready := by
  unfold modemAnswer at h
  split at h
  · simp at h
  · split at h
    · simp at h
    · split at h
      · simp at h
      · simp at h
      · simp at h
      · assumption

/-- The ring record after an answer (R84). -/
def ringAnswered (s : State) (n : Fin 64) : Answer → RingRecord → RingRecord
  | .hold, r => { r with held := saturate countTop r.held }
  | .empty, r | .again, r => r
  | .present, r =>
    let h := s.ring.shadows[n]
    let last : LastShown := { slot := n, tag := h.tag, kind := h.kind, dest := h.dest }
    { r with lastShown := some last }
  | .discard _, r => { r with discards := saturate countTop r.discards }

/-- The shadow after an answer (R84). -/
def shadowAnswered : Answer → Shadow → Shadow
  | .hold, h | .empty, h | .again, h => h
  | .present, h => { h with state := .inFlight, shown := some .owned }
  | .discard _, h => { h with state := .inFlight, shown := some .discard }

/-- An answer shows the slot to the modem. -/
def Answer.shows : Answer → Bool
  | .hold | .empty | .again => false
  | .present | .discard _ => true

/-- What an answer does to the ring unit. -/
theorem applyAnswer_ring (addr : Addr) (w : Word) (a : Answer) (s : State) :
    (applyAnswer n addr w a s).ring.rings = modifyAt s.ring.rings (ringOf s n.val) (ringAnswered s n a)
      ∧ (applyAnswer n addr w a s).ring.shadows = modifyAt s.ring.shadows n (shadowAnswered a)
      ∧ (applyAnswer n addr w a s).ring.departed = (if a.shows then s.ring.departed.set n false else s.ring.departed) := by
  cases a with
  | hold => exact ⟨rfl, (modifyAt_id _ _ fun _ => rfl).symm, rfl⟩
  | empty => exact ⟨(modifyAt_id _ _ fun _ => rfl).symm, (modifyAt_id _ _ fun _ => rfl).symm, rfl⟩
  | again => exact ⟨(modifyAt_id _ _ fun _ => rfl).symm, (modifyAt_id _ _ fun _ => rfl).symm, rfl⟩
  | present => exact ⟨rfl, rfl, rfl⟩
  | discard badFrame =>
    cases badFrame with
    | false => exact ⟨rfl, rfl, rfl⟩
    | true =>
      have told := recordFault_within .badFrame (.bus .modem addr w)
        (countRing n (fun r => { r with discards := saturate countTop r.discards }) (showSlot n .discard s))
      exact ⟨told.1.rings (by simp), told.2.2.2.2.2.2.2.1, told.1.departed (by simp) (by simp)⟩

/-- A read leaves its slot as the answer says, through the end of the event, if the slot stays. -/
theorem event_modemRead_slot (addr : Addr) (w : Word) (hrun : s.run = true) (hq : QueueKept s) (i : Fin 64) (hs : SlotStays s i) :
    (event (modemRead n addr w) s).ring.shadows[i]
      = if i = n then shadowAnswered (modemAnswer s n) s.ring.shadows[n] else s.ring.shadows[i] := by
  have kept := slotKept_beginEvent hq hs
  have beside := modemRead_beside n addr w (beginEvent s)
  have works := modemRead_works n addr w (beginEvent s)
  have hshadows : (modemRead n addr w (beginEvent s)).ring.shadows = modifyAt s.ring.shadows n (shadowAnswered (modemAnswer s n)) :=
    (applyAnswer_ring addr w (modemAnswer s n) _).2.1
  have told (k : Fin 16) (hk : Noticed k (modemRead n addr w (beginEvent s))) : Noticed k (beginEvent s) :=
    works.noticed beside.2.2.1 (by decide) k hk
  refine SlotKept.event ?_ ((pathKept_beginEvent hq).works beside works hrun)
  split
  · rename_i hi
    subst hi
    have hshadow : (modemRead i addr w (beginEvent s)).ring.shadows[i] = shadowAnswered (modemAnswer s i) s.ring.shadows[i] := by
      rw [hshadows]
      exact modifyAt_self _ _ _
    have hstart : ringStart (modemRead i addr w (beginEvent s)) 1 = ringStart s 1 := by
      simp only [ringStart, works.effective]
      rfl
    cases ha : modemAnswer s i with
    | hold | empty | again =>
      rw [ha] at hshadow
      exact kept.of_same works.effective hshadow told
    | present =>
      rw [ha] at hshadow
      have hready := modemAnswer_ready (.inl ha)
      refine ⟨hshadow, .inr (by simp [shadowAnswered]), fun k hk hki => ?_⟩
      exact absurd (hready.symm.trans (kept.spared k (told k hk) hki)) (by decide)
    | discard b =>
      rw [ha] at hshadow
      have hready := modemAnswer_ready (.inr ⟨b, ha⟩)
      refine ⟨hshadow, .inr (by simp [shadowAnswered]), fun k hk hki => ?_⟩
      exact absurd (hready.symm.trans (kept.spared k (told k hk) hki)) (by decide)
  · rename_i hi
    refine kept.of_same works.effective ?_ told
    rw [hshadows]
    exact modifyAt_other _ _ hi

theorem shownFields_owner (s : State) (n : Fin 64) (a : Answer) : (shownFields s n a).1 = (a != .hold && a != .empty) := by
  cases a with
  | hold | empty | again | present => rfl
  | discard b => rfl

theorem shownFields_discard (s : State) (n : Fin 64) (a : Answer) : (shownFields s n a).2
    = (a == .discard true || a == .discard false || (a == .again && s.ring.shadows[n].shown == some .discard)) := by
  cases a with
  | hold | empty | present => rfl
  | again => exact (Bool.true_and _).symm
  | discard b =>
    cases b with
    | true => rfl
    | false => rfl

theorem Answer.shows_eq (a : Answer) : a.shows = (a == .present || a == .discard true || a == .discard false) := by
  cases a with
  | hold | empty | again | present => rfl
  | discard b =>
    cases b with
    | true => rfl
    | false => rfl

/-- The counts of a ring record after an answer. -/
theorem ringAnswered_counts (s : State) (n : Fin 64) (a : Answer) (r : RingRecord) :
    (ringAnswered s n a r).held = (if a = .hold then saturate countTop r.held else r.held)
      ∧ (ringAnswered s n a r).discards = (if a = .discard true ∨ a = .discard false then saturate countTop r.discards else r.discards)
      ∧ (ringAnswered s n a r).lastShown = (if a = .present then
          some { slot := n, tag := s.ring.shadows[n].tag, kind := s.ring.shadows[n].kind, dest := s.ring.shadows[n].dest }
        else r.lastShown)
      ∧ (ringAnswered s n a r).next = r.next ∧ (ringAnswered s n a r).failed = r.failed := by
  cases a with
  | hold | empty | again | present => exact ⟨rfl, rfl, rfl, rfl, rfl⟩
  | discard b =>
    cases b with
    | true => exact ⟨rfl, rfl, rfl, rfl, rfl⟩
    | false => exact ⟨rfl, rfl, rfl, rfl, rfl⟩

theorem exec_modemTxPartialRead {addr : Addr} {lanes : BitVec 4} (hrun : s.run = true) (hpart : fullWordAccess addr lanes = false)
    (hat : regionAt s (wordBase addr.toNat) = some (.txSlots, 16 * n.val)) :
    exec (.modemTxPartialRead addr lanes) s
      = .next { s with readData := partialShown lanes (memWord s.mem (wordBase addr.toNat)) } := by
  have harm : exec (.modemTxPartialRead addr lanes) s = .next (serveRead { init := .modem, addr := addr, lanes := lanes } s) := rfl
  have hat' : regionAt s ({ init := .modem, addr := addr, lanes := lanes } : Access).wordAddr = some (.txSlots, 16 * n.val) := hat
  have hpart' : ({ init := .modem, addr := addr, lanes := lanes } : Access).isFull = false := hpart
  rw [harm]
  simp only [serveRead, hrun, hat', hpart', Nat.mul_mod_right]
  rfl

/-- Settles O28: the answer's word, ring record and shadow, through the end of the event. -/
theorem modemReadRewritten : Obligations.ModemReadRewritten := by
  unfold Obligations.ModemReadRewritten
  refine ⟨fun addr n s hrun hfull hat hq => ?_, fun addr lanes n s hrun hpart hat => ?_⟩
  · refine ⟨_, exec_modemTxRead hrun hfull hat, ?_⟩
    generalize memWord s.mem (wordBase addr.toNat) = w
    have acted := event_sameBut_acted (modemRead n addr w) s
    have hread : (event (modemRead n addr w) s).readData = shownWord s n (modemAnswer s n) w :=
      (acted.readData (by simp)).trans ((applyAnswer_beside n addr w (modemAnswer s n) _).1.readData (by simp))
    obtain ⟨hrings, -, hdeparted⟩ := applyAnswer_ring (n := n) addr w (modemAnswer s n)
      { beginEvent s with readData := shownWord s n (modemAnswer s n) w }
    have hrings : (event (modemRead n addr w) s).ring.rings
        = modifyAt s.ring.rings (ringOf s n.val) (ringAnswered s n (modemAnswer s n)) := (acted.rings (by simp)).trans hrings
    have hdeparted : (event (modemRead n addr w) s).ring.departed
        = if (modemAnswer s n).shows then s.ring.departed.set n false else s.ring.departed :=
      (acted.departed (by simp) (by simp)).trans hdeparted
    have hself : (event (modemRead n addr w) s).ring.rings[ringOf s n.val]
        = ringAnswered s n (modemAnswer s n) s.ring.rings[ringOf s n.val] := by
      rw [hrings]
      exact modifyAt_self _ _ _
    obtain ⟨hheld, hdiscards, hlast, hnext, hfailed⟩ := ringAnswered_counts s n (modemAnswer s n) s.ring.rings[ringOf s n.val]
    dsimp only
    refine ⟨⟨?_, ?_, ?_, ?_, ?_, ?_, ?_, ?_, fun k hk => ?_, fun hs => ?_, fun m hm hs => ?_, ?_, fun m hm => ?_⟩, ?_⟩
    · rw [hread]
      exact withOwner_rest _ _ _
    · rw [hread]
      exact (withOwner_owner _ _ _).trans (shownFields_owner s n _)
    · rw [hread]
      exact (withOwner_discard _ _ _).trans (shownFields_discard s n _)
    · rw [hself, hheld]
    · rw [hself, hdiscards]
    · rw [hself, hlast]
    · rw [hself, hnext]
    · rw [hself, hfailed]
    · rw [hrings]
      exact modifyAt_other _ _ hk
    · rw [event_modemRead_slot addr w hrun hq n hs, if_pos rfl]
      cases modemAnswer s n with
      | hold | empty | again | present => rfl
      | discard b => rfl
    · rw [event_modemRead_slot addr w hrun hq m hs, if_neg hm]
    · rw [hdeparted, ← Answer.shows_eq]
      cases (modemAnswer s n).shows with
      | true => simp
      | false => simp
    · rw [hdeparted]
      cases (modemAnswer s n).shows with
      | true =>
        have hne : n.val ≠ m.val := fun he => hm (Fin.ext he.symm)
        simp [hne]
      | false => rfl
    · exact event_sameBut (modemRead_beside n addr w _).1
  · exact ⟨_, exec_modemTxPartialRead hrun hpart hat, rfl⟩

end

end Sys2Proof.Machine
end

section
/-! PROOFS. Units at rest in a state that has changed elsewhere, and the frame that a served send list builds (R95, R96). -/

set_option Elab.async false

namespace Sys2Proof.Machine

open Sys2Proof.Config

section
variable {n : Fin 64} {w : Word} {s s0 t a a0 : State}

/-! ## Units that are left alone -/

/-- What the level, the roads and the roll call read is the same in two states. -/
structure UnitsAlike (s a : State) : Prop where
  run : a.run = s.run
  level : a.level = s.level
  road : a.road = s.road
  chambers : a.chambers = s.chambers
  distress : a.call.distress = s.call.distress

/-- With the other units at rest, the send list is all that can be left. -/
theorem UnitsAlike.next (h : UnitsAlike s a) (h0 : a0.level.level = s0.level.level) (hrun : s.run = true)
    (hunits : settleUnits s0 s = none) (hreq : a.ring.requests = []) :
    settleUnits a0 a = if canBuild a then some (buildFrame a) else none := by
  obtain ⟨hlevel, hmarked, hforget, hmuster, -, -⟩ := settleUnits_none hrun hunits
  have hdue : levelDue a = levelDue s := by simp only [levelDue, h.run, h.level]
  have hplace : placeless a = placeless s := by
    funext id
    simp only [placeless, h.road]
  have hfigures : figures a a.level.muster = figures s s.level.muster := by
    simp only [figures, lostCount, h.level, h.road, h.chambers, h.distress]
  have hlevel' : levelFirst a0 a = false := by
    rw [levelFirst, hdue, h.level, h0]
    exact hlevel
  have hmarked' : firstMarked a = none := by
    rw [firstMarked, h.road]
    exact hmarked
  have hforget' : firstForgettable a = none := by
    rw [firstForgettable, h.road, hplace]
    exact hforget
  have hmuster' : musterStale a = false := by
    rw [musterStale, hfigures, h.level]
    exact hmuster
  unfold settleUnits
  simp only [h.run, hrun, hlevel', hmarked', hforget', hmuster', hreq]
  rfl

theorem UnitsAlike.rest (h : UnitsAlike s a) (h0 : a0.level.level = s0.level.level) (hrun : s.run = true)
    (hunits : settleUnits s0 s = none) (hreq : a.ring.requests = []) (hbuild : canBuild a = false) : settleUnits a0 a = none := by
  rw [h.next h0 hrun hunits hreq, hbuild]
  rfl

theorem UnitsAlike.not_due (h : UnitsAlike s a) (hdue : levelDue s = false) : levelDue a = false := by
  rw [← hdue]
  simp only [levelDue, h.run, h.level]

/-! ## A settled state -/

theorem settled_iff : Settled s ↔ followUpFree (beginEvent s) = false ∧ settleUnits (beginEvent s) (beginEvent s) = none := by
  refine ⟨fun h => ?_, fun ⟨hfree, hunits⟩ => ?_⟩
  · unfold Settled settleStep at h
    split at h
    · cases h
    · rename_i hfree
      split at h
      · cases h
      · exact ⟨by simpa using hfree, ‹_›⟩
  · exact AtRest.step ⟨hunits, hfree⟩

theorem Settled.rest (h : Settled s) : settleUnits (beginEvent s) (beginEvent s) = none := (settled_iff.mp h).2

/-- A follow-up value that a settled state holds waits for its entry. -/
theorem Settled.held (h : Settled s) (hf : s.path.followUp.isSome = true) : queued s.path.queue (eventsAddr s 0) = true := by
  have hfree : (s.path.followUp.isSome && !queued s.path.queue (eventsAddr s 0)) = false := (settled_iff.mp h).1
  simpa [hf] using hfree

theorem Settled.not_built (h : Settled s) (hrun : s.run = true) : canBuild s = false :=
  (settleUnits_none (s := beginEvent s) hrun h.rest).2.2.2.2.2

/-- A word that reaches memory leaves a settled state settled. -/
theorem Settled.reachMemory {x : Access} (h : Settled s) (hrun : s.run = true) : Settled (reachMemory x w s) := by
  refine settled_iff.mpr ⟨(settled_iff.mp h).1, ?_⟩
  exact UnitsAlike.rest (s := beginEvent s) (s0 := beginEvent s) ⟨rfl, rfl, rfl, rfl, rfl⟩ rfl hrun h.rest rfl (h.not_built hrun)

/-! ## A built frame -/

/-- The send list is served where the part is in RUN, the scan has ended, the slot at the fill index is EMPTY without a frame record, and
a frame waits (R95). -/
theorem canBuild_iff : canBuild s = true ↔ s.run = true ∧ s.path.scanCursor = 64
    ∧ s.ring.shadows[Fin.ofNat 64 s.ring.fill.val].state = .empty ∧ s.ring.records[s.ring.fill] = none ∧ s.ring.list ≠ [] := by
  simp only [canBuild, fillShadow, Bool.and_eq_true, beq_iff_eq, Option.isNone_iff_eq_none, Bool.not_eq_true', List.isEmpty_eq_false_iff,
    and_assoc]

theorem layout_single (width k : Nat) : layout [(0, width, k)] = word (k % 2 ^ width) := by
  have hvalue : 0 + k % 2 ^ width * 2 ^ 0 = k % 2 ^ width := by rw [pow_zero, Nat.mul_one, Nat.zero_add]
  exact congrArg (BitVec.ofNat 32) hvalue

theorem partFrame_code_mem (f : PartFrame) : PartFrame.code f ∈ [0x10, 0x11, 0x12, 0x13, 0x18, 0x19, 0x1A] := by
  cases f <;> simp [PartFrame.code]

theorem kindWord_eq_of_mem : ∀ c ∈ [0x10, 0x11, 0x12, 0x13, 0x18, 0x19, 0x1A],
    layout [(8, 12, 4095), (20, 8, c)] = word (c * 2 ^ 20 + 4095 * 2 ^ 8) := by decide

theorem kindWord_eq (f : PartFrame) :
    layout [(8, 12, 4095), (20, 8, PartFrame.code f)] = word (PartFrame.code f * 2 ^ 20 + 4095 * 2 ^ 8) :=
  kindWord_eq_of_mem _ (partFrame_code_mem f)

/-- The seven own-writes of a built frame. -/
theorem frameWrites_eq (s : State) (f : PartFrame) :
    frameWrites s s.ring.fill f (s.ring.seq + 1) = (builtWrites s f).map .write := by
  simp only [frameWrites, builtWrites, List.map_append, List.map_cons, List.map_nil, layout_single, kindWord_eq]
  congr 1
  rw [List.mapIdx_eq_zipIdx_map, List.mapIdx_eq_zipIdx_map, List.map_map]
  rfl

/-- The state in which the first waiting frame has been built. -/
def frameBuilt (f : PartFrame) (rest : List PartFrame) (s : State) : State := { s with
  ring := { s.ring with
    list := rest
    seq := s.ring.seq + 1
    records := s.ring.records.set s.ring.fill (some { frame := f, seq := s.ring.seq + 1, withdrawn := false })
    shadows := modifyAt s.ring.shadows (Fin.ofNat 64 s.ring.fill.val)
      (fun h => { h with tag := 0, dest := 4095, kind := BitVec.ofNat 8 (PartFrame.code f) }) }
  path := { s.path with
    posts := s.path.posts ++ (builtWrites s f).map .write
    reports := s.path.reports ++ (fillWords s).map .changed } }

/-- The report words of a slot's ring, its slot state word and the send list word. -/
def slotWords (s : State) (slot : Nat) : List Nat :=
  wordRange (0x120 + 16 * (ringOf s slot).val) 4 ++ [0x160 + 4 * (slot / 16), 0x170]

theorem slotWords_eq (s : State) (slot : Nat) : slotWords s slot =
    [0x120 + 16 * (ringOf s slot).val, 0x124 + 16 * (ringOf s slot).val, 0x128 + 16 * (ringOf s slot).val,
      0x12C + 16 * (ringOf s slot).val, 0x160 + 4 * (slot / 16)] ++ [0x170] := by
  generalize hr : (ringOf s slot).val = r
  simp only [slotWords, hr, wordRange, List.range_succ, List.range_zero, List.map_cons, List.map_nil, List.nil_append,
    List.cons_append, List.cons.injEq, and_true]
  omega

theorem slotWords_congr (h : t.effective = s.effective) : slotWords t = slotWords s := by
  funext slot
  have hring : ringOf t slot = ringOf s slot := by
    unfold ringOf ringStart
    rw [h]
  rw [slotWords, slotWords, hring]

theorem fillWords_eq (s : State) : fillWords s = slotWords s s.ring.fill.val := rfl

theorem buildFrame_eq {f : PartFrame} {rest : List PartFrame} (h : s.ring.list = f :: rest) : buildFrame s = frameBuilt f rest s := by
  have hslot : (Fin.ofNat 64 s.ring.fill.val : Fin 64).val = s.ring.fill.val := Nat.mod_eq_of_lt (by omega)
  unfold buildFrame
  rw [h]
  dsimp only
  rw [frameWrites_eq]
  unfold frameBuilt
  rw [fillWords_eq, slotWords_eq, List.map_append, ← List.append_assoc]
  simp only [changeShadow, postRing, hslot]
  rfl

/-! ## Events that act on the ring unit alone -/

/-- From the state in which an event begins, `a` follows by an action on the ring unit that names only these report words. -/
structure RingEvent (W : List Nat) (s a : State) : Prop where
  alike : UnitsAlike s a
  strap : a.strap = s.strap
  effective : a.effective = s.effective
  requests : a.ring.requests = []
  queue : a.path.queue = s.path.queue
  followUp : a.path.followUp = s.path.followUp
  posts : a.path.posts = []
  outcome : a.path.outcome = none
  reports : ∀ x ∈ a.path.reports, ∃ o ∈ W, x = .changed o ∨ x = .always o

variable {W : List Nat} {f : State → State}

theorem RingEvent.fits {L : List Addr} (h : RingEvent W (beginEvent s) a) (hq : QueueKept s) (hset : Settled s) (hsize : L.length ≤ 32)
    (hL : ∀ w ∈ s.path.queue, w.addr ∈ L) (hW : ∀ o ∈ W, reportAddr a o ∈ L) : Fits L a a.path where
  size := hsize
  distinct := by
    rw [h.queue]
    exact hq.2.1
  queue w hw := hL w (h.queue ▸ hw)
  posts x hx := by
    rw [h.posts] at hx
    cases hx
  reports x hx := by
    obtain ⟨o, ho, rfl | rfl⟩ := h.reports x hx
    · exact hW o ho
    · exact hW o ho
  outcome ho := by
    rw [h.outcome] at ho
    cases ho
  held hf := by
    have hsame : eventsAddr a 0 = eventsAddr s 0 := by
      rw [eventsAddr, h.effective]
      rfl
    rw [h.queue, hsame]
    exact hset.held (h.followUp ▸ hf)
  cursor := rfl

/-- The addresses that the queue and some report words take. -/
def takenAddrs (s a : State) (W : List Nat) : List Addr := s.path.queue.map (·.addr) ++ W.map (reportAddr a)

/-- Where no frame can be built, such an event changes beyond its action the path unit and the lines alone. -/
theorem RingEvent.event_rest (h : RingEvent W (beginEvent s) (f (beginEvent s))) (hrun : s.run = true) (hq : QueueKept s)
    (hset : Settled s) (hroom : s.path.queue.length + W.length ≤ 32) (hbuild : canBuild (f (beginEvent s)) = false) :
    ∃ p, event f s = driveLines { f (beginEvent s) with path := p } := by
  have hunits := h.alike.rest (a0 := beginEvent s) rfl hrun hset.rest h.requests hbuild
  have fits := h.fits (L := takenAddrs s (f (beginEvent s)) W) hq hset
    (by rwa [takenAddrs, List.length_append, List.length_map, List.length_map])
    (fun w hw => List.mem_append_left _ (List.mem_map.mpr ⟨w, hw, rfl⟩))
    (fun o ho => List.mem_append_right _ (List.mem_map.mpr ⟨o, ho, rfl⟩))
  obtain ⟨p, he, -⟩ := fits.settle hunits settleBound
  exact ⟨p, event_of_settle hrun he (h.alike.not_due (hset.units hrun).2.1)⟩

theorem builtWrites_plain {s : State} {f : PartFrame} {w : OwnWrite} (hw : w ∈ builtWrites s f) : w.kind = .plain := by
  simp only [builtWrites, List.mem_append, List.mem_cons, List.not_mem_nil, or_false] at hw
  rcases hw with hw | rfl | rfl | rfl
  · obtain ⟨k, hk, rfl⟩ := List.mem_mapIdx.mp hw
    rfl
  · rfl
  · rfl
  · rfl

theorem builtWrites_length (s : State) (f : PartFrame) : (builtWrites s f).length = 7 := by
  simp only [builtWrites, List.length_append, List.length_mapIdx, builtWords_length]
  rfl

/-- A slot with a frame record admits no frame. -/
theorem frameBuilt_not_built (g : PartFrame) (rest : List PartFrame) (s : State) : canBuild (frameBuilt g rest s) = false := by
  have hrecord : (frameBuilt g rest s).ring.records[(frameBuilt g rest s).ring.fill] ≠ none := by
    show (s.ring.records.set s.ring.fill (some ({ frame := g, seq := s.ring.seq + 1, withdrawn := false } : FrameRecord)))[s.ring.fill]
      ≠ none
    simp
  simp only [canBuild, Bool.and_eq_false_iff]
  refine .inl (.inr ?_)
  cases hr : (frameBuilt g rest s).ring.records[(frameBuilt g rest s).ring.fill] with
  | none => exact absurd hr hrecord
  | some r => rfl

/-- Where the first waiting frame can be built, such an event builds it, and changes beyond that the path unit and the lines alone. -/
theorem RingEvent.event_builds {g : PartFrame} {rest : List PartFrame} (h : RingEvent W (beginEvent s) (f (beginEvent s)))
    (hrun : s.run = true) (hq : QueueKept s) (hset : Settled s) (hroom : s.path.queue.length + 7 + W.length ≤ 32)
    (hbuild : canBuild (f (beginEvent s)) = true) (hlist : (f (beginEvent s)).ring.list = g :: rest)
    (hfill : ∀ o ∈ fillWords (f (beginEvent s)), o ∈ W) :
    ∃ p, event f s = driveLines { frameBuilt g rest (f (beginEvent s)) with path := p } := by
  have hfree : followUpFree (f (beginEvent s)) = false :=
    (h.fits (L := takenAddrs s (f (beginEvent s)) W) hq hset
      (by rw [takenAddrs, List.length_append, List.length_map, List.length_map]; omega)
      (fun w hw => List.mem_append_left _ (List.mem_map.mpr ⟨w, hw, rfl⟩))
      (fun o ho => List.mem_append_right _ (List.mem_map.mpr ⟨o, ho, rfl⟩))).free
  have hunits := h.alike.next (a0 := beginEvent s) rfl hrun hset.rest h.requests
  rw [hbuild, if_pos rfl, buildFrame_eq hlist] at hunits
  have first : SettlesIn 1 (beginEvent s) (f (beginEvent s)) (frameBuilt g rest (f (beginEvent s))) := by
    refine .of_step ?_
    rw [settleStep, hfree, hunits]
    rfl
  have alike : UnitsAlike (beginEvent s) (frameBuilt g rest (f (beginEvent s))) :=
    ⟨h.alike.run, h.alike.level, h.alike.road, h.alike.chambers, h.alike.distress⟩
  have hafter : settleUnits (beginEvent s) (frameBuilt g rest (f (beginEvent s))) = none :=
    alike.rest (a0 := beginEvent s) rfl hrun hset.rest h.requests (frameBuilt_not_built _ _ _)
  have base := h.fits (L := takenAddrs s (f (beginEvent s)) W ++ (builtWrites (f (beginEvent s)) g).map (·.addr)) hq hset
    (by rw [takenAddrs, List.length_append, List.length_append, List.length_map, List.length_map, List.length_map,
      builtWrites_length]; omega)
    (fun w hw => List.mem_append_left _ (List.mem_append_left _ (List.mem_map.mpr ⟨w, hw, rfl⟩)))
    (fun o ho => List.mem_append_left _ (List.mem_append_right _ (List.mem_map.mpr ⟨o, ho, rfl⟩)))
  have fits : Fits (takenAddrs s (f (beginEvent s)) W ++ (builtWrites (f (beginEvent s)) g).map (·.addr))
      (frameBuilt g rest (f (beginEvent s))) (frameBuilt g rest (f (beginEvent s))).path := by
    refine ⟨base.size, base.distinct, base.queue, fun x hx => ?_, fun x hx => ?_, base.outcome, base.held, rfl⟩
    · rcases List.mem_append.mp hx with hx | hx
      · exact base.posts x hx
      · obtain ⟨w, hw, rfl⟩ := List.mem_map.mp hx
        refine ⟨List.mem_append_right _ (List.mem_map.mpr ⟨w, hw, rfl⟩), fun hk => ?_⟩
        rw [builtWrites_plain hw] at hk
        cases hk
    · rcases List.mem_append.mp hx with hx | hx
      · exact base.reports x hx
      · obtain ⟨o, ho, rfl⟩ := List.mem_map.mp hx
        exact List.mem_append_left _ (List.mem_append_right _ (List.mem_map.mpr ⟨o, hfill o ho, rfl⟩))
  obtain ⟨p, he, -⟩ := fits.settle hafter 19999
  refine ⟨p, event_of_settle hrun ?_ (alike.not_due (hset.units hrun).2.1)⟩
  rw [settleBound_succ, first 19999]
  exact he

/-! ## The queue behind a built frame -/

theorem reportAddr_congr (h : t.effective = s.effective) : reportAddr t = reportAddr s := by
  funext o
  rw [reportAddr, reportAddr, h]

/-- Behind a built frame's own-writes stand the report words that changed, where their addresses are new and find room. -/
theorem frameBuilt_settles {g : PartFrame} {rest : List PartFrame} {R : List Nat} (hcalm : Calm s0 (frameBuilt g rest a) a.path.queue)
    (hposts : a.path.posts = []) (hreports : a.path.reports = R.map .changed) (hshown : a.path.shown = [])
    (hout : a.path.outcome = none) (hR : ∀ o ∈ R, o ∈ W) (hfill : ∀ o ∈ fillWords a, o ∈ W)
    (hnew : ((a.path.queue ++ builtWrites a g).map (·.addr) ++ W.map (reportAddr a)).Nodup)
    (hroom : a.path.queue.length + 7 + (changedWords s0 (frameBuilt g rest a) W).length ≤ 32) :
    ∃ k ≤ 9 + (R ++ fillWords a).length, SettlesIn k s0 (frameBuilt g rest a)
        (lined (a.path.queue ++ builtWrites a g ++ (enteredWords s0 (frameBuilt g rest a) [] (R ++ fillWords a)).map
          (mirrorWrite (frameBuilt g rest a))) [] [] [] none (frameBuilt g rest a))
      ∧ settleStep s0 (lined (a.path.queue ++ builtWrites a g ++ (enteredWords s0 (frameBuilt g rest a) [] (R ++ fillWords a)).map
          (mirrorWrite (frameBuilt g rest a))) [] [] [] none (frameBuilt g rest a)) = none := by
  have hposts' : (frameBuilt g rest a).path.posts = (builtWrites a g).map .write := by
    show a.path.posts ++ _ = _
    rw [hposts, List.nil_append]
  have hreports' : (frameBuilt g rest a).path.reports = (R ++ fillWords a).map .changed := by
    show a.path.reports ++ _ = _
    rw [hreports, List.map_append]
  have hout' : (frameBuilt g rest a).path.outcome = none := hout
  have haddr : reportAddr (frameBuilt g rest a) = reportAddr a := reportAddr_congr rfl
  obtain ⟨k, hk, hsettles, hended⟩ := settles_with_room (s := frameBuilt g rest a) (words := W) hcalm hposts' hreports' hshown
    (fun o ho => (List.mem_append.mp ho).elim (hR o) (hfill o)) (by rw [haddr]; exact hnew)
    (fun h => by rw [hout'] at h; cases h) (by
      rw [hout', List.length_append, builtWrites_length]
      exact hroom)
  rw [hout', Option.map_none, Option.toList_none, List.append_nil] at hsettles hended
  rw [builtWrites_length] at hk
  exact ⟨k, by omega, hsettles, hended⟩

/-- The queue after an event that acts on the ring unit alone and builds the first waiting frame. -/
theorem RingEvent.event_builds_queue {g : PartFrame} {rest : List PartFrame} {R : List Nat}
    (h : RingEvent W (beginEvent s) (f (beginEvent s))) (hrun : s.run = true) (hset : Settled s)
    (hbuild : canBuild (f (beginEvent s)) = true) (hlist : (f (beginEvent s)).ring.list = g :: rest)
    (hreports : (f (beginEvent s)).path.reports = R.map .changed) (hshown : (f (beginEvent s)).path.shown = [])
    (hR : ∀ o ∈ R, o ∈ W) (hcount : R.length ≤ 100) (hfill : ∀ o ∈ fillWords (f (beginEvent s)), o ∈ W)
    (hnew : ((s.path.queue ++ builtWrites (f (beginEvent s)) g).map (·.addr) ++ W.map (reportAddr (f (beginEvent s)))).Nodup)
    (hroom : s.path.queue.length + 7 + W.length ≤ 32) :
    ∃ words : List OwnWrite, (event f s).path.queue = s.path.queue ++ builtWrites (f (beginEvent s)) g ++ words := by
  have hqueue : (f (beginEvent s)).path.queue = s.path.queue := h.queue
  have hsame : eventsAddr (f (beginEvent s)) 0 = eventsAddr s 0 := by
    rw [eventsAddr, h.effective]
    rfl
  have held : (f (beginEvent s)).path.followUp.isSome = true →
      queued (f (beginEvent s)).path.queue (eventsAddr (f (beginEvent s)) 0) = true := fun hf => by
    rw [hqueue, hsame]
    exact hset.held (h.followUp ▸ hf)
  have hfree : followUpFree (f (beginEvent s)) = false := by
    rw [followUpFree]
    cases hf : (f (beginEvent s)).path.followUp.isSome with
    | false => rfl
    | true => rw [held hf]; rfl
  have hunits := h.alike.next (a0 := beginEvent s) rfl hrun hset.rest h.requests
  rw [hbuild, if_pos rfl, buildFrame_eq hlist] at hunits
  have first : SettlesIn 1 (beginEvent s) (f (beginEvent s)) (frameBuilt g rest (f (beginEvent s))) := by
    refine .of_step ?_
    rw [settleStep, hfree, hunits]
    rfl
  have alike : UnitsAlike (beginEvent s) (frameBuilt g rest (f (beginEvent s))) :=
    ⟨h.alike.run, h.alike.level, h.alike.road, h.alike.chambers, h.alike.distress⟩
  have hcalm : Calm (beginEvent s) (frameBuilt g rest (f (beginEvent s))) (f (beginEvent s)).path.queue :=
    ⟨alike.rest (a0 := beginEvent s) rfl hrun hset.rest h.requests (frameBuilt_not_built _ _ _), held⟩
  obtain ⟨k, hk, hsettles, hended⟩ := frameBuilt_settles hcalm h.posts hreports hshown h.outcome hR hfill
    (by rw [hqueue]; exact hnew) (by
      have hsome : (changedWords (beginEvent s) (frameBuilt g rest (f (beginEvent s))) W).length ≤ W.length := List.length_filter_le _ _
      rw [hqueue]
      omega)
  have hlen : (fillWords (f (beginEvent s))).length = 6 := by
    rw [fillWords_eq, slotWords_eq]
    rfl
  rw [List.length_append, hlen] at hk
  rw [event_of_settle hrun ((first.trans hsettles).settled (by omega) hended) (alike.not_due (hset.units hrun).2.1)]
  refine ⟨(enteredWords (beginEvent s) (frameBuilt g rest (f (beginEvent s))) [] (R ++ fillWords (f (beginEvent s)))).map
    (mirrorWrite (frameBuilt g rest (f (beginEvent s)))), ?_⟩
  rw [← hqueue]
  rfl

end

end Sys2Proof.Machine
end

section
/-! PROOFS. Completions and strays of the modem (R86, R87): what a completion does to the ring and to the call of its frame, and, in the
PART ring, the frame that is built in the freed slot. -/

set_option Elab.async false

namespace Sys2Proof.Machine

open Sys2Proof.Config

section
variable {n : Fin 64} {w : Word} {s t : State}

/-! ## A completion -/

/-- The shadow of a completed slot (R86). -/
def freedShadow (h : Shadow) : Shadow := { h with state := .empty, shown := none }

/-- The record of a ring whose head is completed (R86). -/
def completedRing (s : State) (n : Fin 64) (w : Word) (g : RingRecord) : RingRecord :=
  { g with
    next := some (slotAfter s n.val), failed := if writtenStatus w = 3 then saturate countTop g.failed else g.failed }

/-- The completion is that of a frame SENT in the REFUGE or the CALL ring, with a tag (R86, R119). -/
def SentFor (s : State) (n : Fin 64) (w : Word) : Prop :=
  writtenStatus w = 1 ∧ s.ring.shadows[n].tag ≠ 0 ∧ (ringOf s n.val = 1 ∨ ringOf s n.val = 2)

/-- Step 1 of a completion: the slot is free and its ring has moved on. -/
def movedOn (n : Fin 64) (s : State) : State :=
  countRing n (fun g => { g with next := some (slotAfter s n.val) }) (changeShadow n freedShadow s)

/-- Step 2 of a completion that counts a failed frame. -/
def countedFailed (n : Fin 64) (s : State) : State := countRing n (fun g => { g with failed := saturate countTop g.failed }) s

/-- The cases of a completion. -/
theorem completeSlot_cases (n : Fin 64) (w : Word) (s : State) :
    (SentFor s n w ∧ completeSlot n w s = callSent n s.ring.shadows[n].tag (movedOn n s))
    ∨ (¬SentFor s n w ∧ ∃ u, u = (if writtenStatus w = 3 then countedFailed n (movedOn n s) else movedOn n s)
        ∧ completeSlot n w s = if ringOf s n.val = 0 then freeRecord n u else u) := by
  by_cases hsent : SentFor s n w
  · refine .inl ⟨hsent, ?_⟩
    obtain ⟨hstatus, htag, hring⟩ := hsent
    have hpart : ringOf s n.val ≠ 0 := by
      rcases hring with h | h
      · rw [h]; decide
      · rw [h]; decide
    unfold completeSlot
    dsimp only
    rw [if_neg hpart, if_pos ⟨hstatus, htag, hring⟩]
    rfl
  · refine .inr ⟨hsent, _, rfl, ?_⟩
    have hsent' : ¬(writtenStatus w = 1 ∧ s.ring.shadows[n].tag ≠ 0 ∧ (ringOf s n.val = 1 ∨ ringOf s n.val = 2)) := hsent
    unfold completeSlot
    dsimp only
    rw [if_neg hsent']
    rfl

theorem movedOn_ring (n : Fin 64) (s : State) : (movedOn n s).ring = { s.ring with
    shadows := modifyAt s.ring.shadows n freedShadow
    rings := modifyAt s.ring.rings (ringOf s n.val) (fun g => { g with next := some (slotAfter s n.val) }) } := rfl

theorem countedFailed_ring (n : Fin 64) (s : State) : (countedFailed n s).ring = { s.ring with
    rings := modifyAt s.ring.rings (ringOf s n.val) (fun g => { g with failed := saturate countTop g.failed }) } := rfl

theorem freeRecord_ring (n : Fin 64) (s : State) :
    (freeRecord n s).ring = { s.ring with records := s.ring.records.set (Fin.ofNat 16 n.val) none } := rfl

theorem movedOn_call (n : Fin 64) (s : State) : (movedOn n s).call = s.call := rfl

theorem countedFailed_call (n : Fin 64) (s : State) : (countedFailed n s).call = s.call := rfl

theorem freeRecord_call (n : Fin 64) (s : State) : (freeRecord n s).call = s.call := rfl

theorem callSent_ring (i : Fin 64) (tag : CallId) (s : State) : (callSent i tag s).ring = s.ring := by
  unfold callSent callVoice callActivity
  split
  · split
    · split
      · rfl
      · rfl
    · rfl
  · rfl

/-- What a completion does to the ring unit. -/
theorem completeSlot_ring (n : Fin 64) (w : Word) (s : State) : (completeSlot n w s).ring = { s.ring with
    shadows := modifyAt s.ring.shadows n freedShadow
    rings := modifyAt s.ring.rings (ringOf s n.val) (completedRing s n w)
    records := if ringOf s n.val = 0 then s.ring.records.set (Fin.ofNat 16 n.val) none else s.ring.records } := by
  rcases completeSlot_cases n w s with ⟨⟨hstatus, htag, hring⟩, he⟩ | ⟨hsent, u, hu, he⟩
  · have hpart : ringOf s n.val ≠ 0 := by
      rcases hring with h | h
      · rw [h]; decide
      · rw [h]; decide
    have hfailed : completedRing s n w = fun g => { g with next := some (slotAfter s n.val) } := by
      funext g
      rw [completedRing, hstatus]
      rfl
    rw [he, callSent_ring, movedOn_ring, if_neg hpart, hfailed]
  · have hring : u.ring = { s.ring with
        shadows := modifyAt s.ring.shadows n freedShadow
        rings := modifyAt s.ring.rings (ringOf s n.val) (completedRing s n w) } := by
      by_cases hstatus : writtenStatus w = 3
      · rw [hu, if_pos hstatus]
        have hfailed : completedRing s n w
            = fun g => { g with next := some (slotAfter s n.val), failed := saturate countTop g.failed } := by
          funext g
          rw [completedRing, hstatus]
          rfl
        have hsame : ringOf (movedOn n s) n.val = ringOf s n.val := rfl
        rw [countedFailed_ring, hsame, movedOn_ring, modifyAt_modifyAt, hfailed]
      · rw [hu, if_neg hstatus, movedOn_ring]
        have hfailed : completedRing s n w = fun g => { g with next := some (slotAfter s n.val) } := by
          funext g
          rw [completedRing, if_neg hstatus]
        rw [hfailed]
    rw [he]
    split
    · rw [freeRecord_ring, hring]
    · exact hring

/-- Where no call is active by it, a completion leaves the call unit. -/
theorem completeSlot_call_same (h : ¬(SentFor s n w ∧ s.effective.node.silenceAny = true ∧ s.ring.departed[n] = false)
    ∨ callPosition s s.ring.shadows[n].tag = none) : (completeSlot n w s).call = s.call := by
  rcases completeSlot_cases n w s with ⟨hsent, he⟩ | ⟨-, u, hu, he⟩
  · rw [he]
    have hpos : callPosition (movedOn n s) s.ring.shadows[n].tag = callPosition s s.ring.shadows[n].tag := rfl
    have hcond : ((movedOn n s).effective.node.silenceAny && !(movedOn n s).ring.departed[n])
        = (s.effective.node.silenceAny && !s.ring.departed[n]) := rfl
    unfold callSent
    rw [hcond]
    split
    · rename_i hc
      rw [Bool.and_eq_true, Bool.not_eq_true'] at hc
      rcases h with h | h
      · exact absurd ⟨hsent, hc⟩ h
      · unfold callVoice
        rw [hpos, h]
        exact movedOn_call n s
    · exact movedOn_call n s
  · have hcall : u.call = s.call := by
      rw [hu]
      split
      · rw [countedFailed_call, movedOn_call]
      · exact movedOn_call n s
    rw [he]
    split
    · rw [freeRecord_call, hcall]
    · exact hcall

/-- The activity of a call by a frame SENT (R119). -/
theorem completeSlot_call_active {p : Fin 8} {c : Call} (hsent : SentFor s n w) (hany : s.effective.node.silenceAny = true)
    (hhere : s.ring.departed[n] = false) (hp : callPosition s s.ring.shadows[n].tag = some p) (hc : s.call.table[p] = some c) :
    (completeSlot n w s).call = { s.call with table := s.call.table.set p (some
      { c with last := s.time, silence := Timer.start s.effective.node.silenceTime }) } := by
  rcases completeSlot_cases n w s with ⟨-, he⟩ | ⟨hnot, -⟩
  · rw [he]
    have hcond : ((movedOn n s).effective.node.silenceAny && !(movedOn n s).ring.departed[n]) = true := by
      show (s.effective.node.silenceAny && !s.ring.departed[n]) = true
      rw [hany, hhere]
      rfl
    have hpos : callPosition (movedOn n s) s.ring.shadows[n].tag = some p := hp
    have hat : (movedOn n s).call.table[p] = some c := hc
    unfold callSent callVoice callActivity
    rw [if_pos hcond, hpos]
    simp only [hat]
    rfl
  · exact absurd hsent hnot

/-! ## Events of a completion and of a stray -/

theorem modemWriteback_completes (addr : Addr) (h : isCompletion s n = true) :
    modemWriteback n addr w s = completeSlot n w s := if_pos h

theorem modemWriteback_strays (addr : Addr) (h : isCompletion s n = false) :
    modemWriteback n addr w s = recordFault .completionStray (.bus .modem addr w) s := if_neg (by rw [h]; decide)

theorem exec_modemTxWriteback {addr : Addr} {data : Word} (hrun : s.run = true) (hfull : fullWordAccess addr 0xF = true)
    (hat : regionAt s (wordBase addr.toNat) = some (.txSlots, 16 * n.val)) : exec (.modemTxWriteback addr data) s
      = .next (event (modemWriteback n addr data) (reachMemory (fullAccess .modem addr data) data s)) := by
  have harm : exec (.modemTxWriteback addr data) s = .next (serveWrite s.strap (fullAccess .modem addr data) s) := rfl
  have hperm : permitted s .modem .txSlots (16 * n.val) = true := by simp [permitted]
  have htaken : takenWord s .modem .txSlots (16 * n.val) = some (.txModem n) := by simp [takenWord]
  rw [harm, serveWrite_taken (a := fullAccess .modem addr data) hrun hat hperm htaken hfull]
  rfl

/-- A completion leaves the other slots that stay, and its own slot free if that lies outside the PART ring. -/
theorem event_completeSlot_slot {f : State → State} (hrun : s.run = true) (hq : QueueKept s)
    (hf : f (beginEvent s) = completeSlot n w (beginEvent s)) :
    (ringStart s 1 ≤ n.val → (event f s).ring.shadows[n] = freedShadow s.ring.shadows[n])
      ∧ ∀ i : Fin 64, i ≠ n → SlotStays s i → (event f s).ring.shadows[i] = s.ring.shadows[i] := by
  have beside := completeSlot_beside n w (beginEvent s)
  have works := completeSlot_works n w (beginEvent s)
  have hshadows : (completeSlot n w (beginEvent s)).ring.shadows = modifyAt s.ring.shadows n freedShadow := by
    rw [completeSlot_ring]
    rfl
  have told (k : Fin 16) (hk : Noticed k (completeSlot n w (beginEvent s))) : Noticed k (beginEvent s) :=
    works.noticed beside.2.2.1 (by decide) k hk
  have path : PathKept s.mem (f (beginEvent s)) := by
    rw [hf]
    exact (pathKept_beginEvent hq).works beside works hrun
  refine ⟨fun hout => SlotKept.event ?_ path, fun i hi hs => SlotKept.event ?_ path⟩
  · have kept := slotKept_beginEvent hq (.inl hout)
    have hstart : ringStart (completeSlot n w (beginEvent s)) 1 = ringStart s 1 := by
      simp only [ringStart, works.effective]
      rfl
    rw [hf]
    refine ⟨?_, .inl (hstart ▸ hout), fun k hk hkn => ?_⟩
    · rw [hshadows]
      exact modifyAt_self _ _ _
    · have hpart := (pathKept_beginEvent hq).noticed (told k hk)
      have hsame : ringStart (beginEvent s) 1 = ringStart s 1 := rfl
      omega
  · rw [hf]
    refine (slotKept_beginEvent hq hs).of_same works.effective ?_ told
    rw [hshadows]
    exact modifyAt_other _ _ hi

/-! ## A completion in the PART ring -/

/-- `t` follows from `s` by a change of the ring unit that names these report words. -/
def RingAct (R : List Nat) (s t : State) : Prop :=
  t = { s with ring := t.ring, path := { s.path with reports := s.path.reports ++ R.map .changed } }

theorem RingAct.trans {R R' : List Nat} {u : State} (h : RingAct R s u) (k : RingAct R' u t) : RingAct (R ++ R') s t := by
  unfold RingAct at *
  rw [k]
  generalize t.ring = r
  rw [h]
  simp only [List.map_append, List.append_assoc]

theorem changeShadow_act (n : Fin 64) (g : Shadow → Shadow) (s : State) :
    RingAct (slotWords s n.val).dropLast s (changeShadow n g s) := by
  rw [slotWords_eq, List.dropLast_concat]
  rfl

theorem countRing_act (n : Fin 64) (g : RingRecord → RingRecord) (s : State) :
    RingAct (slotWords s n.val).dropLast s (countRing n g s) := by
  rw [slotWords_eq, List.dropLast_concat]
  rfl

theorem freeRecord_act (n : Fin 64) (s : State) : RingAct [0x170] s (freeRecord n s) := rfl

theorem mem_slotWords_dropLast {slot o : Nat} (ho : o ∈ (slotWords s slot).dropLast) : o ∈ slotWords s slot :=
  (List.dropLast_sublist _).subset ho

theorem mem_slotWords_last (s : State) (slot : Nat) : 0x170 ∈ slotWords s slot := by
  rw [slotWords_eq]
  exact List.mem_append_right _ List.mem_cons_self

theorem slotWords_length (s : State) (slot : Nat) : (slotWords s slot).length = 6 := by
  rw [slotWords_eq]
  rfl

/-- A completion in the PART ring changes the ring unit and names words of its slot. -/
theorem completeSlot_part (hpart : ringOf s n.val = 0) :
    ∃ R : List Nat, (∀ o ∈ R, o ∈ slotWords s n.val) ∧ R.length ≤ 16 ∧ RingAct R s (completeSlot n w s) := by
  have sub {o : Nat} (ho : o ∈ (slotWords s n.val).dropLast) : o ∈ slotWords s n.val := mem_slotWords_dropLast ho
  have hlen : (slotWords s n.val).dropLast.length = 5 := by rw [List.length_dropLast, slotWords_length]
  have moved : RingAct ((slotWords s n.val).dropLast ++ (slotWords s n.val).dropLast) s (movedOn n s) :=
    (changeShadow_act n freedShadow s).trans (countRing_act n _ _)
  rcases completeSlot_cases n w s with ⟨⟨-, -, hring⟩, -⟩ | ⟨-, u, hu, he⟩
  · rw [hpart] at hring
    exact absurd hring (by decide)
  · rw [he, if_pos hpart, hu]
    split
    · have counted := (moved.trans (countRing_act n _ (movedOn n s))).trans (freeRecord_act n (countedFailed n (movedOn n s)))
      refine ⟨_, fun o ho => ?_, ?_, counted⟩
      · simp only [List.mem_append, List.mem_singleton] at ho
        rcases ho with ((ho | ho) | ho) | rfl
        · exact sub ho
        · exact sub ho
        · exact sub ho
        · exact mem_slotWords_last s _
      · have hsame : (slotWords (movedOn n s) n.val).dropLast.length = 5 := hlen
        simp only [List.length_append, hlen, hsame, List.length_singleton]
        decide
    · refine ⟨_, fun o ho => ?_, ?_, moved.trans (freeRecord_act n (movedOn n s))⟩
      · simp only [List.mem_append, List.mem_singleton] at ho
        rcases ho with (ho | ho) | rfl
        · exact sub ho
        · exact sub ho
        · exact mem_slotWords_last s _
      · simp only [List.length_append, hlen, List.length_singleton]
        decide

theorem RingAct.ringEvent {R : List Nat} (h : RingAct R (beginEvent s) t) (hreq : t.ring.requests = []) :
    RingEvent R (beginEvent s) t := by
  have ht : t = { beginEvent s with
      ring := t.ring, path := { (beginEvent s).path with reports := (beginEvent s).path.reports ++ R.map .changed } } := h
  exact {
    alike := ⟨by rw [ht], by rw [ht], by rw [ht], by rw [ht], by rw [ht]⟩
    strap := by rw [ht]
    effective := by rw [ht]
    requests := hreq
    queue := by rw [ht]
    followUp := by rw [ht]
    posts := by rw [ht]; rfl
    outcome := by rw [ht]; rfl
    reports := fun x hx => by
      have hr : t.path.reports = R.map .changed := by rw [ht]; rfl
      rw [hr] at hx
      obtain ⟨o, ho, rfl⟩ := List.mem_map.mp hx
      exact ⟨o, ho, .inl rfl⟩ }

theorem RingEvent.mono {W W' : List Nat} (h : RingEvent W s t) (hW : ∀ o ∈ W, o ∈ W') : RingEvent W' s t :=
  { h with
    reports := fun x hx => by
      obtain ⟨o, ho, hx⟩ := h.reports x hx
      exact ⟨o, hW o ho, hx⟩ }

section
variable (hpart : n.val < ringStart s 1)

include hpart

theorem part_slot : (Fin.ofNat 16 n.val : Fin 16).val = n.val := by
  have hone := ringStart_one s
  exact Nat.mod_eq_of_lt (by omega)

theorem part_ring : ringOf s n.val = 0 := if_pos hpart

/-- The slot at the fill index is the completed one exactly where the index names it. -/
theorem part_fill : s.ring.fill = Fin.ofNat 16 n.val ↔ Fin.ofNat 64 s.ring.fill.val = n := by
  have hslot := part_slot hpart
  have hfill : (Fin.ofNat 64 s.ring.fill.val : Fin 64).val = s.ring.fill.val := Nat.mod_eq_of_lt (by omega)
  refine ⟨fun h => Fin.ext ?_, fun h => Fin.ext ?_⟩
  · rw [hfill, h, hslot]
  · rw [hslot, ← h, hfill]

/-- No frame is built behind a completion that frees another slot than the one at the fill index, or where none waits. -/
theorem completeSlot_not_built (hnone : s.ring.fill ≠ Fin.ofNat 16 n.val ∨ s.ring.list = []) (hbuild : canBuild s = false) :
    canBuild (completeSlot n w s) = false := by
  have hring := completeSlot_ring n w s
  rw [part_ring hpart, if_pos rfl] at hring
  rw [Bool.eq_false_iff, ne_eq, canBuild_iff] at hbuild ⊢
  rintro ⟨hrun, hcursor, hshadow, hrecord, hlist⟩
  simp only [hring] at hshadow hrecord hlist
  rcases hnone with hne | hnil
  · refine hbuild ⟨?_, ?_, ?_, ?_, hlist⟩
    · exact (completeSlot_beside n w s).1.run.symm.trans hrun
    · exact ((completeSlot_beside n w s).1.path (by simp)).2.1.symm.trans hcursor
    · rw [← hshadow]
      exact congrArg Shadow.state (modifyAt_other s.ring.shadows freedShadow fun h => hne ((part_fill hpart).mpr h)).symm
    · rw [← hrecord]
      exact (Vector.getElem_set_ne _ _ fun h => hne (Fin.ext h.symm)).symm
  · exact hlist hnil

theorem completeSlot_built {g : PartFrame} {rest : List PartFrame} (hfill : s.ring.fill = Fin.ofNat 16 n.val)
    (hlist : s.ring.list = g :: rest) (hrun : s.run = true) (hcursor : s.path.scanCursor = 64) :
    canBuild (completeSlot n w s) = true := by
  have hring := completeSlot_ring n w s
  rw [part_ring hpart, if_pos rfl] at hring
  have hslot := (part_fill hpart).mp hfill
  rw [canBuild_iff]
  refine ⟨(completeSlot_beside n w s).1.run.trans hrun, ((completeSlot_beside n w s).1.path (by simp)).2.1.trans hcursor, ?_, ?_, ?_⟩
  · simp only [hring, hslot]
    exact congrArg Shadow.state (modifyAt_self s.ring.shadows n freedShadow)
  · simp only [hring, hfill]
    exact Vector.getElem_set_self _
  · rw [hring, ← List.isEmpty_eq_false_iff]
    simp only [hlist]
    rfl

/-- After a completion in the PART ring that builds no frame, the slot is free. -/
theorem event_part_free {f : State → State} (hrun : s.run = true) (hq : QueueKept s) (hset : Settled s)
    (hroom : s.path.queue.length + 13 ≤ 32) (hf : f (beginEvent s) = completeSlot n w (beginEvent s))
    (hnone : s.ring.fill ≠ Fin.ofNat 16 n.val ∨ s.ring.list = []) :
    (event f s).ring.shadows[n] = freedShadow s.ring.shadows[n]
      ∧ (event f s).ring.records = s.ring.records.set (Fin.ofNat 16 n.val) none
      ∧ (event f s).ring.list = s.ring.list ∧ (event f s).ring.seq = s.ring.seq := by
  obtain ⟨R, hR, -, hact⟩ := completeSlot_part (s := beginEvent s) (n := n) (w := w) (part_ring (s := beginEvent s) hpart)
  have hreq : (completeSlot n w (beginEvent s)).ring.requests = [] := by
    rw [completeSlot_ring]
    rfl
  have hevent : RingEvent (slotWords s n.val) (beginEvent s) (f (beginEvent s)) := hf ▸ (hact.ringEvent hreq).mono hR
  obtain ⟨p, he⟩ := hevent.event_rest hrun hq hset (by rw [slotWords_length]; omega)
    (hf ▸ completeSlot_not_built (s := beginEvent s) hpart hnone (hset.not_built hrun))
  have hring : (event f s).ring = (completeSlot n w (beginEvent s)).ring := by
    rw [he, hf]
    rfl
  rw [hring, completeSlot_ring, if_pos (part_ring (s := beginEvent s) hpart)]
  exact ⟨modifyAt_self s.ring.shadows n freedShadow, rfl, rfl, rfl⟩

/-- After a completion in the PART ring of the slot at the fill index the first waiting frame is built in it. -/
theorem event_part_built {f : State → State} {g : PartFrame} {rest : List PartFrame} (hrun : s.run = true) (hq : QueueKept s)
    (hset : Settled s) (hroom : s.path.queue.length + 13 ≤ 32) (hf : f (beginEvent s) = completeSlot n w (beginEvent s))
    (hfill : s.ring.fill = Fin.ofNat 16 n.val) (hlist : s.ring.list = g :: rest) (hcursor : s.path.scanCursor = 64) :
    (event f s).ring.shadows[n]
        = { freedShadow s.ring.shadows[n] with tag := 0, dest := 4095, kind := BitVec.ofNat 8 (PartFrame.code g) }
      ∧ (event f s).ring.records
        = s.ring.records.set (Fin.ofNat 16 n.val) (some { frame := g, seq := s.ring.seq + 1, withdrawn := false })
      ∧ (event f s).ring.list = rest ∧ (event f s).ring.seq = s.ring.seq + 1
      ∧ (((s.path.queue ++ builtWrites s g).map (·.addr) ++ (fillWords s).map (reportAddr s)).Nodup →
          ∃ words, (event f s).path.queue = s.path.queue ++ builtWrites s g ++ words) := by
  obtain ⟨R, hR, hcount, hact⟩ := completeSlot_part (s := beginEvent s) (n := n) (w := w) (part_ring (s := beginEvent s) hpart)
  have hring := completeSlot_ring n w (beginEvent s)
  have hreq : (completeSlot n w (beginEvent s)).ring.requests = [] := by
    rw [hring]
    rfl
  have hslot : s.ring.fill.val = n.val := by rw [hfill, part_slot hpart]
  have heff : (completeSlot n w (beginEvent s)).effective = s.effective := (hact.ringEvent hreq).effective
  have hindex : (completeSlot n w (beginEvent s)).ring.fill = s.ring.fill := by rw [hring]; rfl
  have hwords : fillWords (completeSlot n w (beginEvent s)) = slotWords s n.val := by
    rw [fillWords_eq, hindex, hslot, slotWords_congr heff]
  have hwords' : fillWords s = slotWords s n.val := by rw [fillWords_eq, hslot]
  have hevent : RingEvent (slotWords s n.val) (beginEvent s) (f (beginEvent s)) := hf ▸ (hact.ringEvent hreq).mono hR
  have hbuild : canBuild (f (beginEvent s)) = true := hf ▸ completeSlot_built (s := beginEvent s) hpart hfill hlist hrun hcursor
  have hlist' : (f (beginEvent s)).ring.list = g :: rest := by
    rw [hf, hring]
    exact hlist
  have hsub : ∀ o ∈ fillWords (f (beginEvent s)), o ∈ slotWords s n.val := by
    rw [hf, hwords]
    exact fun _ ho => ho
  have hroom' : s.path.queue.length + 7 + (slotWords s n.val).length ≤ 32 := by rw [slotWords_length]; omega
  obtain ⟨p, he⟩ := hevent.event_builds hrun hq hset hroom' hbuild hlist' hsub
  have hbuilt : (event f s).ring = (frameBuilt g rest (completeSlot n w (beginEvent s))).ring := by
    rw [he, hf]
    rfl
  have hring' : (completeSlot n w (beginEvent s)).ring = { s.ring with
      shadows := modifyAt s.ring.shadows n freedShadow
      rings := modifyAt s.ring.rings (ringOf s n.val) (completedRing s n w)
      records := s.ring.records.set (Fin.ofNat 16 n.val) none
      requests := [] } := by
    rw [hring, if_pos (part_ring (s := beginEvent s) hpart)]
    rfl
  refine ⟨?_, ?_, ?_, ?_, fun hnew => ?_⟩
  · have hat : Fin.ofNat 64 s.ring.fill.val = n := (part_fill hpart).mp hfill
    have hshadows : (event f s).ring.shadows = modifyAt (modifyAt s.ring.shadows n freedShadow) n
        (fun h => { h with tag := 0, dest := 4095, kind := BitVec.ofNat 8 (PartFrame.code g) }) := by
      rw [hbuilt]
      simp only [frameBuilt, hring', hat]
    rw [hshadows, modifyAt_modifyAt]
    exact modifyAt_self _ _ _
  · rw [hbuilt]
    simp only [frameBuilt, hring', hfill, Vector.set_set]
  · rw [hbuilt]
    rfl
  · rw [hbuilt]
    simp only [frameBuilt, hring']
  · have hseq : (completeSlot n w (beginEvent s)).ring.seq = s.ring.seq := by rw [hring]; rfl
    have hwrites : builtWrites (f (beginEvent s)) g = builtWrites s g := by
      rw [hf]
      simp only [builtWrites, heff, hindex, hseq]
    have haddr : reportAddr (f (beginEvent s)) = reportAddr s := by
      rw [hf]
      exact reportAddr_congr heff
    have hact' : f (beginEvent s) = _ := hf.trans hact
    have built := hevent.event_builds_queue hrun hset hbuild hlist' (R := R) (by rw [hact']; rfl) (by rw [hact']; rfl) hR (by omega) hsub
      (by rw [hwrites, haddr, ← hwords']; exact hnew) hroom'
    rwa [hwrites] at built

end

/-- What a completion leaves outside its own slot (R86, R119, R123). -/
theorem event_completeSlot {f : State → State} (hf : f (beginEvent s) = completeSlot n w (beginEvent s)) :
    (event f s).ring.rings = modifyAt s.ring.rings (ringOf s n.val) (completedRing s n w)
      ∧ (event f s).ring.departed = s.ring.departed ∧ (event f s).call = (completeSlot n w (beginEvent s)).call := by
  have acted := event_sameBut_acted f s
  refine ⟨(acted.rings (by simp)).trans ?_, (acted.departed (by simp) (by simp)).trans ?_, (acted.call (by simp)).trans ?_⟩
  · rw [hf, completeSlot_ring]
    rfl
  · rw [hf, completeSlot_ring]
    rfl
  · rw [hf]

/-- The record of the completed slot's ring. -/
theorem completedRing_get (hrings : t.ring.rings = modifyAt s.ring.rings (ringOf s n.val) (completedRing s n w)) :
    t.ring.rings[ringOf s n.val] = completedRing s n w s.ring.rings[ringOf s n.val]
      ∧ ∀ k : Fin 4, k ≠ ringOf s n.val → t.ring.rings[k] = s.ring.rings[k] := by
  rw [hrings]
  exact ⟨modifyAt_self _ _ _, fun k hk => modifyAt_other _ _ hk⟩

/-- Settles O29: a completion frees its slot, moves its ring on and may be an activity of its call, and in the PART ring the freed slot
takes the first waiting frame; any other write of the modem is a stray. -/
theorem modemWritebackJudged : Obligations.ModemWritebackJudged := by
  unfold Obligations.ModemWritebackJudged
  intro addr data n s hrun hfull hat hq
  refine ⟨_, exec_modemTxWriteback hrun hfull hat, ?_⟩
  have hq' : QueueKept (reachMemory (fullAccess .modem addr data) data s) := hq.reachMemory
  have hmem : SameBut [] s (reachMemory (fullAccess .modem addr data) data s) := reachMemory_sameBut _ _ s
  have hrun' : (reachMemory (fullAccess .modem addr data) data s).run = true := hrun
  dsimp only
  refine ⟨fun hcompl => ?_, fun hstray => ?_, fun m hm hs => ?_⟩
  · have hf : modemWriteback n addr data (beginEvent (reachMemory (fullAccess .modem addr data) data s))
        = completeSlot n data (beginEvent (reachMemory (fullAccess .modem addr data) data s)) :=
      modemWriteback_completes addr hcompl
    obtain ⟨hrings, hdeparted, hcall⟩ := event_completeSlot hf
    obtain ⟨hself, hother⟩ := completedRing_get (s := s) (n := n) (w := data) hrings
    refine ⟨?_, ?_, ?_, ?_, hother, ?_, fun hpart hset hroom => ⟨fun hnone => ?_, fun g rest hfill hlist hcursor => ?_⟩,
      fun p c hstatus htag hring hany hhere hp hc => ?_, fun hnone => ?_, fun hnot => ?_, hdeparted, ?_⟩
    · rw [hself]
      rfl
    · rw [hself]
      rfl
    · rw [hself]
      rfl
    · rw [hself]
      rfl
    · exact (event_completeSlot_slot hrun' hq' hf).1
    · exact event_part_free (s := reachMemory (fullAccess .modem addr data) data s) hpart hrun' hq' (hset.reachMemory hrun) hroom hf
        hnone
    · exact event_part_built (s := reachMemory (fullAccess .modem addr data) data s) hpart hrun' hq' (hset.reachMemory hrun) hroom hf
        hfill hlist hcursor
    · exact hcall.trans (completeSlot_call_active (s := beginEvent (reachMemory (fullAccess .modem addr data) data s))
        ⟨hstatus, htag, hring⟩ hany hhere hp hc)
    · exact hcall.trans (completeSlot_call_same (s := beginEvent (reachMemory (fullAccess .modem addr data) data s)) (.inr hnone))
    · refine hcall.trans (completeSlot_call_same (s := beginEvent (reachMemory (fullAccess .modem addr data) data s))
        (.inl fun ⟨⟨hstatus, htag, hring⟩, hany, hhere⟩ => hnot ⟨hstatus, htag, hring, hany, hhere⟩))
    · refine event_sameBut_of hmem ?_
      rw [hf]
      exact (completeSlot_beside n data _).1
  · have hf : modemWriteback n addr data (beginEvent (reachMemory (fullAccess .modem addr data) data s))
        = recordFault .completionStray (.bus .modem addr data) (beginEvent (reachMemory (fullAccess .modem addr data) data s)) :=
      modemWriteback_strays addr hstray
    refine ⟨event_counter hf hrun' rfl, fun hs => event_slots_of_fault hq' hrun' hf n hs, event_sameBut_of hmem ?_⟩
    rw [hf]
    exact (recordFault_within _ _ _).1
  · rcases Bool.eq_false_or_eq_true (isCompletion s n) with hcompl | hstray
    · exact (event_completeSlot_slot hrun' hq' (modemWriteback_completes addr hcompl)).2 m hm hs
    · exact event_slots_of_fault hq' hrun' (modemWriteback_strays addr hstray) m hs

end

end Sys2Proof.Machine
end

section
/-! PROOFS. A start scan read is not the only thing that its event can do to a frame record (R54, R97): a level that has still to be
derived is derived at the event's end, and the change out of EVACUATE withdraws the EVACUATE frame built into a PART slot. -/

set_option Elab.async false

namespace Sys2Proof.Machine

open Sys2Proof.Config

/-- An EVACUATE frame built into slot 0 and not withdrawn. -/
def builtEvacuate : FrameRecord := { frame := .evacuate 1 0 8 3, seq := 1, withdrawn := false }

/-- RUN with the scan at slot 0 and the level still EVACUATE, though no cause is in force. -/
def evacuateOver : State := { ({} : State) with
  run := true
  level := { level := .evacuate }
  ring := { records := (Vector.replicate 16 none).set 0 (some builtEvacuate) } }

/-- Whether the frame record of slot 0 is withdrawn after a command, if there is one. -/
def withdrawnAfter (o : Host.Outcome State Fault Refusal) : Option Bool :=
  match o with
  | .next t => t.ring.records[(0 : Fin 16)].map (·.withdrawn)
  | _ => none

/-- The model's run of the scan read: the level's change withdraws the frame. -/
theorem evacuateOver_scanned : withdrawnAfter (exec .startScanRead evacuateOver) = some true := by decide +kernel

theorem evacuateOver_queueKept : QueueKept evacuateOver := by
  refine ⟨Nat.zero_le _, List.nodup_nil, fun w hw => (nomatch hw), fun w hw => (nomatch hw), fun _ => by decide, fun h => ?_⟩
  exact absurd (show true = false from h) (by decide)

/-- Refutes O33: the first scan read of a state whose level has still to be derived out of EVACUATE leaves another frame record. -/
theorem not_scanAndPatrolReads : ¬ Obligations.ScanAndPatrolReads := by
  intro h
  obtain ⟨hscan, -⟩ := h
  obtain ⟨t, hexec, hread, -⟩ := hscan 0 evacuateOver rfl rfl rfl evacuateOver_queueKept
  obtain ⟨-, -, -, -, hbefore, -⟩ := hread
  obtain ⟨-, -, hrecords⟩ := hbefore (by decide)
  have hafter := evacuateOver_scanned
  rw [hexec] at hafter
  have hkept : t.ring.records[(0 : Fin 16)].map (·.withdrawn) = some false := by
    rw [hrecords]
    rfl
  exact absurd (hkept.symm.trans hafter) (by decide)

end Sys2Proof.Machine
end

section
/-! PROOFS. The fields of a received frame's header and how they parse (R105 to R110, R181). -/

set_option Elab.async false

namespace Sys2Proof.Machine

open Sys2Proof.Config

section
variable {s : State} {h : Header}

/-! ## Fields -/

theorem twoCodes_none {α : Type} {n : Nat} (one two : α) (hn : n ∉ [1, 2]) : twoCodes n one two = none := by
  unfold twoCodes
  split
  · simp at hn
  · simp at hn
  · rfl

theorem parseDefined_good {d : Bool} (f : Frame) (hd : d = true) : parseDefined d f = .frame f := by rw [parseDefined, if_pos hd]

theorem parseDefined_bad {d : Bool} (f : Frame) (hd : d = false) : parseDefined d f = .undefinedField := by
  rw [parseDefined, if_neg (by rw [hd]; decide)]

/-- A first entry of a vector that passes the test is the one found. -/
theorem findIndex_first {α : Type} {n : Nat} {v : Vector α n} {p : α → Bool} {i : Fin n} (hi : p v[i] = true)
    (hbefore : ∀ j < i, p v[j] = false) : findIndex v p = some i := by
  cases hfound : findIndex v p with
  | none => rw [findIndex_none.mp hfound i] at hi; cases hi
  | some k =>
    obtain ⟨hk, hlow⟩ := findIndex_some hfound
    rcases lt_trichotomy i k with hlt | rfl | hgt
    · rw [hlow i hlt] at hi; cases hi
    · rfl
    · rw [hbefore k hgt] at hk; cases hk

/-- A chamber field names the first entry of the chamber table that carries its id. -/
theorem chamberIndex_named {id : Id} {c : Fin 4} (hid : id ≠ 0) (hc : s.effective.chambers[c].id = id)
    (hbefore : ∀ d : Fin 4, d < c → s.effective.chambers[d].id ≠ id) : chamberIndex s id = some c := by
  rw [chamberIndex, if_neg hid]
  exact findIndex_first (by simpa using hc) fun j hj => by simpa using hbefore j hj

theorem chamberIndex_unknown {id : Id} (hno : ∀ c : Fin 4, s.effective.chambers[c].id ≠ id) : chamberIndex s id = none := by
  unfold chamberIndex
  split
  · rfl
  · exact findIndex_none.mpr fun i => by simpa using hno i

theorem knownSegment_eq (s : State) (id : Id) [Decidable (∃ i : Fin 16, s.effective.segments[i].id = id)] :
    knownSegment s id = if ∃ i : Fin 16, s.effective.segments[i].id = id then id else 0 := by
  unfold knownSegment segmentIndex
  by_cases hid : id = 0
  · subst hid
    simp
  · rw [if_neg hid]
    cases hfound : findIndex s.effective.segments (fun g => g.id == id) with
    | none =>
      have hno : ¬∃ i : Fin 16, s.effective.segments[i].id = id := fun ⟨i, hi⟩ =>
        Bool.false_ne_true ((findIndex_none.mp hfound i).symm.trans (beq_iff_eq.mpr hi))
      rw [if_neg hno]
      rfl
    | some i =>
      have hi : ∃ i : Fin 16, s.effective.segments[i].id = id := ⟨i, beq_iff_eq.mp (findIndex_some hfound).1⟩
      rw [if_pos hi]
      rfl

section
variable {id : Id} {d : Bool} {f : Fin 4 → Frame}

theorem parseChamber_bad (hbad : id = 0 ∨ d = false) : parseChamber s id d f = .undefinedField := by
  rw [parseChamber, if_pos]
  rcases hbad with rfl | rfl <;> simp

theorem parseChamber_unknown (hid : id ≠ 0) (hd : d = true) (hno : ∀ c : Fin 4, s.effective.chambers[c].id ≠ id) :
    parseChamber s id d f = .unknownObject := by
  rw [parseChamber, if_neg (by rw [hd]; simpa using hid), chamberIndex_unknown hno]

theorem parseChamber_named {c : Fin 4} (hid : id ≠ 0) (hd : d = true) (hc : s.effective.chambers[c].id = id)
    (hbefore : ∀ e : Fin 4, e < c → s.effective.chambers[e].id ≠ id) : parseChamber s id d f = .frame (f c) := by
  rw [parseChamber, if_neg (by rw [hd]; simpa using hid), chamberIndex_named hid hc hbefore]

end

theorem fullHeader_iff (c : Capture) (h : Header) :
    fullHeader c = some h ↔ c.h0 = some h.h0 ∧ c.h1 = some h.h1 ∧ c.h2 = some h.h2 ∧ c.h3 = some h.h3 := by
  obtain ⟨h0, h1, h2, h3⟩ := c
  obtain ⟨g0, g1, g2, g3⟩ := h
  unfold fullHeader
  split
  next heq0 heq1 heq2 heq3 =>
    dsimp only at heq0 heq1 heq2 heq3
    subst heq0 heq1 heq2 heq3
    simp
  next hno =>
    refine iff_of_false (by simp) fun ⟨e0, e1, e2, e3⟩ => hno _ _ _ _ e0 e1 e2 e3

/-! ## Each kind -/

theorem parse_kind_unknown (hk : fieldNat h.h0 24 8 ∉ [0x01, 0x02, 0x03, 0x04, 0x05, 0x06, 0x07, 0x08, 0x10, 0x11]) :
    parseFields s h = .notParsed := by
  unfold parseFields
  split
  case h_11 => rfl
  all_goals
    next heq => exact absurd heq fun he => hk (by rw [show fieldNat h.h0 24 8 = _ from he]; decide)

theorem parse_truckBeacon {power : Power} {heading : Heading} (hk : fieldNat h.h0 24 8 = 0x01)
    (hp : twoCodes (fieldNat h.h1 16 2) Power.diesel .electric = some power)
    (hh : twoCodes (fieldNat h.h1 18 2) Heading.inbye .outbye = some heading) :
    parseFields s h = parseDefined (nodeDefined (Header.origin h) && bits h.h1 0 16 != 0)
      (.truckBeacon (bits h.h1 0 16) power heading (Header.origin h) (knownSegment s (bits h.h2 0 16))
        (knownSegment s (bits h.h2 16 16))) := by
  simp only [parseFields, Header.kind, hk, hp, hh]

theorem parse_truckBeacon_bad (hk : fieldNat h.h0 24 8 = 0x01)
    (hbad : twoCodes (fieldNat h.h1 16 2) Power.diesel .electric = none
      ∨ twoCodes (fieldNat h.h1 18 2) Heading.inbye .outbye = none) : parseFields s h = .undefinedField := by
  simp only [parseFields, Header.kind, hk]
  split
  next hp hh => simp [hp, hh] at hbad
  next => rfl

theorem parse_callOpen {origin : CallOrigin} (hk : fieldNat h.h0 24 8 = 0x02)
    (ho : twoCodes (fieldNat h.h1 24 2) CallOrigin.handset (.chamber (bits h.h2 0 16)) = some origin) :
    parseFields s h = parseDefined (nodeDefined (Header.origin h) && bits h.h1 0 8 != 0 && bits h.h1 8 16 != 0
          && (match origin with | .handset => true | .chamber id => id != 0))
        (.callOpen (bits h.h1 0 8) (bits h.h1 8 16) origin) := by
  simp only [parseFields, Header.kind, hk, ho]
  cases origin with
  | handset => rfl
  | chamber id => rfl

theorem parse_callOpen_bad (hk : fieldNat h.h0 24 8 = 0x02)
    (hbad : twoCodes (fieldNat h.h1 24 2) CallOrigin.handset (.chamber (bits h.h2 0 16)) = none) :
    parseFields s h = .undefinedField := by
  simp only [parseFields, Header.kind, hk, hbad]

theorem parse_callClose (hk : fieldNat h.h0 24 8 = 0x03) : parseFields s h
    = parseDefined (nodeDefined (Header.origin h) && bits h.h1 0 8 != 0) (.callClose (bits h.h1 0 8)) := by
  simp only [parseFields, Header.kind, hk]

theorem parse_voice (hk : fieldNat h.h0 24 8 = 0x04) : parseFields s h
    = parseDefined (nodeDefined (Header.origin h) && bits h.h1 0 8 != 0) (.voice (bits h.h1 0 8)) := by
  simp only [parseFields, Header.kind, hk]

theorem parse_distress (hk : fieldNat h.h0 24 8 = 0x05) : parseFields s h
    = parseDefined (nodeDefined (Header.origin h) && bits h.h1 8 16 != 0)
        (.distress (bits h.h1 8 16) (bits h.h1 0 8) (Header.origin h)) := by
  simp only [parseFields, Header.kind, hk]

theorem parse_checkIn (hk : fieldNat h.h0 24 8 = 0x06) : parseFields s h
    = parseChamber s (bits h.h2 0 16) (nodeDefined (Header.origin h) && bits h.h1 0 16 != 0)
        (fun c => .checkIn c (bits h.h1 0 16)) := by
  simp only [parseFields, Header.kind, hk]

theorem parse_checkOut (hk : fieldNat h.h0 24 8 = 0x07) : parseFields s h
    = parseChamber s (bits h.h2 0 16) (nodeDefined (Header.origin h) && bits h.h1 0 16 != 0)
        (fun c => .checkOut c (bits h.h1 0 16)) := by
  simp only [parseFields, Header.kind, hk]

theorem parse_refugeStatus {airlock : AirlockReport} (hk : fieldNat h.h0 24 8 = 0x08)
    (ha : twoCodes (fieldNat h.h1 16 2) AirlockReport.opened .shut = some airlock) : parseFields s h
    = parseChamber s (bits h.h1 0 16) (nodeDefined (Header.origin h))
        (fun c => .refugeStatus c airlock (bits h.h2 0 16) (bits h.h2 16 16) (bits h.h3 0 16)) := by
  simp only [parseFields, Header.kind, hk, ha]

theorem parse_refugeStatus_bad (hk : fieldNat h.h0 24 8 = 0x08)
    (hbad : twoCodes (fieldNat h.h1 16 2) AirlockReport.opened .shut = none) : parseFields s h = .undefinedField := by
  simp only [parseFields, Header.kind, hk, hbad]

theorem parse_evacuate (hk : fieldNat h.h0 24 8 = 0x10) : parseFields s h
    = parseDefined (nodeDefined (Header.origin h) && nodeDefined (bits h.h1 0 12))
        (.evacuate (bits h.h0 20 4) (Header.origin h) (bits h.h1 0 12) (bits h.h1 12 8) (bits h.h1 20 4)) := by
  simp only [parseFields, Header.kind, hk]

theorem parse_airAlarm (hk : fieldNat h.h0 24 8 = 0x11) : parseFields s h
    = parseDefined (nodeDefined (Header.origin h) && decide (fieldNat h.h1 0 8 < 24))
        (.airAlarm (Header.origin h) (Fin.ofNat 24 (fieldNat h.h1 0 8)) (Grade.ofCode (fieldNat h.h1 8 2))) := by
  simp only [parseFields, Header.kind, hk]

/-- A parsed kind from an undefined origin has an undefined field (R105 test 3). -/
theorem parse_origin_bad (hk : fieldNat h.h0 24 8 ∈ [0x01, 0x02, 0x03, 0x04, 0x05, 0x06, 0x07, 0x08, 0x10, 0x11])
    (ho : nodeDefined (Header.origin h) = false) : parseFields s h = .undefinedField := by
  simp only [List.mem_cons, List.not_mem_nil, or_false] at hk
  rcases hk with hk | hk | hk | hk | hk | hk | hk | hk | hk | hk
  · cases hp : twoCodes (fieldNat h.h1 16 2) Power.diesel .electric with
    | none => exact parse_truckBeacon_bad hk (.inl hp)
    | some power =>
      cases hh : twoCodes (fieldNat h.h1 18 2) Heading.inbye .outbye with
      | none => exact parse_truckBeacon_bad hk (.inr hh)
      | some heading => exact (parse_truckBeacon hk hp hh).trans (parseDefined_bad _ (by rw [ho]; rfl))
  · cases hc : twoCodes (fieldNat h.h1 24 2) CallOrigin.handset (.chamber (bits h.h2 0 16)) with
    | none => exact parse_callOpen_bad hk hc
    | some origin => exact (parse_callOpen hk hc).trans (parseDefined_bad _ (by rw [ho]; rfl))
  · exact (parse_callClose hk).trans (parseDefined_bad _ (by rw [ho]; rfl))
  · exact (parse_voice hk).trans (parseDefined_bad _ (by rw [ho]; rfl))
  · exact (parse_distress hk).trans (parseDefined_bad _ (by rw [ho]; rfl))
  · exact (parse_checkIn hk).trans (parseChamber_bad (.inr (by rw [ho]; rfl)))
  · exact (parse_checkOut hk).trans (parseChamber_bad (.inr (by rw [ho]; rfl)))
  · cases ha : twoCodes (fieldNat h.h1 16 2) AirlockReport.opened .shut with
    | none => exact parse_refugeStatus_bad hk ha
    | some airlock => exact (parse_refugeStatus hk ha).trans (parseChamber_bad (.inr ho))
  · exact (parse_evacuate hk).trans (parseDefined_bad _ (by rw [ho]; rfl))
  · exact (parse_airAlarm hk).trans (parseDefined_bad _ (by rw [ho]; rfl))

end

end Sys2Proof.Machine
end

section
/-! PROOFS. Header capture, completion and parsing of a received frame (R101 to R111). -/

set_option Elab.async false

namespace Sys2Proof.Machine

open Sys2Proof.Config

section
variable {s t : State} {i : Fin 32} {addr : Addr} {w : Word}

/-! ## Header words -/

/-- A header word's write captured: word 0 starts the entry anew (R101). -/
theorem captureWord_eq (o : Nat) (ho : o % 256 < 16) (w : Word) (c : Capture) :
    captureWord (Fin.ofNat 4 (o % 256 / 4)) w c
      = if o % 256 < 4 then { h0 := some w } else if o % 256 < 8 then { c with h1 := some w }
        else if o % 256 < 12 then { c with h2 := some w } else { c with h3 := some w } := by
  have word (k : Nat) (hk : o % 256 / 4 = k) : Fin.ofNat 4 (o % 256 / 4) = Fin.ofNat 4 k := by rw [hk]
  rcases (by omega : o % 256 < 4 ∨ (4 ≤ o % 256 ∧ o % 256 < 8) ∨ (8 ≤ o % 256 ∧ o % 256 < 12) ∨ 12 ≤ o % 256)
    with h | ⟨hlow, h⟩ | ⟨hlow, h⟩ | h
  · rw [if_pos h, word 0 (by omega)]
    rfl
  · rw [if_neg (by omega), if_pos h, word 1 (by omega)]
    rfl
  · rw [if_neg (by omega), if_neg (by omega), if_pos h, word 2 (by omega)]
    rfl
  · rw [if_neg (by omega), if_neg (by omega), if_neg (by omega), word 3 (by omega)]
    rfl

/-- A full-word write reaches memory as one word. -/
theorem reachMemory_full (init : Initiator) (addr : Addr) (w : Word) (s : State) :
    reachMemory (fullAccess init addr w) w s = { s with mem := memWriteWord s.mem (wordBase addr.toNat) w } := by
  show { s with mem := memWriteLanes s.mem (wordBase addr.toNat) 0xF w } = _
  rfl

/-- A captured header word changes memory by its word and its capture entry. -/
theorem header_written {f : Capture → Capture} {c : Capture} (b : Fin 32) (hc : f s.frame.capture[b] = c) :
    changeCapture b f (reachMemory (fullAccess .modem addr w) w s) = { s with
      mem := memWriteWord s.mem (wordBase addr.toNat) w, frame := { s.frame with capture := s.frame.capture.set b c } } := by
  subst hc
  rw [reachMemory_full]
  rfl

theorem exec_headerCaptureWrite {o : Nat} (hrun : s.run = true) (hfull : fullWordAccess addr 0xF = true)
    (hat : regionAt s (wordBase addr.toNat) = some (.rxBuffers, o)) (ho : o % 256 < 16) :
    exec (.headerCaptureWrite addr w) s = .next (changeCapture (Fin.ofNat 32 (o / 256))
      (captureWord (Fin.ofNat 4 (o % 256 / 4)) w) (reachMemory (fullAccess .modem addr w) w s)) := by
  have harm : exec (.headerCaptureWrite addr w) s = .next (serveWrite s.strap (fullAccess .modem addr w) s) := rfl
  have hperm : permitted s .modem .rxBuffers o = true := rfl
  have htaken : takenWord s .modem .rxBuffers o = some (.header (Fin.ofNat 32 (o / 256)) (Fin.ofNat 4 (o % 256 / 4))) :=
    if_pos ⟨rfl, ho⟩
  rw [harm, serveWrite_taken (a := fullAccess .modem addr w) hrun hat hperm htaken hfull]
  rfl

/-! ## Completions -/

/-- A full-word write of receive word 0 of a slot: with the owner set it reaches memory alone, otherwise a frame that still waits is
taken and then the completion is judged (R102, R111). -/
theorem exec_receiveCompletion (hrun : s.run = true) (hfull : fullWordAccess addr 0xF = true)
    (hat : regionAt s (wordBase addr.toNat) = some (.rxSlots, 16 * i.val)) :
    exec (.receiveCompletion addr w) s = .next (if bitOf w 31 then reachMemory (fullAccess .modem addr w) w s
      else event (completion i addr w) (reachMemory (fullAccess .modem addr w) w (takeHandover s))) := by
  have harm : exec (.receiveCompletion addr w) s = .next (serveWrite s.strap (fullAccess .modem addr w) s) := rfl
  have hperm : permitted s .modem .rxSlots (16 * i.val) = true := rfl
  have htaken : takenWord s .modem .rxSlots (16 * i.val) = some (.rxWord0 i) := by simp [takenWord]
  rw [harm, serveWrite_taken (a := fullAccess .modem addr w) hrun hat hperm htaken hfull]
  rfl

theorem takeHandover_none (hnone : s.frame.handover = none) : takeHandover s = s := by
  rw [takeHandover, hnone]

/-- The frame unit with the capture entry of a buffer emptied (R102). -/
def emptiedFrame (i : Fin 32) (u : FrameUnit) : FrameUnit := { u with capture := u.capture.set i {} }

theorem completion_frame (ho : bitOf w 31 = false) :
    (completion i addr w s).frame = emptiedFrame i (judgeCompletion i addr w s).frame := by
  rw [completion, if_neg (by rw [ho]; decide)]
  rfl

/-- A completion that its judgement makes a fault of. -/
theorem completion_fault {k : FaultKind} {d : FaultId} (ho : bitOf w 31 = false)
    (hj : judgeCompletion i addr w s = recordFault k d s) :
    (completion i addr w s).frame = emptiedFrame i s.frame ∧ SameBut [.frame] (recordFault k d s) (completion i addr w s) := by
  refine ⟨?_, ?_⟩
  · rw [completion_frame ho, hj, (recordFault_within k d s).1.frame]
  · rw [completion, if_neg (by rw [ho]; decide), hj]
    exact (changeFrame_within _ _).1

theorem event_completion_fault {k : FaultKind} {d : FaultId} (hrun : s.run = true) (ho : bitOf w 31 = false)
    (hj : judgeCompletion i addr w (beginEvent s) = recordFault k d (beginEvent s))
    (hk : FaultKind.index k ≠ 6 ∧ FaultKind.index k ≠ 7 ∧ FaultKind.index k ≠ 11) :
    (event (completion i addr w) s).frame = emptiedFrame i s.frame
      ∧ (event (completion i addr w) s).fault.counters[FaultKind.index k] = saturate countTop s.fault.counters[FaultKind.index k] := by
  obtain ⟨hframe, hsame⟩ := completion_fault ho hj
  exact ⟨((event_sameBut_acted _ s).frame (by simp)).trans hframe, (event_fault hrun hsame (by simp) hk).1⟩

/-- A completion that its judgement gives to the frame unit alone. -/
theorem event_completion_counted {f : FrameUnit → FrameUnit} (ho : bitOf w 31 = false)
    (hj : judgeCompletion i addr w (beginEvent s) = postFrame (changeFrame f (beginEvent s))) :
    (event (completion i addr w) s).frame = emptiedFrame i (f s.frame) ∧ SameBut [.frame] s (event (completion i addr w) s) := by
  refine ⟨((event_sameBut_acted _ s).frame (by simp)).trans ?_, event_sameBut ?_⟩
  · rw [completion_frame ho, hj]
    rfl
  · rw [completion, if_neg (by rw [ho]; decide), hj]
    exact (((changeFrame_within f _).next (reportChanged_within _ _)).next (changeFrame_within _ _)).1

/-! ## The cases of the judgement, in their order -/

theorem judge_badCheck (hstatus : fieldNat w 28 2 ≠ 0) : judgeCompletion i addr w s
    = postFrame (changeFrame (fun u => { u with badCheck := saturate countTop u.badCheck }) s) := by
  rw [judgeCompletion, if_pos (by simpa using hstatus)]

theorem judge_short (hstatus : fieldNat w 28 2 = 0) (hshort : fullHeader s.frame.capture[i] = none ∨ fieldNat w 0 9 < 16) :
    judgeCompletion i addr w s = recordFault .shortHeader (.bus .modem addr w) s := by
  rw [judgeCompletion, if_neg (by simp [hstatus])]
  split
  next => rfl
  next h hfull =>
    rw [if_pos (hshort.resolve_left (by rw [hfull]; exact Option.some_ne_none h))]

theorem judge_long {h : Header} (hstatus : fieldNat w 28 2 = 0) (hfull : fullHeader s.frame.capture[i] = some h)
    (hlong : 256 < fieldNat w 0 9) : judgeCompletion i addr w s = recordFault .badFrame (.bus .modem addr w) s := by
  rw [judgeCompletion, if_neg (by simp [hstatus])]
  simp only [hfull]
  rw [if_neg (by omega), if_pos hlong]

theorem judge_parsed {h : Header} (hstatus : fieldNat w 28 2 = 0) (hfull : fullHeader s.frame.capture[i] = some h)
    (hlow : 16 ≤ fieldNat w 0 9) (hhigh : fieldNat w 0 9 ≤ 256) : judgeCompletion i addr w s = parseFrame i h s := by
  rw [judgeCompletion, if_neg (by simp [hstatus])]
  simp only [hfull]
  rw [if_neg (by omega), if_neg (by omega)]

/-- What a dispatched frame changes in the frame unit (R105, R111, R113). -/
def dispatchedFrame (i : Fin 32) (h : Header) (f : Frame) (u : FrameUnit) : FrameUnit :=
  { u with
    dispatched := saturate countTop u.dispatched, handover := some f,
    last := some { slot := i, kind := bits h.h0 24 8, origin := Header.origin h, seq := Header.seq h } }

theorem parse_own {h : Header} (hown : Header.origin h = s.effective.node.nodeId) : parseFrame i h s = ignoreFrame s :=
  if_pos hown

section
variable {h : Header} (hother : Header.origin h ≠ s.effective.node.nodeId)
include hother

theorem parse_ignored (hp : parseFields s h = .notParsed ∨ parseFields s h = .unknownObject) : parseFrame i h s = ignoreFrame s := by
  rw [parseFrame, if_neg hother]
  rcases hp with hp | hp <;> simp only [hp]

theorem parse_undefined (hp : parseFields s h = .undefinedField) : parseFrame i h s
    = recordFault .badFrame (.bus .modem (address (s.effective.regions.rxBuffers.toNat + 256 * i.val)) h.h0) s := by
  rw [parseFrame, if_neg hother]
  simp only [hp]

theorem parse_dispatched {f : Frame} (hp : parseFields s h = .frame f) :
    parseFrame i h s = postFrame (changeFrame (dispatchedFrame i h f) s) := by
  rw [parseFrame, if_neg hother]
  simp only [hp]
  rfl

end

/-! ## A frame still waiting -/

theorem regionAt_congr (hrun : t.run = s.run) (hstrap : t.strap = s.strap) (heff : t.effective = s.effective) (a : Nat) : regionAt t a = regionAt s a := by
  unfold regionAt regionMap
  rw [hrun, hstrap, heff]

theorem clearHandover_none {f : Frame} (hf : s.frame.handover = some f) : (clearHandover f s).frame.handover = none := by
  rw [clearHandover, if_pos hf]

/-- A defined frame that waits is taken by its event: none waits then, and the regions are where they were (R111). -/
theorem takeHandover_some {f : Frame} (hrun : s.run = true) (hf : s.frame.handover = some f) (hd : Frame.defined f = true) :
    (takeHandover s).frame.handover = none ∧ (takeHandover s).run = true
      ∧ ∀ a, regionAt (takeHandover s) a = regionAt s a := by
  have hevent : takeHandover s
      = event (fun s => if Frame.defined f then takeFrame f (clearHandover f s) else s) s := by
    rw [takeHandover, hf]
    exact if_pos hrun
  have taken : SameBut (frameAreas f) (clearHandover f (beginEvent s)) (takeFrame f (clearHandover f (beginEvent s))) :=
    (takeFrame_within f _).1
  have acted := event_sameBut_acted (fun s => if Frame.defined f then takeFrame f (clearHandover f s) else s) s
  rw [if_pos hd] at acted
  have began : SameBut [] s (beginEvent s) := beginEvent_sameBut s
  have cleared := (clearHandover_within f (beginEvent s)).1
  have hnot : Area.frame ∉ frameAreas f := by cases f <;> simp [frameAreas]
  rw [hevent]
  refine ⟨?_, ?_, fun a => regionAt_congr ?_ ?_ ?_ a⟩
  · rw [acted.frame (by simp), taken.frame hnot]
    exact clearHandover_none hf
  · rw [acted.run, taken.run, cleared.run, began.run, hrun]
  · rw [acted.run, taken.run, cleared.run, began.run]
  · rw [acted.strap, taken.strap, cleared.strap, began.strap]
  · rw [acted.effective, taken.effective, cleared.effective, began.effective]

end

/-! ## The obligation -/

section
variable {s : State} {h : Header}

theorem nodeDefined_of_ne {n : NodeId} (h0 : n ≠ 0) (h1 : n ≠ 4095) : nodeDefined n = true := by
  rw [nodeDefined, Bool.and_eq_true, bne_iff_ne, bne_iff_ne]
  exact ⟨h0, h1⟩

theorem nodeDefined_bad {n : NodeId} (hn : n = 0 ∨ n = 4095) : nodeDefined n = false := by
  rcases hn with rfl | rfl <;> rfl

variable (hgood : nodeDefined (Header.origin h) = true)
include hgood

/-- A beacon (R107): the truck id, the two codes, and the segment ids that the table has. -/
theorem parses_truckBeacon (hk : fieldNat h.h0 24 8 = 0x01) :
    (bits h.h1 0 16 = 0 ∨ fieldNat h.h1 16 2 ∉ [1, 2] ∨ fieldNat h.h1 18 2 ∉ [1, 2] → parseFields s h = .undefinedField)
      ∧ ∀ (power : Power) (heading : Heading), bits h.h1 0 16 ≠ 0 →
          twoCodes (fieldNat h.h1 16 2) Power.diesel .electric = some power →
          twoCodes (fieldNat h.h1 18 2) Heading.inbye .outbye = some heading →
          parseFields s h = .frame (.truckBeacon (bits h.h1 0 16) power heading (Header.origin h)
            (knownSegment s (bits h.h2 0 16)) (knownSegment s (bits h.h2 16 16))) := by
  refine ⟨fun hbad => ?_, fun power heading htruck hp hh => ?_⟩
  · cases hp : twoCodes (fieldNat h.h1 16 2) Power.diesel .electric with
    | none => exact parse_truckBeacon_bad hk (.inl hp)
    | some power =>
      cases hh : twoCodes (fieldNat h.h1 18 2) Heading.inbye .outbye with
      | none => exact parse_truckBeacon_bad hk (.inr hh)
      | some heading =>
        rcases hbad with htruck | hpow | hhead
        · exact (parse_truckBeacon hk hp hh).trans (parseDefined_bad _ (by rw [htruck]; simp))
        · rw [twoCodes_none _ _ hpow] at hp; cases hp
        · rw [twoCodes_none _ _ hhead] at hh; cases hh
  · refine (parse_truckBeacon hk hp hh).trans (parseDefined_good _ ?_)
    rw [hgood, Bool.true_and, bne_iff_ne]
    exact htruck

/-- A call's opening (R108): its call, its miner and its origin, which names a chamber with code 2. -/
theorem parses_callOpen (hk : fieldNat h.h0 24 8 = 0x02) :
    (bits h.h1 0 8 = 0 ∨ bits h.h1 8 16 = 0 ∨ fieldNat h.h1 24 2 ∉ [1, 2] ∨ (fieldNat h.h1 24 2 = 2 ∧ bits h.h2 0 16 = 0) →
        parseFields s h = .undefinedField)
      ∧ (bits h.h1 0 8 ≠ 0 → bits h.h1 8 16 ≠ 0 → fieldNat h.h1 24 2 = 1 →
          parseFields s h = .frame (.callOpen (bits h.h1 0 8) (bits h.h1 8 16) .handset))
      ∧ (bits h.h1 0 8 ≠ 0 → bits h.h1 8 16 ≠ 0 → fieldNat h.h1 24 2 = 2 → bits h.h2 0 16 ≠ 0 →
          parseFields s h = .frame (.callOpen (bits h.h1 0 8) (bits h.h1 8 16) (.chamber (bits h.h2 0 16)))) := by
  refine ⟨fun hbad => ?_, fun hcall hminer hcode => ?_, fun hcall hminer hcode hid => ?_⟩
  · cases hc : twoCodes (fieldNat h.h1 24 2) CallOrigin.handset (.chamber (bits h.h2 0 16)) with
    | none => exact parse_callOpen_bad hk hc
    | some origin =>
      refine (parse_callOpen hk hc).trans (parseDefined_bad _ ?_)
      rcases hbad with hcall | hminer | hcode | ⟨hcode, hid⟩
      · rw [hcall]; simp
      · rw [hminer]; simp
      · rw [twoCodes_none _ _ hcode] at hc; cases hc
      · rw [hcode] at hc
        obtain rfl : CallOrigin.chamber (bits h.h2 0 16) = origin := Option.some.inj hc
        simp [hid]
  · refine (parse_callOpen hk (by rw [hcode]; rfl)).trans (parseDefined_good _ ?_)
    rw [hgood, Bool.true_and, Bool.and_true, Bool.and_eq_true, bne_iff_ne, bne_iff_ne]
    exact ⟨hcall, hminer⟩
  · refine (parse_callOpen hk (by rw [hcode]; rfl)).trans (parseDefined_good _ ?_)
    show (nodeDefined (Header.origin h) && bits h.h1 0 8 != 0 && bits h.h1 8 16 != 0 && bits h.h2 0 16 != 0) = true
    rw [hgood, Bool.true_and, Bool.and_eq_true, Bool.and_eq_true, bne_iff_ne, bne_iff_ne, bne_iff_ne]
    exact ⟨⟨hcall, hminer⟩, hid⟩

/-- A closing or a voice frame (R108): its call. -/
theorem parses_call (hk : fieldNat h.h0 24 8 = 0x03 ∨ fieldNat h.h0 24 8 = 0x04) :
    (bits h.h1 0 8 = 0 → parseFields s h = .undefinedField)
      ∧ (bits h.h1 0 8 ≠ 0 → parseFields s h
          = .frame (if fieldNat h.h0 24 8 = 0x03 then .callClose (bits h.h1 0 8) else .voice (bits h.h1 0 8))) := by
  have bad (hc : bits h.h1 0 8 = 0) : (nodeDefined (Header.origin h) && bits h.h1 0 8 != 0) = false := by rw [hc]; simp
  have good (hc : bits h.h1 0 8 ≠ 0) : (nodeDefined (Header.origin h) && bits h.h1 0 8 != 0) = true := by
    rw [hgood, Bool.true_and, bne_iff_ne]
    exact hc
  rcases hk with hk | hk
  · refine ⟨fun hc => (parse_callClose hk).trans (parseDefined_bad _ (bad hc)), fun hc => ?_⟩
    rw [if_pos hk]
    exact (parse_callClose hk).trans (parseDefined_good _ (good hc))
  · refine ⟨fun hc => (parse_voice hk).trans (parseDefined_bad _ (bad hc)), fun hc => ?_⟩
    rw [if_neg (by rw [hk]; decide)]
    exact (parse_voice hk).trans (parseDefined_good _ (good hc))

/-- A check-in or a check-out (R109): its miner and a chamber of the table. -/
theorem parses_check (hk : fieldNat h.h0 24 8 = 0x06 ∨ fieldNat h.h0 24 8 = 0x07) :
    (bits h.h1 0 16 = 0 ∨ bits h.h2 0 16 = 0 → parseFields s h = .undefinedField)
      ∧ (bits h.h1 0 16 ≠ 0 → bits h.h2 0 16 ≠ 0 → (∀ c : Fin 4, s.effective.chambers[c].id ≠ bits h.h2 0 16) →
          parseFields s h = .unknownObject)
      ∧ ∀ c : Fin 4, bits h.h1 0 16 ≠ 0 → bits h.h2 0 16 ≠ 0 → s.effective.chambers[c].id = bits h.h2 0 16 →
          (∀ d : Fin 4, d < c → s.effective.chambers[d].id ≠ bits h.h2 0 16) → parseFields s h
          = .frame (if fieldNat h.h0 24 8 = 0x06 then .checkIn c (bits h.h1 0 16) else .checkOut c (bits h.h1 0 16)) := by
  have bad (hm : bits h.h1 0 16 = 0 ∨ bits h.h2 0 16 = 0) :
      bits h.h2 0 16 = 0 ∨ (nodeDefined (Header.origin h) && bits h.h1 0 16 != 0) = false :=
    hm.symm.imp_right fun hm => by rw [hm]; simp
  have good (hm : bits h.h1 0 16 ≠ 0) : (nodeDefined (Header.origin h) && bits h.h1 0 16 != 0) = true := by
    rw [hgood, Bool.true_and, bne_iff_ne]
    exact hm
  rcases hk with hk | hk
  · refine ⟨fun hm => (parse_checkIn hk).trans (parseChamber_bad (bad hm)),
      fun hm hid hno => (parse_checkIn hk).trans (parseChamber_unknown hid (good hm) hno), fun c hm hid hc hfirst => ?_⟩
    rw [if_pos hk]
    exact (parse_checkIn hk).trans (parseChamber_named hid (good hm) hc hfirst)
  · refine ⟨fun hm => (parse_checkOut hk).trans (parseChamber_bad (bad hm)),
      fun hm hid hno => (parse_checkOut hk).trans (parseChamber_unknown hid (good hm) hno), fun c hm hid hc hfirst => ?_⟩
    rw [if_neg (by rw [hk]; decide)]
    exact (parse_checkOut hk).trans (parseChamber_named hid (good hm) hc hfirst)

/-- A chamber's status (R109): a chamber of the table and the airlock code. -/
theorem parses_refugeStatus (hk : fieldNat h.h0 24 8 = 0x08) :
    (bits h.h1 0 16 = 0 ∨ fieldNat h.h1 16 2 ∉ [1, 2] → parseFields s h = .undefinedField)
      ∧ (bits h.h1 0 16 ≠ 0 → fieldNat h.h1 16 2 ∈ [1, 2] → (∀ c : Fin 4, s.effective.chambers[c].id ≠ bits h.h1 0 16) →
          parseFields s h = .unknownObject)
      ∧ ∀ (c : Fin 4) (airlock : AirlockReport), bits h.h1 0 16 ≠ 0 → s.effective.chambers[c].id = bits h.h1 0 16 →
          (∀ d : Fin 4, d < c → s.effective.chambers[d].id ≠ bits h.h1 0 16) →
          twoCodes (fieldNat h.h1 16 2) AirlockReport.opened .shut = some airlock → parseFields s h
          = .frame (.refugeStatus c airlock (bits h.h2 0 16) (bits h.h2 16 16) (bits h.h3 0 16)) := by
  refine ⟨fun hbad => ?_, fun hid hcode hno => ?_, fun c airlock hid hc hfirst ha => ?_⟩
  · cases ha : twoCodes (fieldNat h.h1 16 2) AirlockReport.opened .shut with
    | none => exact parse_refugeStatus_bad hk ha
    | some airlock =>
      rcases hbad with hid | hcode
      · exact (parse_refugeStatus hk ha).trans (parseChamber_bad (.inl hid))
      · rw [twoCodes_none _ _ hcode] at ha; cases ha
  · obtain hcode | hcode : fieldNat h.h1 16 2 = 1 ∨ fieldNat h.h1 16 2 = 2 := by simpa using hcode
    · exact (parse_refugeStatus hk (airlock := .opened) (by rw [hcode]; rfl)).trans (parseChamber_unknown hid hgood hno)
    · exact (parse_refugeStatus hk (airlock := .shut) (by rw [hcode]; rfl)).trans (parseChamber_unknown hid hgood hno)
  · exact (parse_refugeStatus hk ha).trans (parseChamber_named hid hgood hc hfirst)

end

/-- Settles O30: a header word is captured, a completion is the first case of its judgement that applies, and each kind of header
parses by its own fields. -/
theorem receivePathJudged : Obligations.ReceivePathJudged := by
  unfold Obligations.ReceivePathJudged
  refine ⟨fun addr data o s hrun hfull hat ho => ⟨_, exec_headerCaptureWrite hrun hfull hat ho, ?_⟩,
    fun addr data i s hrun hfull hat howner => ?_, fun addr data i s hrun hfull hat howner hnone => ?_,
    fun addr data i f s hrun hfull hat howner hf hd => ?_, fullHeader_iff, fun h s => ?_⟩
  · show changeCapture _ _ _ = _
    exact header_written _ (captureWord_eq o ho data s.frame.capture[Fin.ofNat 32 (o / 256)])
  · refine ⟨_, exec_receiveCompletion hrun hfull hat, ?_⟩
    rw [if_pos howner, reachMemory_full]
  · refine ⟨_, exec_receiveCompletion hrun hfull hat, ?_⟩
    rw [if_neg (by rw [howner]; decide), takeHandover_none hnone]
    have hmem : SameBut [] s (reachMemory (fullAccess .modem addr data) data s) := reachMemory_sameBut _ _ s
    have hrun' : (reachMemory (fullAccess .modem addr data) data s).run = true := hrun
    dsimp only
    refine ⟨⟨fun hstatus => ?_, fun hstatus hshort => ?_, fun h hstatus hfullh hlong => ?_,
      fun h hstatus hfullh hlow hhigh => ⟨fun hown => ?_, fun hother => ?_⟩⟩, event_sameBut_of hmem (completion_within _ _ _ _).1⟩
    · obtain ⟨hframe, hsame⟩ := event_completion_counted (s := reachMemory (fullAccess .modem addr data) data s) howner
        (judge_badCheck hstatus)
      exact ⟨hframe, (hmem.mono (by simp)).trans hsame⟩
    · exact event_completion_fault hrun' howner (judge_short hstatus hshort) (by decide)
    · exact event_completion_fault hrun' howner (judge_long hstatus hfullh hlong) (by decide)
    · exact (event_completion_counted (s := reachMemory (fullAccess .modem addr data) data s) howner
        ((judge_parsed (s := beginEvent (reachMemory (fullAccess .modem addr data) data s)) hstatus hfullh hlow hhigh).trans
          (parse_own hown))).1
    · have hj : judgeCompletion i addr data (beginEvent (reachMemory (fullAccess .modem addr data) data s))
          = parseFrame i h (beginEvent (reachMemory (fullAccess .modem addr data) data s)) :=
        judge_parsed hstatus hfullh hlow hhigh
      have hfields : parseFields (beginEvent (reachMemory (fullAccess .modem addr data) data s)) h = parseFields s h := rfl
      cases hp : parseFields s h with
      | notParsed =>
        exact (event_completion_counted howner (hj.trans (parse_ignored hother (.inl (hfields.trans hp))))).1
      | unknownObject =>
        exact (event_completion_counted howner (hj.trans (parse_ignored hother (.inr (hfields.trans hp))))).1
      | undefinedField =>
        exact event_completion_fault hrun' howner (hj.trans (parse_undefined hother (hfields.trans hp))) (by decide)
      | frame f =>
        obtain ⟨hframe, hsame⟩ := event_completion_counted howner (hj.trans
          (parse_dispatched (s := beginEvent (reachMemory (fullAccess .modem addr data) data s)) hother (hfields.trans hp)))
        exact ⟨hframe, (hmem.mono (by simp)).trans hsame⟩
  · obtain ⟨hnone, hrun', hregion⟩ := takeHandover_some hrun hf hd
    have hat' : regionAt (takeHandover s) (wordBase addr.toNat) = some (.rxSlots, 16 * i.val) := (hregion _).trans hat
    refine ⟨_, exec_receiveCompletion hrun hfull hat, ?_, hnone, hrun', hat'⟩
    rw [exec_receiveCompletion hrun' hfull hat', takeHandover_none hnone, if_neg (by rw [howner]; decide),
      if_neg (by rw [howner]; decide)]
  · dsimp only
    refine ⟨rfl, rfl, parse_kind_unknown, fun hk ho => parse_origin_bad hk (nodeDefined_bad ho), fun h0 h1 => ?_⟩
    have hgood : nodeDefined (Header.origin h) = true := nodeDefined_of_ne h0 h1
    refine ⟨fun hk => ⟨(parses_truckBeacon hgood hk).1, fun power heading htruck hp hh => ?_⟩, fun hk => parses_callOpen hgood hk,
      fun hk => parses_call hgood hk, fun hk => ⟨fun hm => ?_, fun hm => ?_⟩,
      fun hk => ⟨(parses_check hgood hk).1, (parses_check hgood hk).2.1, fun c hm hid hc => (parses_check hgood hk).2.2 c hm hid hc.1 hc.2⟩,
      fun hk => ⟨(parses_refugeStatus hgood hk).1, (parses_refugeStatus hgood hk).2.1, fun c airlock hid hc ha => ?_⟩,
      fun hk => ⟨fun hc => ?_, fun hc0 hc1 => ?_⟩, fun hk => ⟨fun hc => ?_, fun c grade hc hg => ?_⟩⟩
    · rw [← knownSegment_eq, ← knownSegment_eq]
      refine (parses_truckBeacon hgood hk).2 power heading htruck ?_ ?_
      · cases power with
        | diesel | electric => rw [hp]; rfl
      · cases heading with
        | inbye | outbye => rw [hh]; rfl
    · exact (parse_distress hk).trans (parseDefined_bad _ (by rw [hm]; simp))
    · refine (parse_distress hk).trans (parseDefined_good _ ?_)
      rw [hgood, Bool.true_and, bne_iff_ne]
      exact hm
    · refine (parses_refugeStatus hgood hk).2.2 c airlock hid hc.1 hc.2 ?_
      cases airlock with
      | opened | shut => rw [ha]; rfl
    · exact (parse_evacuate hk).trans (parseDefined_bad _ (by rw [nodeDefined_bad hc]; simp))
    · exact (parse_evacuate hk).trans (parseDefined_good _ (by rw [hgood, nodeDefined_of_ne hc0 hc1]; rfl))
    · exact (parse_airAlarm hk).trans (parseDefined_bad _ (by simp [Nat.not_lt.mpr hc]))
    · refine (parse_airAlarm hk).trans ((parseDefined_good _ ?_).trans ?_)
      · rw [hgood, hc]
        simp
      · rw [hc, hg, Grade.ofCode_code]
        exact congrArg (fun k => Parse.frame (.airAlarm (Header.origin h) k grade)) (Fin.ext (Nat.mod_eq_of_lt c.isLt))

end Sys2Proof.Machine
end

section
/-! PROOFS. Idle cycles given to draining: what they leave where nothing else is left to do, and the notice and the sweep that may follow
(R72, R73, R95, R167). -/

set_option Elab.async false

namespace Sys2Proof.Machine

open Sys2Proof.Config

section
variable {n : Fin 64} {w : OwnWrite} {rest : List OwnWrite} {s s0 t u : State}

/-! ## Slots made READY -/

/-- Slot `n` shows READY with length 16. -/
def ShowsReady (n : Fin 64) (s : State) : Prop := s.ring.shadows[n].state = .ready ∧ s.ring.shadows[n].length = 16

/-- Slots that are READY with length 16 stay so. -/
def StaysReady (s t : State) : Prop := ∀ n, ShowsReady n s → ShowsReady n t

theorem StaysReady.of_shadows (h : t.ring.shadows = s.ring.shadows) : StaysReady s t := fun n hn => by
  rw [ShowsReady, h]
  exact hn

theorem StaysReady.trans (h : StaysReady s u) (h' : StaysReady u t) : StaysReady s t := fun n hn => h' n (h n hn)

/-- Slots that a step keeps READY were so in a state with the same shadows. -/
theorem StaysReady.from (h : StaysReady u t) (hu : u.ring.shadows = s.ring.shadows) : StaysReady s t := (StaysReady.of_shadows hu).trans h

theorem StaysReady.within {l : List Area} (h : Within l s t) : StaysReady s t := .of_shadows (by rw [h.2.2.2.2.2.2.2.1])

/-- A shadow's change that keeps what makes it READY with length 16. -/
theorem changeShadow_staysReady (i : Fin 64) {f : Shadow → Shadow}
    (hf : ∀ h : Shadow, h.state = .ready ∧ h.length = 16 → (f h).state = .ready ∧ (f h).length = 16) (s : State) :
    StaysReady s (changeShadow i f s) := fun n hn => by
  show (modifyAt s.ring.shadows i f)[n].state = .ready ∧ (modifyAt s.ring.shadows i f)[n].length = 16
  by_cases hi : n = i
  · subst hi
    have hself : (modifyAt s.ring.shadows n f)[n] = f s.ring.shadows[n] := modifyAt_self _ _ _
    rw [hself]
    exact hf _ hn
  · have hother : (modifyAt s.ring.shadows i f)[n] = s.ring.shadows[n] := modifyAt_other _ _ hi
    rw [hother]
    exact hn

theorem drainNotice_staysReady (i : Fin 16) (s : State) : StaysReady s (drainNotice i s) := by
  unfold drainNotice
  dsimp only
  split
  · exact .of_shadows rfl
  · exact (changeShadow_staysReady (Fin.ofNat 64 i.val) (f := fun h => { h with state := .ready, length := 16 })
      (fun _ _ => ⟨rfl, rfl⟩) s).trans (.of_shadows rfl)

theorem drainOldest_staysReady (s : State) : StaysReady s (drainOldest s) := by
  match hq : s.path.queue with
  | [] =>
    rw [drainOldest_nil hq]
    exact .of_shadows rfl
  | w :: rest =>
    match hn : w.notice with
    | some i =>
      rw [drainOldest_notice hq hn]
      exact (drainNotice_staysReady i _).from rfl
    | none =>
      rw [drainOldest_plain hq hn]
      exact .of_shadows rfl

theorem enterNew_staysReady (w : OwnWrite) (s : State) : StaysReady s (enterNew w s) := by
  unfold enterNew
  split
  · exact .of_shadows rfl
  · refine (drainOldest_staysReady s).trans ?_
    exact (StaysReady.within (recordFault_within .ownWriteStall (.own unitPath 0 0) (stallEnter w s))).from rfl

theorem enterQueue_staysReady (w : OwnWrite) (s : State) : StaysReady s (enterQueue w s) := by
  unfold enterQueue
  split
  · split
    · exact .of_shadows rfl
    · exact .of_shadows rfl
    · exact .of_shadows rfl
  · exact enterNew_staysReady w s

theorem enterMirror_staysReady (o : Nat) (s : State) : StaysReady s (enterMirror o s) :=
  (enterQueue_staysReady (mirrorWrite s o) { s with path := { s.path with shown := (o, mirror s o) :: s.path.shown } }).from rfl

theorem enterPost_staysReady (p : Post) (s : State) : StaysReady s (enterPost s0 p s) := by
  unfold enterPost
  split
  · exact enterQueue_staysReady _ s
  · split
    · exact .of_shadows rfl
    · exact enterMirror_staysReady _ s
  · split
    · exact enterMirror_staysReady _ s
    · exact .of_shadows rfl

theorem settlePath_staysReady (ht : settlePath s0 s = some t) : StaysReady s t := by
  rcases settlePath_cases ht with ⟨p, rest, -, rfl⟩ | ⟨p, rest, -, -, rfl⟩ | ⟨w, -, -, -, rfl⟩ | ⟨-, -, -, -, rfl⟩
  · exact (enterPost_staysReady p _).from rfl
  · exact (enterPost_staysReady p _).from rfl
  · exact (enterQueue_staysReady _ _).from rfl
  · exact .of_shadows rfl

/-- A frame built into a slot leaves the slot's state and length. -/
theorem buildFrame_staysReady (s : State) : StaysReady s (buildFrame s) := by
  unfold buildFrame
  split
  · exact .of_shadows rfl
  · rename_i f rest hl
    dsimp only
    have shown := changeShadow_staysReady (Fin.ofNat 64 s.ring.fill.val)
      (f := fun h => { h with tag := 0, dest := 4095, kind := BitVec.ofNat 8 (PartFrame.code f) }) (fun _ hh => hh)
      { s with ring := { s.ring with
        list := rest, seq := s.ring.seq + 1,
        records := s.ring.records.set s.ring.fill (some { frame := f, seq := s.ring.seq + 1, withdrawn := false }) } }
    exact (shown.from rfl).trans (.of_shadows rfl)

theorem settleUnits_staysReady (ht : settleUnits s0 s = some t) : StaysReady s t := by
  obtain ⟨-, ⟨-, rfl⟩ | ⟨-, i, -, rfl⟩ | ⟨-, -, p, hp, rfl⟩ | ⟨-, -, -, -, rfl⟩ | ⟨-, -, -, -, f, rest, hf, rfl⟩
    | ⟨-, -, -, -, -, hcan, rfl⟩⟩ := settleUnits_cases ht
  · exact .within (deriveLevel_within s)
  · exact .within (serveSegment_within i s)
  · exact .within (forgetTruck_within hp)
  · exact .within (setMuster_within _ s)
  · exact (StaysReady.within (takeRequest_within f _)).from rfl
  · exact buildFrame_staysReady s

theorem enterFollowUp_staysReady (s : State) : StaysReady s (enterFollowUp s) := by
  unfold enterFollowUp
  split
  · exact (enterNew_staysReady _ _).from rfl
  · exact .of_shadows rfl

theorem settleStep_staysReady (ht : settleStep s0 s = some t) : StaysReady s t := by
  rcases settleStep_cases ht with ⟨-, rfl⟩ | ⟨-, hu⟩ | ⟨-, -, hp⟩
  · exact enterFollowUp_staysReady s
  · exact settleUnits_staysReady hu
  · exact settlePath_staysReady hp

theorem sweepPut_staysReady (s : State) : StaysReady s (sweepPut s) := by
  unfold sweepPut
  split
  · exact .of_shadows rfl
  · split
    · split
      · exact .of_shadows rfl
      · exact .of_shadows rfl
    · exact .of_shadows rfl

theorem event_staysReady (f : State → State) (s : State) : StaysReady (f (beginEvent s)) (event f s) := fun n hn =>
  event_keeps (P := ShowsReady n) (fun _ _ _ hu ht => settleStep_staysReady ht n hu) (fun u hu => sweepPut_staysReady u n hu)
    (fun _ hu => hu) hn

theorem drainNotice_showsReady {i : Fin 16} (h : s.ring.shadows[Fin.ofNat 64 i.val].state ≠ .unknown) :
    ShowsReady (Fin.ofNat 64 i.val) (drainNotice i s) := by
  unfold drainNotice
  dsimp only
  rw [if_neg h]
  show (modifyAt s.ring.shadows _ _)[Fin.ofNat 64 i.val].state = _ ∧ (modifyAt s.ring.shadows _ _)[Fin.ofNat 64 i.val].length = _
  have hself := modifyAt_self s.ring.shadows (Fin.ofNat 64 i.val) (fun h => { h with state := .ready, length := 16 })
  exact ⟨congrArg Shadow.state hself, congrArg Shadow.length hself⟩

/-! ## Entering -/

theorem enterNew_room (w : OwnWrite) (hroom : s.path.queue.length < 32) :
    enterNew w s = { s with path := { s.path with queue := s.path.queue ++ [w] } } := by
  rw [enterNew, if_pos (show s.path.queue.length < queueSize from hroom)]
  rfl

theorem enterNew_full (w : OwnWrite) (hfull : 32 ≤ s.path.queue.length) :
    enterNew w s = recordFault .ownWriteStall (.own 1 0 0) (stallEnter w s) := by
  rw [enterNew, if_neg (show ¬s.path.queue.length < queueSize from Nat.not_lt.mpr hfull)]
  rfl

/-! ## Drains -/

theorem exec_drain (hq : s.path.queue ≠ []) : exec .drain s = .next (sweepPut (event drainOldest s)) := by
  show Host.Outcome.next (drainCycle s) = _
  rw [drainCycle, if_neg (by simpa using hq)]

/-- An event whose end does some things, and then no more, in RUN and in SETUP. -/
theorem event_of_settled {f : State → State} (hacted : (f (beginEvent s)).run = s.run)
    (hsettle : settle settleBound (beginEvent s) (f (beginEvent s)) = t) (hrun : t.run = s.run) (hlevel : levelDue t = false) :
    event f s = driveLines t := by
  have hbegun : (beginEvent s).run = s.run := rfl
  have still (b : Bool) : (b && !b) = false := by cases b <;> rfl
  have hbase : eventBase (beginEvent s) (f (beginEvent s)) = beginEvent s := by
    rw [eventBase, hacted, hbegun, still]
    rfl
  rw [event_eq, hbase, hsettle, hrun, hbegun, still, if_neg (by decide), levelEvents_of_not_due 2 hlevel]

theorem settleUnits_setup (h : s.run = false) : settleUnits s0 s = none := by
  unfold settleUnits
  simp [h]

theorem Settled.not_due (h : Settled s) : levelDue s = false := by
  rcases Bool.eq_false_or_eq_true s.run with hrun | hrun
  · have hfirst : (levelDue s && s.level.level == s.level.level) = false := (settleUnits_none (s := beginEvent s) hrun h.rest).1
    simpa using hfirst
  · rw [levelDue, hrun]
    rfl

/-- The units of a settled state stay at rest when an own-write drains or enters. -/
theorem Settled.units_left (h : Settled s) {p : PathUnit} {m : List Host.Cell} (hp : p.scanCursor = s.path.scanCursor) :
    settleUnits (beginEvent s) { beginEvent s with mem := m, path := p } = none := by
  rcases Bool.eq_false_or_eq_true s.run with hrun | hrun
  · refine UnitsAlike.rest (s := beginEvent s) (s0 := beginEvent s) ⟨rfl, rfl, rfl, rfl, rfl⟩ rfl hrun h.rest rfl ?_
    have hsame : canBuild { beginEvent s with mem := m, path := p } = canBuild s := by
      simp only [canBuild, fillShadow, hp]
      rfl
    rw [hsame]
    exact h.not_built hrun
  · exact settleUnits_setup hrun

/-- The queue that a drain leaves, with a freed follow-up value behind it. -/
def drainedQueue (rest : List OwnWrite) (s : State) : List OwnWrite :=
  rest ++ (match s.path.followUp with
    | some d => [{ addr := eventsAddr s 0, data := d, kind := .trailing }]
    | none => [])

/-- What a drain of a plain entry leaves with this queue. -/
def drainedInto (q : List OwnWrite) (w : OwnWrite) (s : State) : State := { beginEvent s with
  mem := memWriteWord s.mem w.addr.toNat w.data,
  path := { (beginEvent s).path with queue := q, followUp := none } }

theorem Settled.drainedInto_rest (h : Settled s) (q : List OwnWrite) (w : OwnWrite) :
    settleStep (beginEvent s) (drainedInto q w s) = none := AtRest.step ⟨h.units_left rfl, rfl⟩

/-- A drain of a plain entry in a settled state without a follow-up value. -/
theorem event_drain_alone (hq : s.path.queue = w :: rest) (hn : w.notice = none) (hset : Settled s) (hfollow : s.path.followUp = none) :
    event drainOldest s = driveLines (drainedInto rest w s) := by
  have hdrain : drainOldest (beginEvent s) = writtenOut w rest (beginEvent s) := drainOldest_plain (s := beginEvent s) hq hn
  have hsame : writtenOut w rest (beginEvent s) = drainedInto rest w s := by
    unfold writtenOut drainedInto
    rw [← hfollow]
    rfl
  refine event_of_settled (by rw [hdrain]; rfl) ?_ rfl hset.not_due
  rw [hdrain, hsame, settle_of_none _ (hset.drainedInto_rest rest w)]

/-- A drain of a plain entry in a settled state: a follow-up value that it frees enters, and nothing else follows. -/
theorem event_drain (hq : s.path.queue = w :: rest) (hn : w.notice = none) (hset : Settled s)
    (hfollow : s.path.followUp = none ∨ w.addr = eventsAddr s 0 ∧ queued rest (eventsAddr s 0) = false)
    (hroom : (drainedQueue rest s).length < 32) : event drainOldest s = driveLines (drainedInto (drainedQueue rest s) w s) := by
  cases hf : s.path.followUp with
  | none =>
    have hqueue : drainedQueue rest s = rest := by rw [drainedQueue, hf]; exact List.append_nil rest
    rw [hqueue]
    exact event_drain_alone hq hn hset hf
  | some d =>
    obtain ⟨-, hfree⟩ := hfollow.resolve_left (by rw [hf]; exact Option.some_ne_none d)
    have hqueue : drainedQueue rest s = rest ++ [{ addr := eventsAddr s 0, data := d, kind := .trailing }] := by
      rw [drainedQueue, hf]
    rw [hqueue] at hroom ⊢
    have hlen : rest.length < queueSize := by
      rw [List.length_append, List.length_singleton] at hroom
      exact (by omega : rest.length < 32)
    have hfirst : followUpFree (writtenOut w rest (beginEvent s)) = true := by
      show (s.path.followUp.isSome && !queued rest (eventsAddr s 0)) = true
      rw [hf, hfree]
      rfl
    have hstep : settleStep (beginEvent s) (writtenOut w rest (beginEvent s))
        = some (drainedInto (rest ++ [{ addr := eventsAddr s 0, data := d, kind := .trailing }]) w s) := by
      rw [settleStep, if_pos hfirst, enterFollowUp]
      have hf' : (writtenOut w rest (beginEvent s)).path.followUp = some d := hf
      simp only [hf']
      exact congrArg some (enterNew_room _ (by exact hlen))
    have hdrain : drainOldest (beginEvent s) = writtenOut w rest (beginEvent s) := drainOldest_plain (s := beginEvent s) hq hn
    refine event_of_settled (by rw [hdrain]; rfl) ?_ rfl hset.not_due
    rw [hdrain, settleBound_succ, settle_of_step hstep, settle_of_none _ (hset.drainedInto_rest _ w)]

/-! ## The sweep -/

theorem sweepWords_last : ∀ o ∈ sweepWords, sweepWords.any (fun k => decide (o < k)) = (o != 0x66C) := by decide +kernel

/-- The first swept word from the cursor on without an entry is the one that the sweep finds (R167). -/
theorem sweepNext_iff (s : State) (q : List OwnWrite) (cursor o : Nat) : SweepNext s q cursor o
    ↔ sweepWords.find? (fun o => decide (cursor ≤ o) && !queued q (reportAddr s o)) = some o := by
  rw [List.find?_eq_some_iff_append, SweepNext]
  refine ⟨fun ⟨before, after, hwords, hcursor, hfree, hbefore⟩ => ⟨by simp [hcursor, hfree], before, after, hwords, fun k hk => ?_⟩,
    fun ⟨hfound, before, after, hwords, hbefore⟩ => ?_⟩
  · rcases hbefore k hk with h | h
    · simp [Nat.not_le.mpr h]
    · simp [h]
  · simp only [Bool.and_eq_true, decide_eq_true_eq, Bool.not_eq_true'] at hfound
    refine ⟨before, after, hwords, hfound.1, hfound.2, fun k hk => ?_⟩
    have hno := hbefore k hk
    simp only [Bool.not_eq_true', Bool.and_eq_false_iff, decide_eq_false_iff_not, Bool.not_eq_false'] at hno
    exact hno.imp_left Nat.not_le.mp

theorem sweepPut_some {cursor o : Nat} (hsweep : s.path.sweep = some cursor) (hroom : s.path.queue.length < 32)
    (ho : SweepNext s s.path.queue cursor o) : sweepPut s = { s with path := { s.path with
      queue := s.path.queue ++ [mirrorWrite s o], sweep := sweepAfter o } } := by
  have hfind := (sweepNext_iff s s.path.queue cursor o).mp ho
  have hroom' : s.path.queue.length < queueSize := hroom
  have hafter : (if sweepWords.any (fun k => decide (o < k)) then some (o + 4) else none) = sweepAfter o := by
    rw [sweepWords_last o (List.mem_of_find?_eq_some hfind), sweepAfter]
    by_cases hlast : o = 0x66C
    · rw [if_pos hlast, hlast]
      rfl
    · rw [if_neg hlast, if_pos (by simpa using hlast)]
  unfold sweepPut
  simp only [hsweep, hfind, hroom', if_true]
  rw [hafter]
  rfl

theorem sweepPut_ended {cursor : Nat} (hsweep : s.path.sweep = some cursor) (hroom : s.path.queue.length < 32)
    (hno : ∀ o, ¬SweepNext s s.path.queue cursor o) : sweepPut s = { s with path := { s.path with sweep := none } } := by
  have hfind : sweepWords.find? (fun o => decide (cursor ≤ o) && !queued s.path.queue (reportAddr s o)) = none := by
    rw [Option.eq_none_iff_forall_not_mem]
    exact fun o ho => hno o ((sweepNext_iff _ _ _ _).mpr ho)
  have hroom' : s.path.queue.length < queueSize := hroom
  unfold sweepPut
  simp only [hsweep, hfind, hroom', if_true]

theorem sweepPut_none (hsweep : s.path.sweep = none) : sweepPut s = s := by
  unfold sweepPut
  simp only [hsweep]

end

end Sys2Proof.Machine
end

section
/-! PROOFS. Own-writes that find the queue full: one stall (R73, R172), and the stalls that an outcome word and the report words of its
stalls make of one event (log entry 20). -/

set_option Elab.async false

namespace Sys2Proof.Machine

open Sys2Proof.Config

section
variable {w v : OwnWrite} {s s0 t u b : State}

/-! ## One stall -/

/-- A recorded event counts no fault but EVENT_LOST. -/
theorem addRecord_counters (kind subject : Nat) (info : Word) (s : State) {k : Fin 12} (hk : k ≠ 7) :
    (addRecord kind subject info s).fault.counters[k] = s.fault.counters[k] := by
  unfold addRecord
  split
  · rfl
  · split
    · exact modifyAt_other _ _ hk
    · rfl

theorem takeCause_counters (c : Cause) (fault : Nat) (s : State) {k : Fin 12} (hk : k ≠ 7) :
    (takeCause c fault s).fault.counters[k] = s.fault.counters[k] := by
  unfold takeCause
  dsimp only
  split
  · split
    · exact addRecord_counters _ _ _ s hk
    · rfl
  · rfl

theorem takeCause_ring (c : Cause) (fault : Nat) (s : State) : (takeCause c fault s).ring = s.ring := by
  unfold takeCause
  dsimp only
  split
  · split
    · exact addRecord_ring _ _ _ s
    · rfl
  · rfl

/-- A fault whose escalation is NONE is counted and its words are named, and that is all (R172). -/
theorem recordFault_none {k : FaultKind} {d : FaultId} (hrun : s.run = true) (hesc : escalation s k = .none) :
    recordFault k d s = postFault k (countFault k d s) := by
  have hesc' : escalation (countFault k d s) k = .none := hesc
  rw [recordFault, if_neg (by simp [hrun])]
  simp only [hesc']

/-- A recorded fault leaves the ring unit, and every counter but its own and EVENT_LOST's. -/
theorem recordFault_leaves (k : FaultKind) (d : FaultId) (s : State) : (recordFault k d s).ring = s.ring
    ∧ ∀ j : Fin 12, j ≠ 7 → s.run = true →
      (recordFault k d s).fault.counters[j] = (modifyAt s.fault.counters (FaultKind.index k) (saturate countTop))[j] := by
  rcases Bool.eq_false_or_eq_true s.run with hrun | hrun
  · rw [recordFault, if_neg (by simp [hrun])]
    dsimp only
    split
    · exact ⟨joinAlert_ring _ _, fun j _ _ => by
        show (joinAlert .latch (countFault k d s)).fault.counters[j] = _
        rw [joinAlert_fault]
        rfl⟩
    · exact ⟨takeCause_ring _ _ _, fun j hj _ => takeCause_counters _ _ _ hj⟩
    · exact ⟨rfl, fun _ _ _ => rfl⟩
    · exact ⟨rfl, fun _ _ _ => rfl⟩
  · rw [recordFault, if_pos (by simp [hrun])]
    exact ⟨rfl, fun _ _ h => absurd (h.symm.trans hrun) (by decide)⟩

theorem stallEnter_plain {e : OwnWrite} {rest : List OwnWrite} (hq : s.path.queue = e :: rest) (hn : e.notice = none) (w : OwnWrite) :
    stallEnter w s = { writtenOut e (rest ++ [w]) s with waitCycles := s.waitCycles + 1 } := by
  unfold stallEnter
  rw [drainOldest_plain hq hn]
  rfl

theorem drainNotice_rest (i : Fin 16) (s : State) : (drainNotice i s).mem = s.mem ∧ (drainNotice i s).path.queue = s.path.queue
    ∧ (drainNotice i s).waitCycles = s.waitCycles ∧ (drainNotice i s).fault = s.fault ∧ (drainNotice i s).time = s.time
    ∧ (drainNotice i s).effective = s.effective ∧ (drainNotice i s).run = s.run := by
  unfold drainNotice
  dsimp only
  split
  · exact ⟨rfl, rfl, rfl, rfl, rfl, rfl, rfl⟩
  · exact ⟨rfl, rfl, rfl, rfl, rfl, rfl, rfl⟩

/-- What a stall leaves, with and without a notice (R73). -/
theorem stallEnter_leaves {e : OwnWrite} {rest : List OwnWrite} (hq : s.path.queue = e :: rest) (w : OwnWrite) :
    (stallEnter w s).mem = memWriteWord s.mem e.addr.toNat e.data ∧ (stallEnter w s).path.queue = rest ++ [w]
      ∧ (stallEnter w s).waitCycles = s.waitCycles + 1 ∧ (stallEnter w s).fault = s.fault ∧ (stallEnter w s).time = s.time
      ∧ (stallEnter w s).effective = s.effective ∧ (stallEnter w s).run = s.run := by
  cases hn : e.notice with
  | none =>
    rw [stallEnter_plain hq hn]
    exact ⟨rfl, rfl, rfl, rfl, rfl, rfl, rfl⟩
  | some i =>
    obtain ⟨hmem, hqueue, hwait, hfault, htime, heff, hrun⟩ := drainNotice_rest i (writtenOut e rest s)
    unfold stallEnter
    rw [drainOldest_notice hq hn]
    exact ⟨hmem, congrArg (· ++ [w]) hqueue, congrArg (· + 1) hwait, hfault, htime, heff, hrun⟩

theorem stallEnter_ring {e : OwnWrite} {rest : List OwnWrite} (hq : s.path.queue = e :: rest) (w : OwnWrite) :
    (e.notice = none → (stallEnter w s).ring = s.ring)
      ∧ ∀ n, e.notice = some n → s.ring.shadows[Fin.ofNat 64 n.val].state ≠ .unknown →
          ShowsReady (Fin.ofNat 64 n.val) (stallEnter w s) := by
  refine ⟨fun hn => ?_, fun n hn hstate => ?_⟩
  · rw [stallEnter_plain hq hn]
    rfl
  · unfold stallEnter
    rw [drainOldest_notice hq hn]
    exact drainNotice_showsReady (s := writtenOut e rest s) hstate

/-! ## The faults of some stalls -/

/-- The state in which `n` stalls more have been counted. -/
def stallsCounted (n : Nat) (b : State) : State := (countFault .ownWriteStall (.own unitPath 0 0))^[n] b

theorem stallsCounted_succ (n : Nat) (b : State) :
    stallsCounted (n + 1) b = countFault .ownWriteStall (.own unitPath 0 0) (stallsCounted n b) := Function.iterate_succ_apply' _ _ _

theorem stallsCounted_eq (n : Nat) (b : State) : ∃ f, stallsCounted n b = { b with fault := f } := by
  induction n with
  | zero => exact ⟨b.fault, rfl⟩
  | succ n ih =>
    obtain ⟨f, hf⟩ := ih
    rw [stallsCounted_succ, hf]
    exact ⟨_, rfl⟩

theorem countFault_stalls (s : State) : (countFault .ownWriteStall (.own unitPath 0 0) s).fault.counters
    = modifyAt s.fault.counters 6 (saturate countTop) := rfl

theorem stallsCounted_counters (n : Nat) (b : State) :
    (stallsCounted n b).fault.counters[(6 : Fin 12)] = (saturate countTop)^[n] b.fault.counters[(6 : Fin 12)]
      ∧ (stallsCounted n b).fault.counters[(7 : Fin 12)] = b.fault.counters[(7 : Fin 12)] := by
  induction n with
  | zero => exact ⟨rfl, rfl⟩
  | succ n ih =>
    obtain ⟨h6, h7⟩ := ih
    rw [stallsCounted_succ, countFault_stalls, Function.iterate_succ_apply']
    exact ⟨(modifyAt_self _ _ _).trans (congrArg _ h6), (modifyAt_other _ _ (by decide)).trans h7⟩

theorem countFault_logOff (k : FaultKind) (d : FaultId) (h : s.effective.faults[FaultKind.index k].logOff = true) :
    (countFault k d s).fault.log = s.fault.log := by
  rw [countFault_log, if_pos h]

/-- The log through some stalls: as it was, or its entry with that many further faults, or an entry of a stall. -/
theorem stallsCounted_log (n : Nat) (b : State) :
    (stallsCounted n b).fault.log = b.fault.log ∧ b.effective.faults[FaultKind.index .ownWriteStall].logOff = true
      ∨ b.effective.faults[FaultKind.index .ownWriteStall].logOff = false
        ∧ (∀ e, b.fault.log = some e → (stallsCounted n b).fault.log = some { e with further := (saturate 255)^[n] e.further })
        ∧ (b.fault.log = none → ∀ m, n = m + 1 → (stallsCounted n b).fault.log
            = some { kind := .ownWriteStall, ident := .own unitPath 0 0, time := b.time, further := (saturate 255)^[m] 0 }) := by
  have same (n : Nat) : (stallsCounted n b).effective = b.effective ∧ (stallsCounted n b).time = b.time := by
    obtain ⟨f, hf⟩ := stallsCounted_eq n b
    exact ⟨by rw [hf], by rw [hf]⟩
  have step (n : Nat) (hoff : b.effective.faults[FaultKind.index .ownWriteStall].logOff = false) :
      ((stallsCounted n b).fault.log = none → (stallsCounted (n + 1) b).fault.log
          = some { kind := .ownWriteStall, ident := .own unitPath 0 0, time := b.time, further := 0 })
        ∧ ∀ e, (stallsCounted n b).fault.log = some e →
          (stallsCounted (n + 1) b).fault.log = some { e with further := saturate 255 e.further } := by
    obtain ⟨heff, htime⟩ := same n
    have hlogged : ¬(stallsCounted n b).effective.faults[FaultKind.index .ownWriteStall].logOff = true := by
      rw [heff, hoff]
      decide
    rw [stallsCounted_succ, countFault_log, if_neg hlogged]
    refine ⟨fun h => ?_, fun e h => ?_⟩
    · rw [h, ← htime]
    · rw [h]
  cases hoff : b.effective.faults[FaultKind.index .ownWriteStall].logOff with
  | true =>
    refine .inl ⟨?_, rfl⟩
    induction n with
    | zero => rfl
    | succ n ih => rw [stallsCounted_succ, countFault_logOff _ _ (by rw [(same n).1]; exact hoff), ih]
  | false =>
    refine .inr ⟨rfl, ?_⟩
    induction n with
    | zero => exact ⟨fun e he => he, fun _ m hm => by omega⟩
    | succ n ih =>
      obtain ⟨hsome, hnone⟩ := ih
      refine ⟨fun e he => ?_, fun he m hm => ?_⟩
      · rw [(step n hoff).2 _ (hsome e he), Function.iterate_succ_apply']
      · obtain rfl : n = m := by omega
        cases n with
        | zero => exact (step 0 hoff).1 he
        | succ n => rw [(step (n + 1) hoff).2 _ (hnone he n rfl), Function.iterate_succ_apply']

theorem saturate_iterate (top n c : Nat) : (saturate top)^[n] c = if c < top then min top (c + n) else c := by
  induction n with
  | zero =>
    rw [Function.iterate_zero, id]
    split_ifs <;> omega
  | succ n ih =>
    rw [Function.iterate_succ_apply', ih, saturate]
    split_ifs <;> omega

/-- A count that shows its first value after some steps had reached its top, and shows it from then on. -/
theorem saturate_stays {top n m c : Nat} (hn : 1 ≤ n) (h : (saturate top)^[n] c % (top + 1) = c % (top + 1)) :
    (saturate top)^[m] c = c := by
  rw [saturate_iterate] at h ⊢
  split at h
  · rw [Nat.mod_eq_of_lt (by omega), Nat.mod_eq_of_lt (by omega)] at h
    omega
  · rw [if_neg ‹_›]

/-! ## The report words of a stall -/

/-- The report words that a stall names (R172). -/
def stallWords : List Nat := [0x64C, 0x660, 0x664, 0x668, 0x66C]

theorem mirror_stallCounter (s : State) : mirror s 0x64C
    = layout [(0, 16, s.fault.counters[(6 : Fin 12)]), (16, 16, s.fault.counters[(7 : Fin 12)])] := rfl

theorem mirror_log (s : State) : mirror s 0x660 = mirrorLog s 0 ∧ mirror s 0x664 = mirrorLog s 1 ∧ mirror s 0x668 = mirrorLog s 2
    ∧ mirror s 0x66C = mirrorLog s 3 := ⟨rfl, rfl, rfl, rfl⟩

theorem layout_pair_toNat (x y : Nat) : (layout [(0, 16, x), (16, 16, y)]).toNat = x % 65536 + y % 65536 * 65536 := by
  have hvalue : (layout [(0, 16, x), (16, 16, y)]).toNat = (0 + x % 2 ^ 16 * 2 ^ 0 + y % 2 ^ 16 * 2 ^ 16) % 2 ^ 32 :=
    BitVec.toNat_ofNat _ _
  rw [hvalue]
  omega

theorem layout_log_toNat (x i j y : Nat) : (layout [(0, 4, x), (4, 1, i), (8, 4, j), (16, 8, y)]).toNat
    = x % 16 + i % 2 * 16 + j % 16 * 256 + y % 256 * 65536 := by
  have hvalue : (layout [(0, 4, x), (4, 1, i), (8, 4, j), (16, 8, y)]).toNat
      = (0 + x % 2 ^ 4 * 2 ^ 0 + i % 2 ^ 1 * 2 ^ 4 + j % 2 ^ 4 * 2 ^ 8 + y % 2 ^ 8 * 2 ^ 16) % 2 ^ 32 := BitVec.toNat_ofNat _ _
  rw [hvalue]
  omega

/-- The log's words, of an entry. -/
theorem mirrorLog_some (e : LogEntry) : ∃ i j : Nat, ∃ x y : Word, ∀ t : State, ∀ further,
    t.fault.log = some { e with further := further } → mirrorLog t 0 = layout [(0, 4, FaultKind.code e.kind), (4, 1, i), (8, 4, j),
      (16, 8, further)] ∧ mirrorLog t 1 = x ∧ mirrorLog t 2 = y ∧ mirrorLog t 3 = e.time := by
  obtain ⟨kind, ident, time, more⟩ := e
  cases ident with
  | bus init addr data =>
    refine ⟨0, Initiator.code init, word addr.toNat, data, fun t further ht => ?_⟩
    simp only [mirrorLog, ht]
    exact ⟨trivial, trivial, trivial, trivial⟩
  | own unit index data =>
    refine ⟨1, unit, index, data, fun t further ht => ?_⟩
    simp only [mirrorLog, ht]
    exact ⟨trivial, trivial, trivial, trivial⟩

theorem mirrorLog_none (h : s.fault.log = none) (k : Nat) : mirrorLog s k = 0 := by
  rw [mirrorLog, h]

/-- The word of the log that counts the further faults: once it shows its first value again, it stays. -/
theorem mirrorLog_stays {n m k : Nat} (hn : 1 ≤ n) (hnm : n ≤ m) (hk : k < 4)
    (h : mirrorLog (stallsCounted n b) k = mirrorLog b k) : mirrorLog (stallsCounted m b) k = mirrorLog b k := by
  have off (hlog : (stallsCounted m b).fault.log = b.fault.log) : mirrorLog (stallsCounted m b) k = mirrorLog b k := by
    rw [mirrorLog, mirrorLog, hlog]
  rcases stallsCounted_log m b with ⟨hoff, -⟩ | ⟨hlogged, hsome, hnone⟩
  · exact off hoff
  · rcases stallsCounted_log n b with ⟨-, hoff⟩ | ⟨-, hsome', hnone'⟩
    · rw [hlogged] at hoff
      cases hoff
    · obtain ⟨n, rfl⟩ : ∃ l, n = l + 1 := ⟨n - 1, by omega⟩
      obtain ⟨m, rfl⟩ : ∃ l, m = l + 1 := ⟨m - 1, by omega⟩
      cases hlog : b.fault.log with
      | none =>
        obtain ⟨i, j, x, y, hwords⟩ := mirrorLog_some
          { kind := .ownWriteStall, ident := .own unitPath 0 0, time := b.time, further := 0 }
        obtain ⟨hn0, hn1, hn2, hn3⟩ := hwords _ _ (hnone' hlog n rfl)
        obtain ⟨hm0, hm1, hm2, hm3⟩ := hwords _ _ (hnone hlog m rfl)
        rw [mirrorLog_none hlog] at h ⊢
        match k, hk with
        | 0, _ =>
          rw [hn0] at h
          have hvalue := congrArg BitVec.toNat h
          rw [layout_log_toNat] at hvalue
          have hcode : FaultKind.code .ownWriteStall = 7 := rfl
          have hzero : (0 : Word).toNat = 0 := rfl
          dsimp only at hvalue
          omega
        | 1, _ => exact (hm1.trans hn1.symm).trans h
        | 2, _ => exact (hm2.trans hn2.symm).trans h
        | 3, _ => exact (hm3.trans hn3.symm).trans h
      | some e =>
        obtain ⟨i, j, x, y, hwords⟩ := mirrorLog_some e
        obtain ⟨hb0, hb1, hb2, hb3⟩ := hwords b e.further hlog
        obtain ⟨hn0, hn1, hn2, hn3⟩ := hwords _ _ (hsome' e hlog)
        obtain ⟨hm0, hm1, hm2, hm3⟩ := hwords _ _ (hsome e hlog)
        match k, hk with
        | 0, _ =>
          rw [hn0, hb0] at h
          have hvalue := congrArg BitVec.toNat h
          rw [layout_log_toNat, layout_log_toNat] at hvalue
          have hlow : (saturate 255)^[n + 1] e.further % (255 + 1) = e.further % (255 + 1) := by omega
          rw [hm0, hb0, saturate_stays hn hlow]
        | 1, _ => exact hm1.trans hb1.symm
        | 2, _ => exact hm2.trans hb2.symm
        | 3, _ => exact hm3.trans hb3.symm

/-- A word of a stall that shows its first value after some stalls shows it after any more. -/
theorem stallWord_stays {n m o : Nat} (ho : o ∈ stallWords) (hn : 1 ≤ n) (hnm : n ≤ m)
    (h : mirror (stallsCounted n b) o = mirror b o) : mirror (stallsCounted m b) o = mirror b o := by
  simp only [stallWords, List.mem_cons, List.not_mem_nil, or_false] at ho
  rcases ho with rfl | rfl | rfl | rfl | rfl
  · obtain ⟨hn6, hn7⟩ := stallsCounted_counters n b
    obtain ⟨hm6, hm7⟩ := stallsCounted_counters m b
    rw [mirror_stallCounter, mirror_stallCounter, hn6, hn7] at h
    rw [mirror_stallCounter, mirror_stallCounter, hm6, hm7]
    have hvalue := congrArg BitVec.toNat h
    rw [layout_pair_toNat, layout_pair_toNat] at hvalue
    have htop : countTop = 65535 := rfl
    have hlow : (saturate countTop)^[n] b.fault.counters[(6 : Fin 12)] % (countTop + 1)
        = b.fault.counters[(6 : Fin 12)] % (countTop + 1) := by
      rw [htop] at hvalue ⊢
      omega
    rw [saturate_stays hn hlow]
  · rw [(mirror_log _).1, (mirror_log b).1] at h ⊢
    exact mirrorLog_stays hn hnm (by omega) h
  · rw [(mirror_log _).2.1, (mirror_log b).2.1] at h ⊢
    exact mirrorLog_stays hn hnm (by omega) h
  · rw [(mirror_log _).2.2.1, (mirror_log b).2.2.1] at h ⊢
    exact mirrorLog_stays hn hnm (by omega) h
  · rw [(mirror_log _).2.2.2, (mirror_log b).2.2.2] at h ⊢
    exact mirrorLog_stays hn hnm (by omega) h

end

end Sys2Proof.Machine
end

section
/-! PROOFS. The outcome word of a refused request at a full queue, the report words of its stall, and theirs (R73, R164, R172; log entry
20). -/

set_option Elab.async false

namespace Sys2Proof.Machine

open Sys2Proof.Config

section
variable {w v : OwnWrite} {s t u b : State} {n o : Nat} {T : List OwnWrite} {P D Q R : List Nat} {shown : List (Nat × Word)}

/-! ## After some stalls -/

/-- The state after `n` stalls at the full queue of `b`: that many of its oldest entries are in memory, the own-writes of `T` stand behind
the others, and these report words are still to enter. -/
def stalledAt (b : State) (n : Nat) (T : List OwnWrite) (P : List Nat) (shown : List (Nat × Word)) : State := { b with
  mem := (b.path.queue.take n).foldl (fun m e => memWriteWord m e.addr.toNat e.data) b.mem
  waitCycles := n
  fault := (stallsCounted n b).fault
  path := { b.path with queue := b.path.queue.drop n ++ T, posts := P.map .changed, shown := shown } }

/-- A queue that is full of plain entries in RUN, where a stall's fault escalates nothing and nothing else is left to do. -/
structure FullQueue (b : State) : Prop where
  run : b.run = true
  full : b.path.queue.length = 32
  plain : ∀ e ∈ b.path.queue, e.notice = none
  escalates : escalation b .ownWriteStall = .none
  followUp : b.path.followUp = none
  idle : b.path.posts = [] ∧ b.path.reports = [] ∧ b.path.outcome = none ∧ b.path.shown = [] ∧ b.ring.requests = []
  units : settleUnits b b = none
  waits : b.waitCycles = 0

theorem stallsCounted_self (n : Nat) (b : State) : stallsCounted n b = { b with fault := (stallsCounted n b).fault } := by
  obtain ⟨f, hf⟩ := stallsCounted_eq n b
  rw [hf]

theorem mirror_stalledAt (b : State) (n : Nat) (T : List OwnWrite) (P : List Nat) (shown : List (Nat × Word)) (o : Nat) :
    mirror (stalledAt b n T P shown) o = mirror (stallsCounted n b) o := by
  rw [stallsCounted_self n b]
  rfl

theorem FullQueue.atRest (h : FullQueue b) : AtRest b (stalledAt b n T P shown) := by
  obtain ⟨hlevel, hmarked, hforget, hmuster, hreq, hbuild⟩ := settleUnits_none h.run h.units
  refine ⟨settleUnits_rest hlevel hmarked hforget hmuster hreq hbuild, ?_⟩
  show (b.path.followUp.isSome && _) = false
  rw [h.followUp]
  rfl

theorem stallFault_succ (b : State) (n : Nat) (T : List OwnWrite) (P : List Nat) (shown : List (Nat × Word)) :
    (countFault .ownWriteStall (.own 1 0 0) (stalledAt b n T P shown)).fault = (stallsCounted (n + 1) b).fault := by
  rw [stallsCounted_succ, stallsCounted_self n b]
  rfl

/-- One stall more. -/
theorem enterNew_stalledAt (h : FullQueue b) (hT : T.length = n) (hn : n < 32) (v : OwnWrite) :
    enterNew v (stalledAt b n T P shown) = stalledAt b (n + 1) (T ++ [v]) (P ++ stallWords) shown := by
  have hlt : n < b.path.queue.length := by rw [h.full]; exact hn
  have hdrop : b.path.queue.drop n = b.path.queue[n] :: b.path.queue.drop (n + 1) := List.drop_eq_getElem_cons hlt
  have hq : (stalledAt b n T P shown).path.queue = b.path.queue[n] :: (b.path.queue.drop (n + 1) ++ T) := by
    show b.path.queue.drop n ++ T = _
    rw [hdrop]
    rfl
  have hlen : 32 ≤ (stalledAt b n T P shown).path.queue.length := by
    rw [hq, List.length_cons, List.length_append, List.length_drop, h.full, hT]
    omega
  have hmem : (b.path.queue.take (n + 1)).foldl (fun m e => memWriteWord m e.addr.toNat e.data) b.mem
      = memWriteWord ((b.path.queue.take n).foldl (fun m e => memWriteWord m e.addr.toNat e.data) b.mem)
          b.path.queue[n].addr.toNat b.path.queue[n].data := by
    rw [List.take_succ_eq_append_getElem hlt, List.foldl_append]
    rfl
  have hfault : (stallsCounted (n + 1) b).fault
      = (countFault .ownWriteStall (.own 1 0 0) (stalledAt b n T P shown)).fault := (stallFault_succ b n T P shown).symm
  rw [enterNew_full v hlen, stallEnter_plain hq (h.plain _ (List.getElem_mem hlt))]
  refine (recordFault_none (by exact h.run) (by exact h.escalates)).trans ?_
  unfold stalledAt
  rw [hmem, hfault, List.map_append, ← List.append_assoc]
  rfl

/-! ## One report word -/

/-- The entry of a report word with this value. -/
def valueEntry (b : State) (x : Word) (o : Nat) : OwnWrite := { addr := reportAddr b o, data := x, kind := .coalescing }

/-- The entry of a report word with its value in a table of values. -/
def wordEntry (b : State) (data : Nat → Word) (o : Nat) : OwnWrite := valueEntry b (data o) o

/-- The words of a stall have no entry in the queue, and lie at addresses of their own. -/
structure FreshWords (b : State) (w : OwnWrite) : Prop where
  queue : ∀ o ∈ stallWords, queued b.path.queue (reportAddr b o) = false
  outcome : ∀ o ∈ stallWords, reportAddr b o ≠ w.addr

theorem stallWords_addr (b : State) {i : Nat} (hi : i ∈ stallWords) (ho : o ∈ stallWords) (ha : reportAddr b i = reportAddr b o) :
    i = o := by
  have hlow : ∀ k ∈ stallWords, k < 0x670 := by decide
  have hvalue := congrArg BitVec.toNat ha
  have haddr (k : Nat) : (reportAddr b k).toNat = (b.effective.regions.report.toNat + k) % 2 ^ 24 := BitVec.toNat_ofNat _ _
  rw [haddr, haddr] at hvalue
  have := hlow i hi
  have := hlow o ho
  omega

theorem FreshWords.drop (h : FreshWords b w) (ho : o ∈ stallWords) (n : Nat) : ∀ e ∈ b.path.queue.drop n, e.addr ≠ reportAddr b o := by
  intro e he ha
  have hq := h.queue o ho
  rw [queued_of_mem (List.mem_of_mem_drop he) ha] at hq
  cases hq

/-- The report words on their way through the stalls that they make: those of `D` have entered, in this order, each by one stall; those of
`P` are still named. -/
structure Stalling (b : State) (w : OwnWrite) (D P : List Nat) (s : State) : Prop where
  distinct : D.Nodup
  entered : ∀ o ∈ D, o ∈ stallWords
  named : ∀ o ∈ P, o ∈ stallWords
  shape : ∃ data shown, s = stalledAt b (D.length + 1) (w :: D.map (wordEntry b data)) P shown
    ∧ (∀ o ∈ D, o ∈ P ∨ data o = mirror (stallsCounted (D.length + 1) b) o) ∧ ∀ o, o ∉ D → shown.lookup o = none

theorem Stalling.length_le (h : Stalling b w D P s) : D.length ≤ 5 :=
  (h.distinct.subperm h.entered).length_le

/-- The first word still named, taken. -/
theorem settleStep_stalledAt (h : FullQueue b) (o : Nat) (P : List Nat) :
    settleStep b (stalledAt b n T (o :: P) shown) = some (enterPost b (.changed o) (stalledAt b n T P shown)) := by
  rw [h.atRest.step]
  rfl

theorem enterPost_stalledAt (b : State) (o : Nat) : enterPost b (.changed o) (stalledAt b n T P shown)
    = if (shown.lookup o).getD (mirror b o) != mirror (stallsCounted n b) o || queued (b.path.queue.drop n ++ T) (reportAddr b o) then
        enterQueue (valueEntry b (mirror (stallsCounted n b) o) o)
          (stalledAt b n T P ((o, mirror (stallsCounted n b) o) :: shown))
      else stalledAt b n T P shown := by
  rw [← mirror_stalledAt b n T P shown o]
  rfl

theorem lookup_cons_ne {x : Word} {k : Nat} (hne : k ≠ o) : ((o, x) :: shown).lookup k = shown.lookup k := by
  rw [List.lookup_cons, show (k == o) = false by simpa using hne]

theorem enterQueue_coalesced {q : List OwnWrite} (hq : queued s.path.queue v.addr = true) (hk : v.kind = .coalescing)
    (hc : coalesce s.path.queue v = q) : enterQueue v s = { s with path := { s.path with queue := q } } := by
  rw [enterQueue, if_pos hq]
  simp only [hk, hc]

theorem enterQueue_fresh (hq : queued s.path.queue v.addr = false) : enterQueue v s = enterNew v s := by
  rw [enterQueue, hq, if_neg (by decide)]

/-- A word that has entered already takes its value in place. -/
theorem Stalling.known (h : Stalling b w D (o :: P) s) (hb : FullQueue b) (hw : FreshWords b w) (ho : o ∈ D) :
    ∃ t, settleStep b s = some t ∧ Stalling b w D P t := by
  obtain ⟨data, shown, rfl, hdata, hshown⟩ := h.shape
  have hin := h.entered o ho
  refine ⟨_, settleStep_stalledAt hb o P, h.distinct, h.entered, fun k hk => h.named k (List.mem_cons_of_mem _ hk),
    Function.update data o (mirror (stallsCounted (D.length + 1) b) o), (o, mirror (stallsCounted (D.length + 1) b) o) :: shown,
    ?_, fun k hk => ?_, fun k hk => ?_⟩
  · have hqueued : queued (b.path.queue.drop (D.length + 1) ++ w :: D.map (wordEntry b data)) (reportAddr b o) = true :=
      queued_of_mem (w := wordEntry b data o)
        (List.mem_append_right _ (List.mem_cons_of_mem _ (List.mem_map.mpr ⟨o, ho, rfl⟩))) rfl
    have hcoalesce : coalesce (b.path.queue.drop (D.length + 1) ++ w :: D.map (wordEntry b data))
        (valueEntry b (mirror (stallsCounted (D.length + 1) b) o) o)
        = b.path.queue.drop (D.length + 1)
          ++ w :: D.map (wordEntry b (Function.update data o (mirror (stallsCounted (D.length + 1) b) o))) := by
      rw [coalesce, List.map_append, List.map_cons, List.map_map, if_neg (by exact (hw.outcome o hin).symm)]
      congr 1
      · exact (List.map_congr_left fun e he => if_neg (hw.drop hin _ e he)).trans (List.map_id _)
      · refine congrArg (w :: ·) (List.map_congr_left fun k hk => ?_)
        by_cases hko : k = o
        · subst hko
          show (if reportAddr b k = reportAddr b k then _ else _) = _
          rw [if_pos rfl, wordEntry, wordEntry, Function.update_self]
          rfl
        · have hne : ¬reportAddr b k = reportAddr b o := fun ha => hko (stallWords_addr b (h.entered k hk) hin ha)
          show (if reportAddr b k = reportAddr b o then _ else _) = _
          rw [if_neg hne, wordEntry, wordEntry, Function.update_of_ne hko]
    rw [enterPost_stalledAt, hqueued, Bool.or_true, if_pos rfl]
    exact enterQueue_coalesced hqueued rfl hcoalesce
  · by_cases hko : k = o
    · subst hko
      exact .inr (Function.update_self _ _ _)
    · rw [Function.update_of_ne hko]
      exact (hdata k hk).imp_left fun hp => (List.mem_cons.mp hp).resolve_left hko
  · rw [lookup_cons_ne (fun hko : k = o => hk (hko ▸ ho))]
    exact hshown k hk

theorem FreshWords.free (hw : FreshWords b w) (hD : ∀ k ∈ D, k ∈ stallWords) (hin : o ∈ stallWords) (ho : o ∉ D) (n : Nat)
    (data : Nat → Word) : queued (b.path.queue.drop n ++ w :: D.map (wordEntry b data)) (reportAddr b o) = false := by
  refine queued_of_new fun hm => ?_
  obtain ⟨e, he, ha⟩ := List.mem_map.mp hm
  rcases List.mem_append.mp he with he | he
  · exact hw.drop hin n e he ha
  · rcases List.mem_cons.mp he with rfl | he
    · exact hw.outcome o hin ha.symm
    · obtain ⟨k, hk, rfl⟩ := List.mem_map.mp he
      exact ho (stallWords_addr b (hD k hk) hin ha ▸ hk)

/-- A word that the stalls so far have left as it was enters nothing. -/
theorem Stalling.same (h : Stalling b w D (o :: P) s) (hb : FullQueue b) (hw : FreshWords b w) (ho : o ∉ D)
    (hsame : mirror (stallsCounted (D.length + 1) b) o = mirror b o) : ∃ t, settleStep b s = some t ∧ Stalling b w D P t := by
  obtain ⟨data, shown, rfl, hdata, hshown⟩ := h.shape
  have hin := h.named o List.mem_cons_self
  refine ⟨_, settleStep_stalledAt hb o P, h.distinct, h.entered, fun k hk => h.named k (List.mem_cons_of_mem _ hk), data, shown, ?_,
    fun k hk => (hdata k hk).imp_left fun hp => (List.mem_cons.mp hp).resolve_left fun hko : k = o => ho (hko ▸ hk), hshown⟩
  rw [enterPost_stalledAt, hw.free h.entered hin ho, hshown o ho, hsame, if_neg (by simp)]

/-- A word that the stalls so far have changed enters by one stall more, which names its words behind the others. -/
theorem Stalling.new (h : Stalling b w D (o :: P) s) (hb : FullQueue b) (hw : FreshWords b w) (ho : o ∉ D)
    (hnew : mirror (stallsCounted (D.length + 1) b) o ≠ mirror b o) :
    ∃ t, settleStep b s = some t ∧ Stalling b w (D ++ [o]) (P ++ stallWords) t := by
  have hlen := h.length_le
  obtain ⟨data, shown, rfl, hdata, hshown⟩ := h.shape
  have hin := h.named o List.mem_cons_self
  refine ⟨_, settleStep_stalledAt hb o P, h.distinct.append (List.nodup_singleton o) (List.disjoint_singleton.mpr ho), fun k hk => ?_,
    fun k hk => ?_, Function.update data o (mirror (stallsCounted (D.length + 1) b) o),
    (o, mirror (stallsCounted (D.length + 1) b) o) :: shown, ?_, fun k hk => .inl (List.mem_append_right _ ?_), fun k hk => ?_⟩
  · exact (List.mem_append.mp hk).elim (h.entered k) fun hk => List.mem_singleton.mp hk ▸ hin
  · exact (List.mem_append.mp hk).elim (fun hk => h.named k (List.mem_cons_of_mem _ hk)) id
  · have hfree := hw.free h.entered hin ho (D.length + 1) data
    have hentries : (w :: D.map (wordEntry b data)) ++ [valueEntry b (mirror (stallsCounted (D.length + 1) b) o) o]
        = w :: (D ++ [o]).map (wordEntry b (Function.update data o (mirror (stallsCounted (D.length + 1) b) o))) := by
      rw [List.map_append, List.cons_append]
      refine congrArg (w :: ·) (congrArg₂ (· ++ ·) (List.map_congr_left fun k hk => ?_) ?_)
      · rw [wordEntry, wordEntry, Function.update_of_ne fun hko : k = o => ho (hko ▸ hk)]
      · rw [List.map_singleton, wordEntry, Function.update_self]
    rw [enterPost_stalledAt, hfree, hshown o ho, Bool.or_false, Option.getD_none, if_pos (by simpa using hnew.symm)]
    refine (enterQueue_fresh hfree).trans ?_
    rw [enterNew_stalledAt hb (by simp) (by omega), hentries, List.length_append, List.length_singleton]
  · exact (List.mem_append.mp hk).elim (h.entered k) fun hk => List.mem_singleton.mp hk ▸ hin
  · rw [List.mem_append, List.mem_singleton, not_or] at hk
    rw [lookup_cons_ne hk.2]
    exact hshown k hk.1

/-! ## All of them -/

/-- The words that have not entered show what they showed before the event. -/
def OthersSame (b : State) (D l : List Nat) : Prop :=
  ∀ o ∈ l, o ∉ D → mirror (stallsCounted (D.length + 1) b) o = mirror b o

/-- With no word left that could stall, the named words are taken without one. -/
theorem Stalling.taken (hb : FullQueue b) (hw : FreshWords b w) (hsame : OthersSame b D stallWords) (h : Stalling b w D P s) :
    ∃ t, SettlesIn P.length b s t ∧ Stalling b w D [] t := by
  induction P generalizing s with
  | nil => exact ⟨s, .refl _ _, h⟩
  | cons o P ih =>
    have first : ∃ u, settleStep b s = some u ∧ Stalling b w D P u := by
      by_cases ho : o ∈ D
      · exact h.known hb hw ho
      · exact h.same hb hw ho (hsame o (h.named o List.mem_cons_self) ho)
    obtain ⟨u, hu, hstall⟩ := first
    obtain ⟨t, ht, hend⟩ := ih hstall
    refine ⟨t, ?_, hend⟩
    rw [List.length_cons, Nat.add_comm]
    exact (SettlesIn.of_step hu).trans ht

/-- The words of the first stall are taken in their order, and those that the stalls have changed enter. -/
theorem Stalling.first_pass (hb : FullQueue b) (hw : FreshWords b w) {pre : List Nat} (hsplit : pre ++ R = stallWords)
    (hD : D.Sublist pre) (hsame : OthersSame b D pre) (h : Stalling b w D (R ++ Q) s) :
    ∃ D' Q' t, SettlesIn R.length b s t ∧ Stalling b w D' Q' t ∧ D'.Sublist stallWords ∧ OthersSame b D' stallWords
      ∧ Q'.length ≤ Q.length + 5 * R.length := by
  induction R generalizing pre D Q s with
  | nil =>
    rw [List.append_nil] at hsplit
    subst hsplit
    exact ⟨D, Q, s, .refl _ _, h, hD, hsame, by omega⟩
  | cons o R ih =>
    have hsplit' : (pre ++ [o]) ++ R = stallWords := by rw [List.append_assoc]; exact hsplit
    have hin : o ∈ stallWords := h.named o List.mem_cons_self
    have still (hs : OthersSame b D pre) (ho : o ∈ D ∨ mirror (stallsCounted (D.length + 1) b) o = mirror b o) :
        OthersSame b D (pre ++ [o]) := fun k hk hkD => by
      rcases List.mem_append.mp hk with hk | hk
      · exact hs k hk hkD
      · rw [List.mem_singleton.mp hk] at hkD ⊢
        exact ho.resolve_left hkD
    have join {u : State} {D' Q' : List Nat} (hu : settleStep b s = some u) (hstall : Stalling b w D' (R ++ Q') u)
        (hD' : D'.Sublist (pre ++ [o])) (hs : OthersSame b D' (pre ++ [o])) (hlen : Q'.length ≤ Q.length + 5) :
        ∃ D'' Q'' t, SettlesIn (o :: R).length b s t ∧ Stalling b w D'' Q'' t ∧ D''.Sublist stallWords
          ∧ OthersSame b D'' stallWords ∧ Q''.length ≤ Q.length + 5 * (o :: R).length := by
      obtain ⟨D'', Q'', t, ht, hend, hsub, hothers, hcount⟩ := ih hsplit' hD' hs hstall
      refine ⟨D'', Q'', t, ?_, hend, hsub, hothers, ?_⟩
      · rw [List.length_cons, Nat.add_comm]
        exact (SettlesIn.of_step hu).trans ht
      · rw [List.length_cons]
        omega
    by_cases ho : o ∈ D
    · obtain ⟨u, hu, hstall⟩ := h.known hb hw ho
      exact join hu hstall (hD.trans (List.sublist_append_left _ _)) (still hsame (.inl ho)) (by omega)
    · by_cases hc : mirror (stallsCounted (D.length + 1) b) o = mirror b o
      · obtain ⟨u, hu, hstall⟩ := h.same hb hw ho hc
        exact join hu hstall (hD.trans (List.sublist_append_left _ _)) (still hsame (.inr hc)) (by omega)
      · obtain ⟨u, hu, hstall⟩ := h.new hb hw ho hc
        have hstall' : Stalling b w (D ++ [o]) (R ++ (Q ++ stallWords)) u := by
          rw [← List.append_assoc]
          exact hstall
        refine join hu hstall' (hD.append (List.Sublist.refl _)) (fun k hk hkD => ?_) ?_
        · rw [List.mem_append, List.mem_singleton, not_or] at hkD
          have hpre : k ∈ pre := (List.mem_append.mp hk).resolve_right fun hm => hkD.2 (List.mem_singleton.mp hm)
          rw [List.length_append, List.length_singleton]
          exact stallWord_stays (hsplit ▸ List.mem_append_left _ hpre) (by omega) (by omega) (hsame k hpre hkD.1)
        · rw [List.length_append]
          exact Nat.le_refl _

theorem settlePath_outcome {s0 : State} {d : Word} (hposts : s.path.posts = []) (hreports : s.path.reports = [])
    (houtcome : s.path.outcome = some d) : settlePath s0 s
      = some (enterQueue { addr := settingAddr s 0xF04, data := d, kind := .coalescing } (withOutcome none s)) := by
  unfold settlePath
  split
  next p rest hp => rw [hposts] at hp; cases hp
  next =>
    split
    next p rest hp => rw [hreports] at hp; cases hp
    next =>
      split
      next w hw =>
        rw [houtcome] at hw
        cases hw
        rfl
      next hn => rw [houtcome] at hn; cases hn

theorem settlePath_shown {s0 : State} (hposts : s.path.posts = []) (hreports : s.path.reports = []) (houtcome : s.path.outcome = none) :
    settlePath s0 s = if s.path.shown.isEmpty then none else some { s with path := { s.path with shown := [] } } := by
  unfold settlePath
  split
  next p rest hp => rw [hposts] at hp; cases hp
  next =>
    split
    next p rest hp => rw [hreports] at hp; cases hp
    next =>
      split
      next w hw => rw [houtcome] at hw; cases hw
      next => rfl

/-- The first stall is the outcome word's. -/
theorem settleStep_outcome_full (hb : FullQueue b) {d : Word} (hnew : queued b.path.queue (settingAddr b 0xF04) = false) :
    ∃ t, settleStep b (withOutcome (some d) b) = some t
      ∧ Stalling b { addr := settingAddr b 0xF04, data := d, kind := .coalescing } [] stallWords t := by
  obtain ⟨hposts, hreports, houtcome, hshown, -⟩ := hb.idle
  have hrest : AtRest b (withOutcome (some d) b) := by
    refine ⟨settleUnits_withPath hb.units rfl, ?_⟩
    show (b.path.followUp.isSome && _) = false
    rw [hb.followUp]
    rfl
  have hstart : b = stalledAt b 0 [] [] [] := by
    have hnone : stalledAt b 0 [] [] [] = { b with
        waitCycles := 0, path := { b.path with queue := b.path.queue ++ [], posts := [], shown := [] } } := rfl
    rw [hnone, List.append_nil, ← hposts, ← hshown, ← hb.waits]
  have hstep : settleStep b (withOutcome (some d) b)
      = some (enterQueue { addr := settingAddr b 0xF04, data := d, kind := .coalescing } b) := by
    have hclear : withOutcome none (withOutcome (some d) b) = b := by
      have hself : withOutcome none b = b := by
        rw [← houtcome]
        exact withOutcome_self b
      exact hself
    rw [hrest.step, settlePath_outcome (s := withOutcome (some d) b) hposts hreports rfl, hclear]
    rfl
  have hfirst : enterQueue { addr := settingAddr b 0xF04, data := d, kind := .coalescing } b
      = stalledAt b 1 [{ addr := settingAddr b 0xF04, data := d, kind := .coalescing }] stallWords [] := by
    rw [enterQueue_fresh (v := { addr := settingAddr b 0xF04, data := d, kind := .coalescing }) hnew]
    have hfirst := enterNew_stalledAt (n := 0) (T := []) (P := []) (shown := []) hb rfl (by omega)
      { addr := settingAddr b 0xF04, data := d, kind := .coalescing }
    rwa [← hstart] at hfirst
  refine ⟨_, hstep, List.nodup_nil, fun _ h => (List.not_mem_nil h).elim, fun _ h => h, fun _ => 0, [], ?_,
    fun _ h => (List.not_mem_nil h).elim, fun _ _ => rfl⟩
  rw [hfirst]
  rfl

/-- What the event keeps in mind is cleared, and all is done. -/
theorem Stalling.cleared (hb : FullQueue b) (h : Stalling b w D [] s) : ∃ k ≤ 1, ∃ data,
    SettlesIn k b s (stalledAt b (D.length + 1) (w :: D.map (wordEntry b data)) [] [])
      ∧ (∀ o ∈ D, data o = mirror (stallsCounted (D.length + 1) b) o)
      ∧ settleStep b (stalledAt b (D.length + 1) (w :: D.map (wordEntry b data)) [] []) = none := by
  obtain ⟨hposts, hreports, houtcome, hshown, -⟩ := hb.idle
  obtain ⟨data, shown, rfl, hdata, -⟩ := h.shape
  have hlast (l : List (Nat × Word)) : settleStep b (stalledAt b (D.length + 1) (w :: D.map (wordEntry b data)) [] l)
      = if l.isEmpty then none else some (stalledAt b (D.length + 1) (w :: D.map (wordEntry b data)) [] []) := by
    rw [hb.atRest.step]
    exact settlePath_shown (s := stalledAt b (D.length + 1) (w :: D.map (wordEntry b data)) [] l) rfl hreports houtcome
  have hvalues : ∀ o ∈ D, data o = mirror (stallsCounted (D.length + 1) b) o := fun o ho =>
    (hdata o ho).resolve_left List.not_mem_nil
  cases shown with
  | nil => exact ⟨0, by omega, data, .refl _ _, hvalues, hlast []⟩
  | cons x l => exact ⟨1, by omega, data, .of_step (hlast (x :: l)), hvalues, hlast []⟩

/-- The end of an event whose outcome word meets a full queue. -/
theorem settle_outcome_full (hb : FullQueue b) {d : Word} (hnew : queued b.path.queue (settingAddr b 0xF04) = false)
    (hw : FreshWords b { addr := settingAddr b 0xF04, data := d, kind := .coalescing }) :
    ∃ (D : List Nat) (data : Nat → Word), D.Sublist stallWords ∧ (∀ o ∈ D, data o = mirror (stallsCounted (D.length + 1) b) o)
      ∧ settle settleBound b (withOutcome (some d) b) = stalledAt b (D.length + 1)
          ({ addr := settingAddr b 0xF04, data := d, kind := .coalescing } :: D.map (wordEntry b data)) [] [] := by
  obtain ⟨u, hu, hstart⟩ := settleStep_outcome_full hb (d := d) hnew
  have hstart' : Stalling b { addr := settingAddr b 0xF04, data := d, kind := .coalescing } [] (stallWords ++ []) u := by
    rw [List.append_nil]
    exact hstart
  obtain ⟨D, Q, v, hv, hpassed, hsub, hothers, hcount⟩ := hstart'.first_pass hb hw (pre := []) (R := stallWords) rfl (List.Sublist.refl _)
    fun _ hk => (List.not_mem_nil hk).elim
  obtain ⟨x, hx, htaken⟩ := hpassed.taken hb hw hothers
  obtain ⟨k, hk, data, hcleared, hvalues, hend⟩ := htaken.cleared hb
  refine ⟨D, data, hsub, hvalues, ?_⟩
  have hlen : stallWords.length = 5 := rfl
  rw [List.length_nil] at hcount
  exact ((((SettlesIn.of_step hu).trans hv).trans hx).trans hcleared).settled (by omega) hend

end

end Sys2Proof.Machine
end

section
/-! PROOFS. Draining and stalls: the obligation (R72, R73, R95, R164, R167, R172). -/

set_option Elab.async false

namespace Sys2Proof.Machine

open Sys2Proof.Config

section
variable {w : OwnWrite} {rest : List OwnWrite} {s t : State}

/-- What a drain that lets nothing else follow leaves, with this queue and this sweep. -/
theorem drained_eq (q : List OwnWrite) (w : OwnWrite) (s : State) : driveLines (drainedInto q w s) = { s with
    mem := memWriteWord s.mem w.addr.toNat w.data, waitCycles := 0, drive := lineDrives s,
    path := { s.path with queue := q, followUp := none, posts := [], reports := [], outcome := none, shown := [] },
    level := { s.level with taken := [] }, ring := { s.ring with requests := [] } } := rfl

/-- A refused request is the event of its outcome word (R164). -/
theorem exec_refused {c : Instr} {r : Word} (hc : requestWordOf c = some r) (hne : (judgeRequest s.strap r s).outcome ≠ outDone) :
    exec c s = .next (event (withOutcome (some (outcomeWord r (judgeRequest s.strap r s).outcome (judgeRequest s.strap r s).reason)))
      (requested r s)) := by
  obtain ⟨t, hexec, rfl, -⟩ := refusedRequestsChangeNothing c r s hc hne
  exact hexec

theorem Settled.requested (h : Settled s) (r : Word) : Settled (requested r s) := by
  obtain ⟨hfree, -⟩ := settled_iff.mp h
  exact settled_iff.mpr ⟨hfree, h.units_left (p := (beginEvent s).path) rfl⟩

/-- A settled state with a full queue of plain entries, at the begin of an event. -/
theorem Settled.fullQueue (h : Settled s) (hrun : s.run = true) (hfull : s.path.queue.length = 32)
    (hplain : ∀ e ∈ s.path.queue, e.notice = none) (hesc : escalation s .ownWriteStall = .none) (hfollow : s.path.followUp = none) :
    FullQueue (beginEvent s) where
  run := hrun
  full := hfull
  plain := hplain
  escalates := hesc
  followUp := hfollow
  idle := ⟨rfl, rfl, rfl, rfl, rfl⟩
  units := h.rest
  waits := rfl

/-- A refused request at a full queue: the outcome word stalls, and then the words that its stall has changed (log entry 20). -/
theorem event_refused_full (h : Settled s) (hrun : s.run = true) (hfull : s.path.queue.length = 32)
    (hplain : ∀ e ∈ s.path.queue, e.notice = none) (hesc : escalation s .ownWriteStall = .none) (hfollow : s.path.followUp = none)
    (hout : queued s.path.queue (settingAddr s 0xF04) = false)
    (hwords : ∀ o ∈ stallWords, queued s.path.queue (reportAddr s o) = false ∧ reportAddr s o ≠ settingAddr s 0xF04) (d : Word) :
    ∃ (D : List Nat) (data : Nat → Word), D.Sublist stallWords
      ∧ event (withOutcome (some d)) s = driveLines (stalledAt (beginEvent s) (D.length + 1)
          ({ addr := settingAddr s 0xF04, data := d, kind := .coalescing } :: D.map (wordEntry (beginEvent s) data)) [] [])
      ∧ ∀ o ∈ D, data o = mirror (stallsCounted (D.length + 1) (beginEvent s)) o := by
  have hb := h.fullQueue hrun hfull hplain hesc hfollow
  obtain ⟨D, data, hsub, hdata, hsettle⟩ := settle_outcome_full hb (d := d) hout
    ⟨fun o ho => (hwords o ho).1, fun o ho => (hwords o ho).2⟩
  exact ⟨D, data, hsub, event_of_settle hrun hsettle (by exact h.not_due), hdata⟩

/-- Settles O32: a drain writes the oldest entry and lets follow what it frees; a new entry joins the tail or stalls; and the stalls of a
refused request at a full queue follow one another. -/
theorem drainWritesTheOldest : Obligations.DrainWritesTheOldest := by
  unfold Obligations.DrainWritesTheOldest
  refine ⟨fun w rest s hq hn hfollow hsweep hset => ?_, fun w rest n s hq hn hstate => ?_, fun s hq => ?_,
    fun w rest cursor s hq hn hsweep hset hfollow hroom => ?_, fun w s hroom => enterNew_room w hroom,
    fun w e rest s hrun hq hlen => ?_, fun c r s hrun hc hne hset hfollow hfull hplain hesc hout hwords => ?_⟩
  · refine ⟨_, exec_drain (by rw [hq]; exact List.cons_ne_nil _ _), ?_⟩
    rw [event_drain_alone hq hn hset hfollow, sweepPut_none (by exact hsweep), drained_eq, ← hfollow]
  · refine ⟨_, exec_drain (by rw [hq]; exact List.cons_ne_nil _ _), ?_⟩
    have hdrain : drainOldest (beginEvent s) = drainNotice n (writtenOut w rest (beginEvent s)) :=
      drainOldest_notice (s := beginEvent s) hq hn
    have hready : ShowsReady (Fin.ofNat 64 n.val) (drainOldest (beginEvent s)) := by
      rw [hdrain]
      exact drainNotice_showsReady (s := writtenOut w rest (beginEvent s)) hstate
    obtain ⟨hshown, hlength⟩ := sweepPut_staysReady _ _ (event_staysReady drainOldest s _ hready)
    exact ⟨hshown, hlength, (event_sameBut (drainOldest_sameBut _)).trans (sweepPut_sameBut _)⟩
  · show Host.Outcome.next (drainCycle s) = _
    rw [drainCycle, hq]
    rfl
  · have hevent := event_drain hq hn hset hfollow hroom
    refine ⟨_, exec_drain (by rw [hq]; exact List.cons_ne_nil _ _), fun o ho => ?_, fun hno => ?_⟩
    · rw [hevent, sweepPut_some (s := driveLines (drainedInto (drainedQueue rest s) w s)) hsweep hroom ho]
      rfl
    · rw [hevent, sweepPut_ended (s := driveLines (drainedInto (drainedQueue rest s) w s)) hsweep hroom hno]
      rfl
  · have hfull : 32 ≤ s.path.queue.length := by
      rw [hq, List.length_cons]
      omega
    obtain ⟨hmem, hqueue, hwait, hfault, htime, heff, hrun'⟩ := stallEnter_leaves hq w
    have hrunning := hrun'.trans hrun
    have within := recordFault_within .ownWriteStall (.own 1 0 0) (stallEnter w s)
    obtain ⟨-, hmem', hqueue', -, -, hwait', -⟩ := within
    obtain ⟨hring, hcounters⟩ := recordFault_leaves .ownWriteStall (.own 1 0 0) (stallEnter w s)
    obtain ⟨hplain, hnoticed⟩ := stallEnter_ring hq w
    dsimp only
    rw [enterNew_full w hfull]
    have hself := modifyAt_self s.fault.counters (6 : Fin 12) (saturate countTop)
    refine ⟨hmem'.trans hmem, hqueue'.trans hqueue, hwait'.trans hwait, ?_, fun k h6 h7 => ?_, fun hempty hlogged => ?_,
      fun hn => hring.trans (hplain hn), fun n hn hstate => ?_⟩
    · refine (hcounters 6 (by decide) hrunning).trans ?_
      rw [hfault]
      exact hself
    · refine (hcounters k h7 hrunning).trans ?_
      rw [hfault]
      exact modifyAt_other _ _ h6
    · have counted : (countFault .ownWriteStall (.own 1 0 0) (stallEnter w s)).fault.log
          = some { kind := .ownWriteStall, ident := .own 1 0 0, time := s.time, further := 0 } := by
        have hlogged' : ¬(stallEnter w s).effective.faults[FaultKind.index .ownWriteStall].logOff = true := by
          rw [heff]
          exact fun hon => Bool.false_ne_true (hlogged.symm.trans hon)
        rw [countFault_log, if_neg hlogged', hfault, hempty, htime]
      obtain ⟨-, hheld, -⟩ := recordFault_logKept .ownWriteStall (.own 1 0 0) hrunning
      exact hheld _ counted
    · rw [hring]
      exact (hnoticed n hn hstate).1
  · refine ⟨_, exec_refused hc hne, ?_⟩
    obtain ⟨D, data, hsub, hevent, hdata⟩ := event_refused_full (s := requested r s) (hset.requested r) hrun hfull hplain hesc hfollow hout
      hwords (outcomeWord r (judgeRequest s.strap r s).outcome (judgeRequest s.strap r s).reason)
    refine ⟨D, hsub, ?_⟩
    rw [hevent]
    refine ⟨rfl, (stallsCounted_counters _ _).1, ?_, rfl⟩
    show (requested r s).path.queue.drop (D.length + 1) ++ _ = _
    refine congrArg (fun l => s.path.queue.drop (D.length + 1) ++ _ :: l) (List.map_congr_left fun o ho => ?_)
    rw [wordEntry, hdata o ho, ← mirror_stalledAt (beginEvent (requested r s)) (D.length + 1)
      ({ addr := settingAddr s 0xF04, data := outcomeWord r (judgeRequest s.strap r s).outcome (judgeRequest s.strap r s).reason,
         kind := .coalescing } :: D.map (wordEntry (beginEvent (requested r s)) data)) [] [] o]
    rfl

end

end Sys2Proof.Machine
end

section
/-! PROOFS. The words of a built frame, and the frames that a withdrawal takes out (R96, R97, R112). -/

set_option Elab.async false

namespace Sys2Proof.Machine

open Sys2Proof.Config

/-! ## Fields of laid-out words -/

theorem bits_toNat (x : Word) (lo n : Nat) : (bits x lo n).toNat = x.toNat / 2 ^ lo % 2 ^ n := by
  rw [bits, BitVec.extractLsb'_toNat, Nat.shiftRight_eq_div_pow]

/-- A field is known by its number. -/
theorem bits_eq {x : Word} {lo n : Nat} {y : BitVec n} (h : x.toNat / 2 ^ lo % 2 ^ n = y.toNat) : bits x lo n = y :=
  BitVec.eq_of_toNat_eq ((bits_toNat x lo n).trans h)

theorem bits_eq_zero {x : Word} {lo n : Nat} (h : x.toNat / 2 ^ lo % 2 ^ n = 0) : bits x lo n = 0 :=
  bits_eq (h.trans BitVec.toNat_zero.symm)

theorem layout_toNat (fields : List (Nat × Nat × Nat)) :
    (layout fields).toNat = fields.foldl (fun acc f => acc + (f.2.2 % 2 ^ f.2.1) * 2 ^ f.1) 0 % 2 ^ 32 := BitVec.toNat_ofNat _ _

theorem layout_one_toNat (o n v : Nat) : (layout [(o, n, v)]).toNat = v % 2 ^ n * 2 ^ o % 2 ^ 32 := by
  rw [layout_toNat, List.foldl_cons, List.foldl_nil, Nat.zero_add]

theorem layout_two_toNat (o n v o' n' v' : Nat) :
    (layout [(o, n, v), (o', n', v')]).toNat = (v % 2 ^ n * 2 ^ o + v' % 2 ^ n' * 2 ^ o') % 2 ^ 32 := by
  rw [layout_toNat, List.foldl_cons, List.foldl_cons, List.foldl_nil, Nat.zero_add]

theorem layout_three_toNat (o n v o' n' v' p m w : Nat) :
    (layout [(o, n, v), (o', n', v'), (p, m, w)]).toNat = (v % 2 ^ n * 2 ^ o + v' % 2 ^ n' * 2 ^ o' + w % 2 ^ m * 2 ^ p) % 2 ^ 32 := by
  rw [layout_toNat, List.foldl_cons, List.foldl_cons, List.foldl_cons, List.foldl_nil, Nat.zero_add]

theorem layout_four_toNat (o n v o' n' v' p m w p' m' w' : Nat) :
    (layout [(o, n, v), (o', n', v'), (p, m, w), (p', m', w')]).toNat
      = (v % 2 ^ n * 2 ^ o + v' % 2 ^ n' * 2 ^ o' + w % 2 ^ m * 2 ^ p + w' % 2 ^ m' * 2 ^ p') % 2 ^ 32 := by
  rw [layout_toNat, List.foldl_cons, List.foldl_cons, List.foldl_cons, List.foldl_cons, List.foldl_nil, Nat.zero_add]

/-- The fields of H0: the sequence, the node, the hop and the kind (R181). -/
theorem header_fields {h0 : Word} {seq : BitVec 8} {node : NodeId} {hop : Nat} {code : Nat} (hhop : hop < 16) (hcode : code < 256)
    (hh : h0 = layout [(0, 8, seq.toNat), (8, 12, node.toNat), (20, 4, hop), (24, 8, code)]) :
    bits h0 0 8 = seq ∧ bits h0 8 12 = node ∧ bits h0 20 4 = BitVec.ofNat 4 hop ∧ fieldNat h0 24 8 = code := by
  have hseq := seq.isLt
  have hnode : node.toNat < 4096 := node.isLt
  have hvalue : h0.toNat = seq.toNat + node.toNat * 2 ^ 8 + hop * 2 ^ 20 + code * 2 ^ 24 := by
    rw [hh, layout_four_toNat]
    omega
  refine ⟨bits_eq ?_, bits_eq ?_, bits_eq ?_, ?_⟩
  · rw [hvalue]
    omega
  · rw [hvalue]
    omega
  · rw [hvalue, BitVec.toNat_ofNat]
    omega
  · rw [fieldNat, bits_toNat, hvalue]
    omega

/-- Two 16-bit fields. -/
theorem pair_fields {h : Word} {x y : BitVec 16} (hh : h = layout [(0, 16, x.toNat), (16, 16, y.toNat)]) :
    bits h 0 16 = x ∧ bits h 16 16 = y := by
  have hx := x.isLt
  have hy := y.isLt
  have hvalue : h.toNat = x.toNat + y.toNat * 2 ^ 16 := by
    rw [hh, layout_two_toNat]
    omega
  refine ⟨bits_eq ?_, bits_eq ?_⟩
  · rw [hvalue]
    omega
  · rw [hvalue]
    omega

/-- One 16-bit field and nothing above it. -/
theorem single_fields {h : Word} {x : BitVec 16} (hh : h = layout [(0, 16, x.toNat)]) :
    bits h 0 16 = x ∧ bits h 16 16 = 0 := by
  have hx := x.isLt
  have hvalue : h.toNat = x.toNat := by
    rw [hh, layout_one_toNat]
    omega
  refine ⟨bits_eq ?_, bits_eq_zero ?_⟩
  · rw [hvalue]
    omega
  · rw [hvalue]
    omega

theorem evacuate_fields {h : Word} {n : NodeId} {q : BitVec 8} {reason : BitVec 4}
    (hh : h = layout [(0, 12, n.toNat), (12, 8, q.toNat), (20, 4, reason.toNat)]) :
    bits h 0 12 = n ∧ bits h 12 8 = q ∧ bits h 20 4 = reason ∧ bits h 24 8 = 0 := by
  have hn : n.toNat < 4096 := n.isLt
  have hq := q.isLt
  have hr := reason.isLt
  have hvalue : h.toNat = n.toNat + q.toNat * 2 ^ 12 + reason.toNat * 2 ^ 20 := by
    rw [hh, layout_three_toNat]
    omega
  refine ⟨bits_eq ?_, bits_eq ?_, bits_eq ?_, bits_eq_zero ?_⟩
  · rw [hvalue]
    omega
  · rw [hvalue]
    omega
  · rw [hvalue]
    omega
  · rw [hvalue]
    omega

theorem relay_fields {h : Word} {miner : Id} {n : NodeId} (hh : h = layout [(0, 16, miner.toNat), (16, 12, n.toNat)]) :
    bits h 0 16 = miner ∧ bits h 16 12 = n ∧ bits h 28 4 = 0 := by
  have hm : miner.toNat < 65536 := miner.isLt
  have hn : n.toNat < 4096 := n.isLt
  have hvalue : h.toNat = miner.toNat + n.toNat * 2 ^ 16 := by
    rw [hh, layout_two_toNat]
    omega
  refine ⟨bits_eq ?_, bits_eq ?_, bits_eq_zero ?_⟩
  · rw [hvalue]
    omega
  · rw [hvalue]
    omega
  · rw [hvalue]
    omega

theorem alarm_fields {h k : Word} {c : Fin 24} {grade : Grade} {avg : Nat}
    (hh : h = layout [(0, 8, c.val), (8, 2, Grade.code grade)]) (hk : k = layout [(0, 16, avg)]) :
    fieldNat h 0 8 = c.val ∧ fieldNat h 8 2 = Grade.code grade ∧ bits h 10 22 = 0 ∧ fieldNat k 0 16 = avg % 65536 ∧ bits k 16 16 = 0 := by
  have hc := c.isLt
  have hg : Grade.code grade < 4 := by cases grade <;> decide
  have hvalue : h.toNat = c.val + Grade.code grade * 2 ^ 8 := by
    rw [hh, layout_two_toNat]
    omega
  have hvalue' : k.toNat = avg % 65536 := by
    rw [hk, layout_one_toNat]
    omega
  refine ⟨?_, ?_, bits_eq_zero ?_, ?_, bits_eq_zero ?_⟩
  · rw [fieldNat, bits_toNat, hvalue]
    omega
  · rw [fieldNat, bits_toNat, hvalue]
    omega
  · rw [hvalue]
    omega
  · rw [fieldNat, bits_toNat, hvalue']
    omega
  · rw [hvalue']
    omega

theorem bitOf_eq (x : Word) (k : Nat) : bitOf x k = decide (x.toNat / 2 ^ k % 2 = 1) := by
  rw [bitOf, BitVec.getLsbD, Nat.testBit_eq_decide_div_mod_eq]

theorem refuge_fields {h : Word} {id : Id} {r : Reasons} (hh : h = layout [(0, 16, id.toNat), (16, 3, reasonBits r)]) :
    bits h 0 16 = id ∧ bitOf h 16 = r.gas ∧ bitOf h 17 = r.silent ∧ bitOf h 18 = r.airlock ∧ bits h 19 13 = 0 := by
  have hid : id.toNat < 65536 := id.isLt
  have hr : reasonBits r = r.gas.toNat + 2 * r.silent.toNat + 4 * r.airlock.toNat := rfl
  have hg := r.gas.toNat_lt
  have hs := r.silent.toNat_lt
  have ha := r.airlock.toNat_lt
  have hvalue : h.toNat = id.toNat + (r.gas.toNat + 2 * r.silent.toNat + 4 * r.airlock.toNat) * 2 ^ 16 := by
    rw [hh, layout_two_toNat, hr]
    omega
  have told {b : Bool} {k : Nat} (hk : h.toNat / 2 ^ k % 2 = b.toNat) : bitOf h k = b := by
    rw [bitOf_eq, hk]
    cases b <;> rfl
  refine ⟨bits_eq ?_, told ?_, told ?_, told ?_, bits_eq_zero ?_⟩
  · rw [hvalue]
    omega
  · rw [hvalue]
    omega
  · rw [hvalue]
    omega
  · rw [hvalue]
    omega
  · rw [hvalue]
    omega

end Sys2Proof.Machine
end

section
/-! PROOFS. The words that a built frame's header carries (R112), the frame that a repeat expiry builds (R55, R95), and the frames that
CLEAR_DISTRESS and END_EVACUATION leave live (R97). -/

set_option Elab.async false

namespace Sys2Proof.Machine

open Sys2Proof.Config

section
variable {s s0 t u : State}

/-! ## The header of a built frame -/

/-- The first word of a built frame's header. -/
def headWord (node : NodeId) (seq : BitVec 8) (hop : Nat) (f : PartFrame) : Word :=
  layout [(0, 8, seq.toNat), (8, 12, node.toNat), (20, 4, hop), (24, 8, PartFrame.code f)]

theorem headWord_fields (node : NodeId) (seq : BitVec 8) {hop : Nat} (hhop : hop < 16) (f : PartFrame) :
    bits (headWord node seq hop f) 0 8 = seq ∧ bits (headWord node seq hop f) 8 12 = node
      ∧ bits (headWord node seq hop f) 20 4 = BitVec.ofNat 4 hop ∧ fieldNat (headWord node seq hop f) 24 8 = PartFrame.code f :=
  header_fields hhop (by cases f <;> simp [PartFrame.code]) rfl

/-- The second and the third word of a built frame's header (R112). -/
def payload : PartFrame → Word × Word
  | .evacuate n q reason _ => (layout [(0, 12, n.toNat), (12, 8, q.toNat), (20, 4, reason.toNat)], 0)
  | .distressRelay miner first n => (layout [(0, 16, miner.toNat), (16, 12, n.toNat)], first)
  | .airAlarm c grade avg => (layout [(0, 8, c.val), (8, 2, Grade.code grade)], layout [(0, 16, avg)])
  | .refugeAlarm id reasons => (layout [(0, 16, id.toNat), (16, 3, reasonBits reasons)], 0)
  | .halt seg => (layout [(0, 16, seg.toNat)], 0)
  | .revoke truck seg reason => (layout [(0, 16, truck.toNat), (16, 16, seg.toNat)],
      layout [(0, 3, match reason with | .gas => 1 | .evacuation => 2 | .lapsed => 3 | .cleared => 4)])
  | .grant truck seg dir => (layout [(0, 16, truck.toNat), (16, 16, seg.toNat)], layout [(0, 2, Heading.code dir)])

/-- The hop that a built frame carries. -/
def builtHop : PartFrame → BitVec 4
  | .evacuate _ _ _ hop => hop
  | .airAlarm .. | .distressRelay .. | .refugeAlarm .. | .halt .. | .revoke .. | .grant .. => 0

theorem builtWords_eq (node : NodeId) (seq : BitVec 8) (f : PartFrame) :
    builtWords node seq f = [headWord node seq (builtHop f).toNat f, (payload f).1, (payload f).2, 0] := by
  cases f <;> rfl

theorem headWord_hop (node : NodeId) (seq : BitVec 8) (f : PartFrame) :
    bits (headWord node seq (builtHop f).toNat f) 20 4 = builtHop f := by
  rw [(headWord_fields node seq (builtHop f).isLt f).2.2.1, BitVec.ofNat_toNat, BitVec.setWidth_eq]

theorem heading_word (dir : Heading) : layout [(0, 2, Heading.code dir)] = (match dir with | .inbye => 1 | .outbye => 2) := by
  cases dir <;> decide

theorem revoke_word (reason : RevokeReason) :
    layout [(0, 3, match reason with | .gas => 1 | .evacuation => 2 | .lapsed => 3 | .cleared => 4)]
      = (match reason with | .gas => 1 | .evacuation => 2 | .lapsed => 3 | .cleared => 4) := by
  cases reason <;> decide

/-! ## A frame that a repeat expiry builds -/

/-- Where the other units are at rest, the first request is taken next. -/
theorem settleUnits_request {g : PartFrame} {rest : List PartFrame} (hrun : s.run = true) (hlevel : levelFirst s0 s = false)
    (hmarked : firstMarked s = none) (hforget : firstForgettable s = none) (hmuster : musterStale s = false)
    (hreq : s.ring.requests = g :: rest) :
    settleUnits s0 s = some (takeRequest g { s with ring := { s.ring with requests := rest } }) := by
  unfold settleUnits
  rw [if_neg (by rw [hrun]; decide), if_neg (by rw [hlevel]; decide)]
  simp only [hmarked, hforget]
  rw [if_neg (by rw [hmuster]; decide)]
  simp only [hreq]

/-- Where nothing is requested, the list is served next. -/
theorem settleUnits_serve (hrun : s.run = true) (hlevel : levelFirst s0 s = false)
    (hmarked : firstMarked s = none) (hforget : firstForgettable s = none) (hmuster : musterStale s = false)
    (hreq : s.ring.requests = []) (hbuild : canBuild s = true) : settleUnits s0 s = some (buildFrame s) := by
  unfold settleUnits
  rw [if_neg (by rw [hrun]; decide), if_neg (by rw [hlevel]; decide)]
  simp only [hmarked, hforget]
  rw [if_neg (by rw [hmuster]; decide)]
  simp only [hreq]
  rw [if_pos hbuild]

variable {c : Cause} {hop : BitVec 4} {f : PartFrame}

/-- The state of a repeat expiry that has requested this frame. -/
def repeatAsks (f : PartFrame) (s : State) : State :=
  let a := repeated (beginEvent s)
  { a with ring := { a.ring with requests := [f] } }

theorem repeatExpiry_asks (hlevel : s.level.level = .evacuate) (hcause : s.level.cause = some c) (hhop : c.hop = some hop)
    (hdistress : s.call.distress = []) :
    repeatExpiry (beginEvent s) = repeatAsks (.evacuate c.node c.seq c.reason hop) s := by
  have hbegun : (beginEvent s).level.level = .evacuate := hlevel
  have hcause' : (repeated (beginEvent s)).level.cause = some c := hcause
  have hnone : (requestFrame (.evacuate c.node c.seq c.reason hop) (repeated (beginEvent s))).call.distress = [] := hdistress
  rw [repeatExpiry_eq, if_pos hbegun, requestEvacuate, hcause']
  simp only [hhop]
  rw [repeatRelays, hnone]
  rfl

/-- The state of a repeat expiry whose request waits in the list. -/
def repeatWaits (f : PartFrame) (s : State) : State := setList [f] (repeated (beginEvent s))

theorem takeRequest_empty (h : s.ring.list = []) (f : PartFrame) : takeRequest f s = setList [f] s := by
  have hnew : replaceOrAbsorb f [] = none := by cases f <;> rfl
  unfold takeRequest
  rw [h]
  simp only [hnew]
  rw [if_pos (by decide)]
  rfl

theorem repeat_settles (hrun : s.run = true) (hset : Settled s) (hfree : s.path.followUp = none) (hlist : s.ring.list = [])
    (hbuild : canBuild (repeatWaits f s) = true) :
    SettlesIn 2 (beginEvent s) (repeatAsks f s) (frameBuilt f [] (repeatWaits f s)) := by
  obtain ⟨hlevel, hmarked, hforget, hmuster, -, -⟩ := settleUnits_none (s := beginEvent s) hrun hset.rest
  have hfollow (v : State) (hv : v.path.followUp = none) : followUpFree v = false := by rw [followUpFree, hv]; rfl
  have asked : settleStep (beginEvent s) (repeatAsks f s) = some (repeatWaits f s) := by
    have hunits : settleUnits (beginEvent s) (repeatAsks f s) = some (takeRequest f (repeated (beginEvent s))) :=
      settleUnits_request (rest := []) hrun hlevel hmarked hforget hmuster rfl
    rw [settleStep, hfollow (repeatAsks f s) hfree, hunits, takeRequest_empty (s := repeated (beginEvent s)) hlist]
    rfl
  have built : settleStep (beginEvent s) (repeatWaits f s) = some (frameBuilt f [] (repeatWaits f s)) := by
    have hunits : settleUnits (beginEvent s) (repeatWaits f s) = some (buildFrame (repeatWaits f s)) :=
      settleUnits_serve hrun hlevel hmarked hforget hmuster rfl hbuild
    rw [settleStep, hfollow (repeatWaits f s) hfree, hunits, buildFrame_eq rfl]
    rfl
  exact (SettlesIn.of_step asked).trans (.of_step built)

theorem repeat_calm (hrun : s.run = true) (hset : Settled s) (hfree : s.path.followUp = none) {q : List OwnWrite} :
    Calm (beginEvent s) (frameBuilt f [] (repeatWaits f s)) q where
  units := by
    obtain ⟨hlevel, hmarked, hforget, hmuster, -, -⟩ := settleUnits_none (s := beginEvent s) hrun hset.rest
    exact settleUnits_rest hlevel hmarked hforget hmuster rfl (frameBuilt_not_built _ _ _)
  held h := by
    have hnone : (frameBuilt f [] (repeatWaits f s)).path.followUp = none := hfree
    rw [hnone] at h
    cases h

/-! ### The report words of a built frame -/

/-- The READY slots of a ring are counted by the slots' states. -/
theorem readyCount_congr (he : t.effective = s.effective) (hst : ∀ i : Fin 64, t.ring.shadows[i].state = s.ring.shadows[i].state)
    (r : Nat) : readyCount t r = readyCount s r := by
  have hstart : ringStart t = ringStart s := by
    funext k
    rw [ringStart, ringStart, he]
  have hstates : t.ring.shadows.toList.map (·.state) = s.ring.shadows.toList.map (·.state) := by
    refine List.ext_getElem (by simp) fun i h h' => ?_
    simp only [List.getElem_map, Vector.getElem_toList]
    exact hst ⟨i, by simpa using h⟩
  have counted (v : State) : readyCount v r
      = (((v.ring.shadows.toList.map (·.state)).take (ringStart v (r + 1))).drop (ringStart v r)).countP (· == .ready) := by
    rw [← List.map_take, ← List.map_drop, List.countP_map]
    rfl
  rw [counted, counted, hstates, hstart]

/-- The words of the rings and of the slots' states show the ring records and the slots' states. -/
theorem mirror_ringWords {o : Nat} (hrings : t.ring.rings = s.ring.rings) (he : t.effective = s.effective)
    (hst : ∀ i : Fin 64, t.ring.shadows[i].state = s.ring.shadows[i].state) (hlow : 0x120 ≤ o) (hhigh : o < 0x170) :
    mirror t o = mirror s o := by
  have hring (r : Fin 4) (k : Nat) : mirrorRing t r k = mirrorRing s r k := by
    simp only [mirrorRing, hrings, readyCount_congr he hst]
  have hslots (k : Nat) : mirrorSlots t k = mirrorSlots s k := by
    simp only [mirrorSlots, hst]
  simp only [mirror, show ¬o < 0x010 by omega, show ¬o < 0x030 by omega, show ¬o < 0x040 by omega, show ¬o < 0x100 by omega,
    show ¬o < 0x110 by omega, show ¬o < 0x120 by omega, hhigh, if_true, if_false, hring, hslots]

theorem frameBuilt_state (g : PartFrame) (rest : List PartFrame) (i : Fin 64) :
    (frameBuilt g rest s).ring.shadows[i].state = s.ring.shadows[i].state := by
  show (modifyAt s.ring.shadows _ _)[i].state = _
  rw [modifyAt_get]
  split
  · rename_i h
    rw [h]
  · rfl

theorem sendList_seq (s : State) : bits (mirror s 0x170) 16 8 = s.ring.seq := by
  have hlist : mirror s 0x170 = layout [(0, 4, s.ring.list.length), (4, 5, countWhere s.ring.records Option.isSome),
      (9, 4, s.ring.fill.val), (16, 8, s.ring.seq.toNat)] := rfl
  have hseq := s.ring.seq.isLt
  refine bits_eq ?_
  rw [hlist, layout_four_toNat]
  omega

/-- The send list word shows the sequence. -/
theorem sendList_ne (h : t.ring.seq ≠ s.ring.seq) : mirror s 0x170 ≠ mirror t 0x170 := fun hm => h (by
  rw [← sendList_seq t, ← hm, sendList_seq])

theorem fillWords_cases {o : Nat} (h : o ∈ fillWords s) : (0x120 ≤ o ∧ o < 0x170) ∨ o = 0x170 := by
  have hring := (ringOf s s.ring.fill.val).isLt
  have hfill := s.ring.fill.isLt
  rw [fillWords_eq, slotWords_eq] at h
  simp only [List.mem_append, List.mem_cons, List.not_mem_nil, or_false] at h
  omega

/-- Words that are entered or unchanged enter no more. -/
theorem enteredWords_same {done words : List Nat} (h : ∀ o ∈ words, o ∈ done ∨ mirror s0 o = mirror s o) :
    enteredWords s0 s done words = done := by
  induction words with
  | nil => rfl
  | cons o words ih =>
    rw [enteredWords_cons, show enteredWords s0 s done [o] = done from if_pos (h o List.mem_cons_self)]
    exact ih fun k hk => h k (List.mem_cons_of_mem _ hk)

/-- Of the report words of a repeat expiry that builds its frame, the send list word alone changes. -/
theorem repeat_words {o : Nat} (h : o ∈ fillWords (repeatWaits f s)) :
    mirror (beginEvent s) o = mirror (frameBuilt f [] (repeatWaits f s)) o ∨ o = 0x170 :=
  (fillWords_cases h).imp_left fun ⟨hlow, hhigh⟩ =>
    (mirror_ringWords (s := beginEvent s) (t := frameBuilt f [] (repeatWaits f s)) rfl rfl (frameBuilt_state f []) hlow hhigh).symm

theorem repeat_listWord : mirror (beginEvent s) 0x170 ≠ mirror (frameBuilt f [] (repeatWaits f s)) 0x170 := by
  refine sendList_ne fun h => ?_
  have hseq : s.ring.seq + 1 = s.ring.seq := h
  simp at hseq

/-- A repeat expiry in EVACUATE that finds the slot at the fill index free builds its frame, and queues its seven own-writes and the send
list word. -/
theorem event_repeat_builds (hrun : s.run = true) (hset : Settled s) (hfree : s.path.followUp = none)
    (hacted : repeatExpiry (beginEvent s) = repeatAsks f s) (hlist : s.ring.list = []) (hbuild : canBuild (repeatWaits f s) = true)
    (hnew : ((s.path.queue ++ builtWrites s f).map (·.addr) ++ (fillWords s).map (reportAddr s)).Nodup)
    (hroom : s.path.queue.length + 8 ≤ 32) :
    event repeatExpiry s = driveLines (lined (s.path.queue ++ builtWrites s f
      ++ [mirrorWrite (frameBuilt f [] (repeatWaits f s)) 0x170]) [] [] [] none (frameBuilt f [] (repeatWaits f s))) := by
  have hlast : 0x170 ∈ fillWords s := by rw [fillWords_eq, slotWords_eq]; simp
  have hchanged : (changedWords (beginEvent s) (frameBuilt f [] (repeatWaits f s)) (fillWords s)).length ≤ 1 := by
    have hone : changedWords (beginEvent s) (frameBuilt f [] (repeatWaits f s)) (fillWords s) ⊆ [0x170] := fun o ho => by
      obtain ⟨hm, hd⟩ := mem_changedWords.mp ho
      exact List.mem_singleton.mpr ((repeat_words hm).resolve_left hd)
    have hdistinct : (fillWords s).Nodup := List.Nodup.of_map _ (List.nodup_append.mp hnew).2.1
    exact ((hdistinct.filter _).subperm hone).length_le
  obtain ⟨k, hk, hsettles, hended⟩ := frameBuilt_settles (s0 := beginEvent s) (g := f) (rest := []) (a := repeatWaits f s) (R := [0x170])
    (W := fillWords s) (repeat_calm hrun hset hfree) rfl rfl rfl rfl (fun o ho => List.mem_singleton.mp ho ▸ hlast) (fun o ho => ho) hnew
    (by
      have hq : (repeatWaits f s).path.queue = s.path.queue := rfl
      rw [hq]
      omega)
  have hentered : enteredWords (beginEvent s) (frameBuilt f [] (repeatWaits f s)) [] ([0x170] ++ fillWords (repeatWaits f s)) = [0x170] := by
    rw [List.singleton_append, enteredWords_cons,
      show enteredWords (beginEvent s) (frameBuilt f [] (repeatWaits f s)) [] [0x170] = [0x170] from
        if_neg (not_or.mpr ⟨List.not_mem_nil, repeat_listWord⟩)]
    exact enteredWords_same fun o ho => (repeat_words ho).symm.imp_left fun h => List.mem_singleton.mpr h
  rw [hentered] at hsettles hended
  have hlength : (fillWords (repeatWaits f s)).length = 6 := by rw [fillWords_eq, slotWords_eq]; rfl
  refine event_of_settle hrun ?_ hset.not_due
  rw [hacted]
  exact ((repeat_settles hrun hset hfree hlist hbuild).trans hsettles).settled (by simp [hlength] at hk; omega) hended

end
end Sys2Proof.Machine
end

section
/-! PROOFS. The frames that CLEAR_DISTRESS and END_EVACUATION leave live, and the rules of the part send list put together
(R56, R92, R95 to R97, R112, R128). -/

set_option Elab.async false

namespace Sys2Proof.Machine

open Sys2Proof.Config

section
variable {s s0 t u : State} {o : List Opening}

/-! ## Frames that no longer go on air -/

/-- No frame that `p` names can still go on air. -/
def NoneLive (p : PartFrame → Bool) (s : State) : Prop := ∀ f, Live s.ring f → p f = false

theorem NoneLive.shown {p : PartFrame → Bool} (h : NoneLive p s) : (∀ f ∈ s.ring.list, p f = false)
    ∧ ∀ (i : Fin 16) r, s.ring.records[i] = some r → p r.frame = true → r.withdrawn = true := by
  refine ⟨fun f hf => h f (.inl hf), fun i r hr hp => ?_⟩
  by_contra hw
  rw [h r.frame (.inr (.inr ⟨i, r, hr, by simpa using hw, rfl⟩))] at hp
  cases hp

theorem NoneLive.works {p : PartFrame → Bool} (h : NoneLive p s) (hw : Works o s t) (hasks : ∀ f, Asks o f → p f = false) :
    NoneLive p t := fun f hf => (hw.frames f hf).elim (h f) (hasks f)

theorem withdrawFrames_noneLive (p : PartFrame → Bool) (s : State) : NoneLive p (withdrawFrames p s) :=
  fun _ hf => (live_withdrawFrames hf).2

/-! ## Relays -/

/-- Work that asks for no relays. -/
theorem relays_of_asks {miner : Id} (ho : .relays ∉ o) (f : PartFrame) (h : Asks o f) : PartFrame.relays miner f = false := by
  cases f with
  | distressRelay => exact absurd h ho
  | evacuate => rfl
  | airAlarm => rfl
  | refugeAlarm => rfl
  | halt => rfl
  | revoke => rfl
  | grant => rfl

theorem NoneLive.relays_works {miner : Id} (h : NoneLive (PartFrame.relays miner) s) (hw : Works o s t)
    (ho : .relays ∉ o := by decide) : NoneLive (PartFrame.relays miner) t := h.works hw (relays_of_asks ho)

theorem clearDistress_noneLive (d : Distress) (s : State) : NoneLive (PartFrame.relays d.miner) (clearDistress d s) := by
  have withdrawn : NoneLive (PartFrame.relays d.miner) (rederivePriorities (withdrawFrames (PartFrame.relays d.miner)
      (addRecord recDistressCleared d.miner.toNat (detail [detailTime d.first]) (removeDistress d.miner s)))) :=
    (withdrawFrames_noneLive _ _).relays_works (rederivePriorities_works _)
  unfold clearDistress
  dsimp only
  split
  · exact withdrawn.relays_works (leaveAlert_works _ (by decide))
  · exact withdrawn

/-- The end of an event asks for no relay. -/
theorem event_noRelays {f : State → State} {miner : Id} (h : NoneLive (PartFrame.relays miner) (f (beginEvent s))) :
    NoneLive (PartFrame.relays miner) (event f s) :=
  event_keeps (fun _ _ _ h hstep => h.relays_works (settleStep_works hstep)) (fun u h => h.relays_works (sweepPut_works u))
    (fun _ h => h.relays_works (o := []) .of_same) h

theorem doneEvent_noRelays {w : Word} {g : State → State} {miner : Id} (h : NoneLive (PartFrame.relays miner) (g (begun w s))) :
    NoneLive (PartFrame.relays miner) (doneEvent w g s) :=
  event_noRelays (f := doneAction w g) (s := requested w s) fun f hf => h f hf

/-! ## EVACUATE frames -/

/-- No cause is in force and the end of an event gives none; below EVACUATE no EVACUATE frame can still go on air. -/
structure EvacuationOver (s : State) : Prop where
  noCause : NoEndCause s
  cause : s.level.cause = none
  quiet : s.level.level ≠ .evacuate → NoneLive PartFrame.isEvacuate s

theorem isEvacuate_of_asks (ho : .evacuates ∉ o) (f : PartFrame) (h : Asks o f) : PartFrame.isEvacuate f = false := by
  cases f with
  | evacuate => exact absurd h ho
  | distressRelay => rfl
  | airAlarm => rfl
  | refugeAlarm => rfl
  | halt => rfl
  | revoke => rfl
  | grant => rfl

theorem NoneLive.evacuate_works (h : NoneLive PartFrame.isEvacuate s) (hw : Works o s t) (ho : .evacuates ∉ o := by decide) :
    NoneLive PartFrame.isEvacuate t := h.works hw (isEvacuate_of_asks ho)

theorem withdrawEvacuate_noneLive (s : State) : NoneLive PartFrame.isEvacuate (withdrawEvacuate s) := fun f hf => by
  have hp := (live_withdrawFrames hf).2
  cases f with
  | evacuate => cases hp
  | distressRelay => rfl
  | airAlarm => rfl
  | refugeAlarm => rfl
  | halt => rfl
  | revoke => rfl
  | grant => rfl

theorem EvacuationOver.works (h : EvacuationOver s) (hw : Works o s t) (hl : .level ∉ o := by decide) (hc : .cause ∉ o := by decide)
    (ho : .evacuates ∉ o := by decide) : EvacuationOver t :=
  ⟨h.noCause.congr hw.effective, (hw.cause hc).1.trans h.cause, fun hn => (h.quiet (by rwa [← (hw.level hl).1])).evacuate_works hw ho⟩

/-- A level handed on below EVACUATE leaves no EVACUATE frame live. -/
theorem levelHanded_noneLive {before after : Level} (hafter : after ≠ .evacuate)
    (h : before ≠ .evacuate → NoneLive PartFrame.isEvacuate s) : NoneLive PartFrame.isEvacuate (levelHanded before after s) := by
  rw [levelHanded_eq, if_neg hafter]
  refine NoneLive.evacuate_works ?_ (postChanged_works (l := levelWords) _ (by decide))
  split
  · exact withdrawEvacuate_noneLive _
  · rename_i hbefore
    have recorded : NoneLive PartFrame.isEvacuate (changeRecord before after s) :=
      (h hbefore).evacuate_works (changeRecord_works before after s)
    have recorded : NoneLive PartFrame.isEvacuate (leveled before after s) := fun f hf => recorded f hf
    exact (recorded.evacuate_works (tellReaders_works before after _)).evacuate_works (reportChanged_works _ (by decide))

theorem EvacuationOver.deriveLevel (h : EvacuationOver s) : EvacuationOver (deriveLevel s) := by
  by_cases hdue : levelOf s.level = s.level.level
  · rw [deriveLevel_of_same hdue]
    exact h
  · have hof := levelOf_of_no_cause h.cause
    obtain ⟨-, -, hc, -⟩ := levelHanded_level s.level.level (levelOf s.level) s
    have hno := h.noCause.congr (levelHanded_sameBut s.level.level (levelOf s.level) s).effective
    have handed := levelHanded_noneLive hof h.quiet
    rw [deriveLevel_eq hdue, if_neg hof]
    refine EvacuationOver.works ?_ (laterRecords_works _ _)
    split
    · exact ⟨hno, hc.trans h.cause, fun _ => handed.evacuate_works (setMuster_works _ _)⟩
    · exact ⟨hno, hc.trans h.cause, fun _ => handed⟩

theorem EvacuationOver.step (h : EvacuationOver s) (hstep : settleStep s0 s = some t) : EvacuationOver t := by
  rcases settleStep_endStep hstep with ⟨-, rfl⟩ | ⟨hstale, rfl⟩ | ⟨u, v, hu, huv, hv⟩
  · exact h.deriveLevel
  · refine ⟨h.noCause, h.cause, fun hn => absurd hn ?_⟩
    have hlevel : s.level.level = .evacuate := by
      by_contra hl
      simp [musterStale, hl] at hstale
    exact not_not_intro hlevel
  · refine EvacuationOver.works ?_ hv
    have began := h.works hu
    rcases huv with rfl | ⟨k, d, hk, rfl⟩
    · exact began
    · have hesc : escalation u k ≠ .evacuate := by
        rcases hk with rfl | rfl
        · exact began.noCause.1
        · exact began.noCause.2
      exact began.works (recordFault_works_latch (hk.imp id .inr) d u hesc)

theorem event_evacuationOver {f : State → State} (h : EvacuationOver (f (beginEvent s))) : EvacuationOver (event f s) :=
  event_keeps (fun _ _ _ h hstep => h.step hstep) (fun u h => h.works (sweepPut_works u)) (fun _ h => h.works (o := []) .of_same) h

theorem doneEvent_evacuationOver {w : Word} {g : State → State} (h : EvacuationOver (g (begun w s))) :
    EvacuationOver (doneEvent w g s) :=
  event_evacuationOver (f := doneAction w g) (s := requested w s) ⟨h.noCause, h.cause, fun hn f hf => h.quiet hn f hf⟩

end

/-- Settles O35: the frame that the list builds, the fields of its header, and what a withdrawal leaves live. -/
theorem partFramesBuiltAndWithdrawn : Obligations.PartFramesBuiltAndWithdrawn := by
  refine ⟨fun _ => canBuild_iff, ?_, ?_, ?_, ?_, ?_, ?_⟩
  · intro f rest s hlist
    rw [buildFrame_eq hlist]
    exact ⟨rfl, rfl, rfl, rfl, rfl, rfl⟩
  · intro node seq f
    obtain ⟨hseq, hnode, -, hcode⟩ := headWord_fields node seq (builtHop f).isLt f
    refine ⟨_, _, _, builtWords_eq node seq f, hseq, hnode, hcode, ?_⟩
    have hhop := headWord_hop node seq f
    cases f with
    | evacuate n q reason hop =>
      obtain ⟨hn, hq, hr, hz⟩ := evacuate_fields (n := n) (q := q) (reason := reason) rfl
      exact ⟨rfl, hhop, hn, hq, hr, hz, rfl⟩
    | distressRelay miner first n =>
      obtain ⟨hm, hn, hz⟩ := relay_fields (miner := miner) (n := n) rfl
      exact ⟨rfl, hhop, hm, hn, hz, rfl⟩
    | airAlarm c grade avg => exact ⟨rfl, hhop, alarm_fields rfl rfl⟩
    | refugeAlarm id reasons =>
      obtain ⟨hid, hg, hs, ha, hz⟩ := refuge_fields (id := id) (r := reasons) rfl
      exact ⟨rfl, hhop, hid, hg, hs, ha, hz, rfl⟩
    | halt seg =>
      obtain ⟨hs, hz⟩ := single_fields (x := seg) rfl
      exact ⟨rfl, hhop, hs, hz, rfl⟩
    | revoke truck seg reason =>
      obtain ⟨ht, hs⟩ := pair_fields (x := truck) (y := seg) rfl
      exact ⟨rfl, hhop, ht, hs, revoke_word reason⟩
    | grant truck seg dir =>
      obtain ⟨ht, hs⟩ := pair_fields (x := truck) (y := seg) rfl
      exact ⟨rfl, hhop, ht, hs, heading_word dir⟩
  · intro p s
    refine ⟨rfl, fun i => ?_, rfl⟩
    show (mapTable _ s.ring.records)[i] = _
    refine (mapTable_get _ s.ring.records i).trans ?_
    cases s.ring.records[i] with
    | none => rfl
    | some r => cases hp : p r.frame with
      | false => simp [hp]
      | true => simp [hp]
  · intro c hop s hrun hdue hlevel hcause hhop hdistress hlist hcursor hempty hrecord hset hfree f hnew hroom
    have hexec : exec .repeatTimerExpiry s = .next (expiryEvent s.level.repeatTimer.due repeatExpiry s) := rfl
    have hbuild : canBuild (repeatWaits f s) = true := canBuild_iff.mpr ⟨hrun, hcursor, hempty, hrecord, List.cons_ne_nil _ _⟩
    rw [expiryEvent_due hrun hdue, event_repeat_builds hrun hset hfree (repeatExpiry_asks hlevel hcause hhop hdistress) hlist hbuild
      hnew hroom] at hexec
    exact ⟨_, hexec, rfl, rfl, rfl, rfl, rfl⟩
  · intro tag arg d s hrun harg hd
    have hexec : exec (.clearDistress tag arg) s = .next (serveWrite s.strap (requestAccess s 7 tag arg) s) := rfl
    have hjudge := judge_clearDistress tag (s := begun (requestWord 7 tag arg) s) hrun harg hd s.strap
    rw [serveWrite_request, event_of_done hjudge] at hexec
    have hm : d.miner = arg := by simpa using List.find?_some (p := fun d : Distress => d.miner == arg) hd
    have action := clearDistress_noneLive d (begun (requestWord 7 tag arg) s)
    rw [hm] at action
    have ended : NoneLive (PartFrame.relays arg) (doneEvent (requestWord 7 tag arg) (clearDistress d) s) :=
      doneEvent_noRelays action
    exact ⟨_, hexec, ended.shown⟩
  · intro tag arg c s hrun hcells hair hno hcause hlevel
    have hexec : exec (.endEvacuation tag arg) s = .next (serveWrite s.strap (requestAccess s 5 tag arg) s) := rfl
    have hjudge := judge_end tag arg (s := begun (requestWord 5 tag arg) s) hrun hcells hair s.strap
    rw [serveWrite_request, event_of_done hjudge] at hexec
    obtain ⟨t, ht, hended, -, -⟩ := endEvacuationAccepted tag arg s hrun hcells hair hno
    obtain ⟨-, -, hbelow, -⟩ := hended c hcause
    have hsame := Host.Outcome.next.inj (hexec.symm.trans ht)
    have hg := endEvacuation_some (s := begun (requestWord 5 tag arg) s) hcause
    have action : EvacuationOver (endEvacuation (begun (requestWord 5 tag arg) s)) :=
      ⟨hno.congr (by rw [hg]; rfl), by rw [hg]; rfl, fun hn => absurd (by rw [hg]; exact hlevel) hn⟩
    exact ⟨_, hexec, ((doneEvent_evacuationOver action).quiet (hsame ▸ hbelow)).shown⟩

end Sys2Proof.Machine
end

section
/-! PROOFS. What a re-evaluation leaves of the trip unit's cells: the truths, the demand and the state of the cell evaluated, and every
other cell as it was (R33 to R37). -/

set_option Elab.async false

namespace Sys2Proof.Machine

open Sys2Proof.Config

/-! ## A loop seen at one of its turns -/

/-- What the turns before `j` keep, the turn `j` turns into what the turns behind it keep. -/
theorem forEach_at {σ : Type} {n : Nat} {f : Fin n → σ → σ} {P K : σ → Prop} {s : σ} (j : Fin n) (hP : ∀ i u, i ≠ j → P u → P (f i u))
    (hs : P s) (hj : ∀ u, P u → K (f j u)) (hK : ∀ i u, i ≠ j → K u → K (f i u)) : K (forEach n f s) := by
  have hnodup := List.nodup_finRange n
  obtain ⟨before, behind, hl⟩ := List.append_of_mem (List.mem_finRange j)
  have keeps {Q : σ → Prop} (hQ : ∀ i u, i ≠ j → Q u → Q (f i u)) (l : List (Fin n)) (hn : j ∉ l) (u : σ) (hu : Q u) :
      Q (l.foldl (fun v i => f i v) u) := by
    induction l generalizing u with
    | nil => exact hu
    | cons i rest ih =>
      obtain ⟨hi, hrest⟩ := not_or.mp (fun h => hn (List.mem_cons.mpr h))
      exact ih hrest _ (hQ i u (fun h => hi h.symm) hu)
  rw [hl, List.nodup_append, List.nodup_cons] at hnodup
  obtain ⟨-, ⟨hbehind, -⟩, hapart⟩ := hnodup
  have hbefore : j ∉ before := fun h => hapart j h j List.mem_cons_self rfl
  rw [forEach, hl, List.foldl_append, List.foldl_cons]
  exact keeps hK behind hbehind _ (hj _ (keeps hP before hbefore s hs))

section
variable {s t u : State} {i j : Fin 4}

/-! ## A cell evaluated -/

/-- The cell that a trip leaves of `c` (R37). -/
def trippedCell (s : State) (i : Fin 4) (c : Cell) : Cell := { c with
  state := tripState s i
  confirm := if tripState s i = .tripped then Timer.start s.effective.cells[i].confirmTimeout else .off }

/-- The cell `c` with its truths and its demand taken (R35). -/
def judgedCell (s : State) (i : Fin 4) (c : Cell) : Cell := { c with truths := cellTruths s i, demand := cellDemand s i }

/-- The cell that an evaluation leaves of `c` (R35, R37). -/
def evaluatedCell (s : State) (i : Fin 4) (c : Cell) : Cell :=
  if cellDemand s i = true ∧ c.state = .ready then trippedCell s i (judgedCell s i c) else judgedCell s i c

/-- What the truths and the trip state are taken from is the same in two states, but for the demands of the cells. -/
structure TripAlike (s t : State) : Prop where
  effective : t.effective = s.effective
  sampled : t.sampled = s.sampled
  channels : t.channels = s.channels
  level : t.level.level = s.level.level

theorem TripAlike.refl (s : State) : TripAlike s s := ⟨rfl, rfl, rfl, rfl⟩

theorem TripAlike.trans (h : TripAlike s t) (k : TripAlike t u) : TripAlike s u :=
  ⟨k.effective.trans h.effective, k.sampled.trans h.sampled, k.channels.trans h.channels, k.level.trans h.level⟩

theorem TripAlike.confirmLevel (h : TripAlike s t) (i : Fin 4) : confirmLevel t i = confirmLevel s i := by
  unfold Machine.confirmLevel lineWith
  rw [h.effective, h.sampled]

theorem TripAlike.tripState (h : TripAlike s t) (i : Fin 4) : tripState t i = tripState s i := by
  unfold Machine.tripState
  rw [h.effective, h.confirmLevel]

/-- A selector that names no cell is true in both or in neither. -/
theorem TripAlike.selectorValue (h : TripAlike s t) {sel : Selector} (hcell : sel.code ≠ 4) : selectorValue t sel = selectorValue s sel := by
  have hval : sel.code.val ≠ 4 := fun hv => hcell (Fin.ext hv)
  unfold Machine.selectorValue
  rw [h.channels, h.level, h.confirmLevel]
  split
  · rfl
  · rfl
  · rfl
  · rename_i hv
    exact absurd hv hval
  · rfl
  · rfl
  · rfl

theorem TripAlike.cellTruths (h : TripAlike s t) (hcell : ∀ k : Fin 4, s.effective.cells[i].inputs[k].code ≠ 4) :
    cellTruths t i = cellTruths s i := by
  refine Vector.ext fun k hk => ?_
  have hsel := h.selectorValue (hcell ⟨k, hk⟩)
  have turned (v : State) : (Machine.cellTruths v i)[k] = inputTruth v v.effective.cells[i].inputs[k] := mapTable_get _ _ ⟨k, hk⟩
  rw [turned, turned, inputTruth, inputTruth, h.effective]
  exact congrArg (· ^^ _) hsel

theorem TripAlike.cellDemand (h : TripAlike s t) (hcell : ∀ k : Fin 4, s.effective.cells[i].inputs[k].code ≠ 4) :
    cellDemand t i = cellDemand s i := by
  rw [Machine.cellDemand, Machine.cellDemand, h.cellTruths hcell, h.effective]

theorem TripAlike.evaluatedCell (h : TripAlike s t) (hcell : ∀ k : Fin 4, s.effective.cells[i].inputs[k].code ≠ 4) (c : Cell) :
    evaluatedCell t i c = evaluatedCell s i c := by
  unfold Machine.evaluatedCell trippedCell judgedCell
  rw [h.cellTruths hcell, h.cellDemand hcell, h.tripState, h.effective]

/-! ## A trip -/

/-- The state of a trip before the cell joins the ALERT cause set. -/
def tripHanded (i : Fin 4) (s : State) : State :=
  let v := addRecord recCellTripped i.val (detail ((3, CellState.code (tripState s i)) :: truthFields s.cells[i].truths))
    (changeCell i (trippedCell s i) s)
  postCell i (if s.effective.cells[i].evacuateOnTrip then localCause .cell (BitVec.ofNat 4 i.val) 0 v else v)

theorem tripCell_eq (i : Fin 4) (s : State) : tripCell i s = joinAlert (.cell i) (tripHanded i s) := by
  have htruths : (changeCell i (trippedCell s i) s).cells[i].truths = s.cells[i].truths := by
    have hself : (changeCell i (trippedCell s i) s).cells[i] = trippedCell s i s.cells[i] := modifyAt_self _ _ _
    rw [hself]
    rfl
  unfold tripHanded
  rw [← htruths]
  rfl

theorem tripHanded_sameBut (i : Fin 4) (s : State) : SameBut [] (changeCell i (trippedCell s i) s) (tripHanded i s) := by
  unfold tripHanded
  dsimp only
  refine SameBut.trans ?_ (postCell_within _ _).1
  split
  · exact (addRecord_within _ _ _ _).1.trans (localCause_within _ _ _ _).1
  · exact (addRecord_within _ _ _ _).1

theorem tripHanded_works (i : Fin 4) (s : State) : Works [.cause] s (tripHanded i s) := by
  unfold tripHanded
  dsimp only
  refine Works.next ?_ (postCell_works i _)
  have recorded {k n : Nat} {w : Word} : Works [.cause] s (addRecord k n w (changeCell i (trippedCell s i) s)) :=
    (changeCell_works i _ s).wide.next (addRecord_works _ _ _ _)
  split
  · exact recorded.next (localCause_works _ _ _ _)
  · exact recorded

theorem joinAlert_sameBut_level (m : AlertMember) (s : State) : SameBut [.level] s (joinAlert m s) := (joinAlert_within m s).1

theorem joinAlert_level_level (m : AlertMember) (s : State) : (joinAlert m s).level.level = s.level.level
    ∧ (joinAlert m s).level.cause = s.level.cause := by
  unfold joinAlert
  split
  · exact ⟨rfl, rfl⟩
  · exact ⟨rfl, rfl⟩

theorem tripCell_cells (i : Fin 4) (s : State) : (tripCell i s).cells = modifyAt s.cells i (trippedCell s i) := by
  rw [tripCell_eq, (joinAlert_sameBut_level _ _).cells, (tripHanded_sameBut i s).cells]
  rfl

theorem tripCell_alike (i : Fin 4) (s : State) : TripAlike s (tripCell i s) := by
  have hsame := (joinAlert_sameBut_level (.cell i) (tripHanded i s))
  rw [tripCell_eq]
  exact ⟨hsame.effective.trans (tripHanded_sameBut i s).effective, hsame.sampled.trans (tripHanded_sameBut i s).sampled,
    hsame.channels.trans (tripHanded_sameBut i s).channels,
    (joinAlert_level_level _ _).1.trans ((tripHanded_works i s).level (by decide)).1⟩

/-- A trip joins its cell to the ALERT cause set, and changes no other lasting member. -/
theorem tripCell_alerts {m : AlertMember} (hm : AlertMember.settled m = true) (i : Fin 4) (s : State) :
    m ∈ (tripCell i s).level.alerts ↔ m = .cell i ∨ m ∈ s.level.alerts := by
  obtain ⟨-, -, -, -, halerts⟩ := (tripHanded_sameBut i s).level
  rw [tripCell_eq, mem_joinAlert, halerts m hm]
  rfl

/-! ## The cause that trips give -/

/-- No cause is in force, or one of a cell. -/
def CellCause (s : State) : Prop := ∀ c, s.level.cause = some c → c.kind = .cell

theorem localCause_cause {kind : CauseKind} {reason : BitVec 4} {fault : Nat} :
    ∃ c, (localCause kind reason fault s).level.cause = some c ∧ (s.level.cause = none → c.kind = kind)
      ∧ (s.level.cause = none ∨ s.level.cause = some c) := by
  cases hc : s.level.cause with
  | none =>
    rw [localCause_of_none hc]
    exact ⟨_, rfl, fun _ => rfl, .inl rfl⟩
  | some c => exact ⟨c, (localCause_later hc).1, fun h => absurd h (Option.some_ne_none c), .inr rfl⟩

theorem tripCell_cause (i : Fin 4) (s : State) : (s.level.cause ≠ none → (tripCell i s).level.cause = s.level.cause)
    ∧ (CellCause s → CellCause (tripCell i s))
    ∧ (s.effective.cells[i].evacuateOnTrip = true → (tripCell i s).level.cause ≠ none) := by
  have hhanded : (tripCell i s).level.cause = (tripHanded i s).level.cause := by
    rw [tripCell_eq, (joinAlert_level_level _ _).2]
  have hrecorded {k n : Nat} {w : Word} : (addRecord k n w (changeCell i (trippedCell s i) s)).level.cause = s.level.cause := by
    rw [addRecord_level]
    rfl
  rw [CellCause, CellCause, hhanded]
  unfold tripHanded
  dsimp only
  rw [show ∀ v, (postCell i v).level = v.level from fun v => rfl]
  split
  · rename_i hon
    obtain ⟨c, hc, hkind, hold⟩ := localCause_cause (kind := .cell) (reason := BitVec.ofNat 4 i.val) (fault := 0)
      (s := addRecord recCellTripped i.val (detail ((3, CellState.code (tripState s i)) :: truthFields s.cells[i].truths))
        (changeCell i (trippedCell s i) s))
    rw [hrecorded] at hkind hold
    refine ⟨fun hn => hc.trans (hold.resolve_left hn).symm, fun hcell d hd => ?_, fun _ => by rw [hc]; exact Option.some_ne_none c⟩
    obtain rfl := Option.some.inj (hc.symm.trans hd)
    exact hold.elim hkind (hcell c)
  · rename_i hoff
    refine ⟨fun _ => hrecorded, fun hcell d hd => hcell d (hrecorded.symm.trans hd), fun hon => absurd hon hoff⟩

/-! ## An evaluation -/

theorem evaluateCell_off (h : s.effective.cells[i].enabled = false) : evaluateCell i s = s := by
  rw [evaluateCell, h]
  rfl

/-- The state in which the cell's truths and demand have been taken. -/
def judged (i : Fin 4) (s : State) : State := postCell i (changeCell i (judgedCell s i) s)

theorem judged_cell (i : Fin 4) (s : State) : (judged i s).cells[i] = judgedCell s i s.cells[i] := modifyAt_self _ _ _

theorem judged_alike (i : Fin 4) (s : State) : TripAlike s (judged i s) := ⟨rfl, rfl, rfl, rfl⟩

theorem evaluateCell_on (h : s.effective.cells[i].enabled = true) :
    evaluateCell i s = if cellDemand s i = true ∧ s.cells[i].state = .ready then tripCell i (judged i s) else judged i s := by
  have hstate : (judged i s).cells[i].state = s.cells[i].state := by rw [judged_cell]; rfl
  have hunfold : evaluateCell i s
      = if (cellDemand s i && (judged i s).cells[i].state == .ready) = true then tripCell i (judged i s) else judged i s := by
    rw [evaluateCell, if_pos h]
    rfl
  rw [hunfold, hstate]
  simp only [Bool.and_eq_true, beq_iff_eq]

theorem evaluateCell_alike (i : Fin 4) (s : State) : TripAlike s (evaluateCell i s) := by
  rcases Bool.eq_false_or_eq_true s.effective.cells[i].enabled with hon | hoff
  · rw [evaluateCell_on hon]
    split
    · exact (judged_alike i s).trans (tripCell_alike i _)
    · exact judged_alike i s
  · rw [evaluateCell_off hoff]
    exact .refl s

theorem evaluateCell_other (h : j ≠ i) : (evaluateCell i s).cells[j] = s.cells[j] := by
  have hjudged : (judged i s).cells[j] = s.cells[j] := modifyAt_other _ _ h
  rcases Bool.eq_false_or_eq_true s.effective.cells[i].enabled with hon | hoff
  · rw [evaluateCell_on hon]
    split
    · simp only [tripCell_cells]
      exact (modifyAt_other _ _ h).trans hjudged
    · exact hjudged
  · rw [evaluateCell_off hoff]

/-- An evaluation of an enabled cell takes its truths and its demand, and trips it where it was READY and the demand is true. -/
theorem evaluateCell_self (hon : s.effective.cells[i].enabled = true) : (evaluateCell i s).cells[i] = evaluatedCell s i s.cells[i] := by
  rw [evaluateCell_on hon, evaluatedCell]
  split
  · have hself : (modifyAt (judged i s).cells i (trippedCell (judged i s) i))[i] = trippedCell (judged i s) i (judged i s).cells[i] :=
      modifyAt_self _ _ _
    simp only [tripCell_cells]
    rw [hself, judged_cell]
    unfold trippedCell
    rw [(judged_alike i s).tripState]
    rfl
  · exact judged_cell i s

/-- An evaluation takes no lasting member out of the ALERT cause set. -/
theorem evaluateCell_alerts {m : AlertMember} (hm : AlertMember.settled m = true) (h : m ∈ s.level.alerts) :
    m ∈ (evaluateCell i s).level.alerts := by
  rcases Bool.eq_false_or_eq_true s.effective.cells[i].enabled with hon | hoff
  · rw [evaluateCell_on hon]
    split
    · exact (tripCell_alerts hm i _).mpr (.inr h)
    · exact h
  · rwa [evaluateCell_off hoff]

theorem evaluateCell_cause (i : Fin 4) (s : State) : (s.level.cause ≠ none → (evaluateCell i s).level.cause = s.level.cause)
    ∧ (CellCause s → CellCause (evaluateCell i s)) := by
  rcases Bool.eq_false_or_eq_true s.effective.cells[i].enabled with hon | hoff
  · rw [evaluateCell_on hon]
    split
    · exact ⟨(tripCell_cause i (judged i s)).1, (tripCell_cause i (judged i s)).2.1⟩
    · exact ⟨fun _ => rfl, id⟩
  · rw [evaluateCell_off hoff]
    exact ⟨fun _ => rfl, id⟩

/-- An evaluation that trips its cell. -/
theorem evaluateCell_trips (hon : s.effective.cells[i].enabled = true) (hdemand : cellDemand s i = true) (hready : s.cells[i].state = .ready) :
    .cell i ∈ (evaluateCell i s).level.alerts
      ∧ (s.effective.cells[i].evacuateOnTrip = true → (evaluateCell i s).level.cause ≠ none) := by
  rw [evaluateCell_on hon, if_pos ⟨hdemand, hready⟩]
  exact ⟨(tripCell_alerts rfl i _).mpr (.inl rfl), (tripCell_cause i (judged i s)).2.2⟩

/-! ## The cells that a change touches -/

/-- One turn of a re-evaluation. -/
def reevaluateOne (touched : Selector → Bool) (s0 : State) (i : Fin 4) (s : State) : State :=
  if s.effective.cells[i].inputs.toList.any (fun sel => touched sel || demandTouched s0 s sel) then evaluateCell i s else s

theorem reevaluate_eq (touched : Selector → Bool) (s : State) : reevaluate touched s = forEach 4 (reevaluateOne touched s) s := rfl

theorem reevaluateOne_cases (touched : Selector → Bool) (s0 : State) (i : Fin 4) (s : State) :
    reevaluateOne touched s0 i s = evaluateCell i s ∨ reevaluateOne touched s0 i s = s := by
  unfold reevaluateOne
  split
  · exact .inl rfl
  · exact .inr rfl

/-- What every evaluation keeps, a re-evaluation keeps. -/
theorem reevaluate_keeps {P : State → Prop} (hP : ∀ i u, P u → P (evaluateCell i u)) (touched : Selector → Bool) (h : P s) :
    P (reevaluate touched s) := by
  rw [reevaluate_eq]
  refine forEach_keeps P (fun i u hu => ?_) s h
  rcases reevaluateOne_cases touched s i u with he | he
  · rw [he]
    exact hP i u hu
  · rwa [he]

theorem reevaluate_alike (touched : Selector → Bool) (s : State) : TripAlike s (reevaluate touched s) :=
  reevaluate_keeps (P := TripAlike s) (fun i u hu => hu.trans (evaluateCell_alike i u)) touched (.refl s)

/-- A cell that a change touches, and that has no CELL selector, is evaluated as the re-evaluation found it. -/
theorem reevaluate_touched {touched : Selector → Bool} (htouched : ∃ k : Fin 4, touched s.effective.cells[j].inputs[k] = true)
    (hcell : ∀ k : Fin 4, s.effective.cells[j].inputs[k].code ≠ 4) (hon : s.effective.cells[j].enabled = true) :
    (reevaluate touched s).cells[j] = evaluatedCell s j s.cells[j]
      ∧ (cellDemand s j = true → s.cells[j].state = .ready → .cell j ∈ (reevaluate touched s).level.alerts
          ∧ (s.effective.cells[j].evacuateOnTrip = true → (reevaluate touched s).level.cause ≠ none)) := by
  have other {P : State → Prop} (hP : ∀ i u, i ≠ j → P u → P (evaluateCell i u)) (i : Fin 4) (u : State) (hi : i ≠ j) (hu : P u) :
      P (reevaluateOne touched s i u) := by
    rcases reevaluateOne_cases touched s i u with he | he
    · rw [he]
      exact hP i u hi hu
    · rwa [he]
  rw [reevaluate_eq]
  refine forEach_at (P := fun u => TripAlike s u ∧ u.cells[j] = s.cells[j])
    (K := fun u => u.cells[j] = evaluatedCell s j s.cells[j] ∧ (cellDemand s j = true → s.cells[j].state = .ready →
      .cell j ∈ u.level.alerts ∧ (s.effective.cells[j].evacuateOnTrip = true → u.level.cause ≠ none)))
    j (other fun i u hi hu => ⟨hu.1.trans (evaluateCell_alike i u), (evaluateCell_other hi.symm).trans hu.2⟩) ⟨.refl s, rfl⟩ ?_
    (other fun i u hi hu => ⟨(evaluateCell_other hi.symm).trans hu.1, fun hd hr => ⟨evaluateCell_alerts rfl (hu.2 hd hr).1,
      fun he => by rw [(evaluateCell_cause i u).1 ((hu.2 hd hr).2 he)]; exact (hu.2 hd hr).2 he⟩⟩)
  rintro u ⟨halike, hkept⟩
  obtain ⟨k, hk⟩ := htouched
  have hone : reevaluateOne touched s j u = evaluateCell j u := by
    refine if_pos (List.any_eq_true.mpr ⟨s.effective.cells[j].inputs[k], ?_, by rw [hk]; rfl⟩)
    rw [halike.effective]
    exact Vector.mem_toList_iff.mpr (Vector.getElem_mem k.isLt)
  have hon' : u.effective.cells[j].enabled = true := by rw [halike.effective]; exact hon
  rw [hone, evaluateCell_self hon', halike.evaluatedCell hcell, hkept]
  refine ⟨rfl, fun hd hr => ?_⟩
  obtain ⟨halert, hcause⟩ := evaluateCell_trips hon' ((halike.cellDemand hcell).trans hd) (by rw [hkept]; exact hr)
  exact ⟨halert, fun he => hcause (by rw [halike.effective]; exact he)⟩

/-- A re-evaluation leaves the state and the timer of a cell that is not READY, and a cell that is not enabled whole. -/
theorem reevaluate_left (touched : Selector → Bool) (s : State) (j : Fin 4) :
    (s.cells[j].state ≠ .ready → (reevaluate touched s).cells[j].state = s.cells[j].state
        ∧ (reevaluate touched s).cells[j].confirm = s.cells[j].confirm)
      ∧ (s.effective.cells[j].enabled = false → (reevaluate touched s).cells[j] = s.cells[j]) := by
  refine (reevaluate_keeps (s := s) (P := fun u => u.effective = s.effective
    ∧ (s.cells[j].state ≠ .ready → u.cells[j].state = s.cells[j].state ∧ u.cells[j].confirm = s.cells[j].confirm)
    ∧ (s.effective.cells[j].enabled = false → u.cells[j] = s.cells[j])) (fun i u hu => ?_) touched ⟨rfl, fun _ => ⟨rfl, rfl⟩, fun _ => rfl⟩).2
  obtain ⟨he, hstate, hoff⟩ := hu
  refine ⟨(evaluateCell_alike i u).effective.trans he, fun hn => ?_, fun hd => ?_⟩
  · obtain ⟨hs, hc⟩ := hstate hn
    by_cases hj : j = i
    · subst hj
      rcases Bool.eq_false_or_eq_true u.effective.cells[j].enabled with hon | hoff
      · rw [evaluateCell_self hon, evaluatedCell, if_neg (fun h => hn (hs.symm.trans h.2))]
        exact ⟨hs, hc⟩
      · rw [evaluateCell_off hoff]
        exact ⟨hs, hc⟩
    · rw [evaluateCell_other hj]
      exact ⟨hs, hc⟩
  · by_cases hj : j = i
    · subst hj
      rw [evaluateCell_off (by rw [he]; exact hd)]
      exact hoff hd
    · rw [evaluateCell_other hj]
      exact hoff hd

end
end Sys2Proof.Machine
end

section
/-! PROOFS. The trip unit's event after the level has entered or left EVACUATE, and a cell's truths and demand (R33 to R35, R37, R54). -/

set_option Elab.async false

namespace Sys2Proof.Machine

open Sys2Proof.Config

section
variable {s s0 t u : State} {i : Fin 4}

/-! ## The trip unit's event that stays due -/

/-- Around one fault at most, the level stands, the due flag stands, and a cause in force stays. -/
theorem EndStep.reeval (h : EndStep s t) : t.level.level = s.level.level ∧ t.reevalDue = s.reevalDue
    ∧ (s.level.cause ≠ none → t.level.cause ≠ none) := by
  obtain ⟨u, v, hu, huv, hv⟩ := h
  have hfault : v.level.level = u.level.level ∧ v.reevalDue = u.reevalDue ∧ (u.level.cause ≠ none → v.level.cause ≠ none) := by
    rcases huv with rfl | ⟨k, d, hk, rfl⟩
    · exact ⟨rfl, rfl, id⟩
    · have hw := recordFault_works k d u
      refine ⟨(hw.level (by decide)).1, hw.reeval (by decide), fun hn => ?_⟩
      have hsame := (recordFault_quiet k d u (hk.imp_right .inr)).1.level
      rw [hsame.2.2.2.1 (Option.isSome_iff_ne_none.mpr hn)]
      exact hn
  obtain ⟨hl, hr, hc⟩ := hfault
  exact ⟨(hv.level (by decide)).1.trans (hl.trans (hu.level (by decide)).1), (hv.reeval (by decide)).trans (hr.trans (hu.reeval (by decide))),
    fun hn => by rw [(hv.cause (by decide)).1]; exact hc (by rwa [(hu.cause (by decide)).1])⟩

/-- In an evacuation with a cause in force the trip unit's event has been taken. -/
structure ReevalTaken (s : State) : Prop where
  level : s.level.level = .evacuate
  cause : s.level.cause ≠ none
  taken : s.reevalDue = false

theorem levelOf_of_cause_ne {l : LevelUnit} (h : l.cause ≠ none) : levelOf l = .evacuate := by
  obtain ⟨c, hc⟩ := Option.ne_none_iff_exists'.mp h
  exact levelOf_of_cause hc

theorem ReevalTaken.step (h : ReevalTaken s) (hstep : settleStep s0 s = some t) : ReevalTaken t := by
  rcases settleStep_endStep hstep with ⟨-, rfl⟩ | ⟨-, rfl⟩ | hend
  · rw [deriveLevel_of_same ((levelOf_of_cause_ne h.cause).trans h.level.symm)]
    exact h
  · exact ⟨h.level, h.cause, h.taken⟩
  · obtain ⟨hl, hr, hc⟩ := hend.reeval
    exact ⟨hl.trans h.level, hc h.cause, hr.trans h.taken⟩

theorem ReevalTaken.works {o : List Opening} (h : ReevalTaken s) (hw : Works o s t) (hl : .level ∉ o := by decide)
    (hc : .cause ∉ o := by decide) (hr : .reeval ∉ o := by decide) : ReevalTaken t :=
  ⟨(hw.level hl).1.trans h.level, by rw [(hw.cause hc).1]; exact h.cause, (hw.reeval hr).trans h.taken⟩

theorem event_reevalTaken {f : State → State} (h : ReevalTaken (f (beginEvent s))) : ReevalTaken (event f s) :=
  event_keeps (fun _ _ _ h hstep => h.step hstep) (fun u h => h.works (sweepPut_works u)) (fun _ h => h.works (o := []) .of_same) h

/-- The trip unit's event is due exactly while the level is EVACUATE, where a cause is in force. -/
structure ReevalFollows (s : State) : Prop where
  due : s.reevalDue = decide (s.level.level = .evacuate)
  cause : s.level.level = .evacuate → s.level.cause ≠ none

/-- What a change of the level hands on makes the trip unit's event due at an entry into EVACUATE, and leaves it below. -/
theorem levelHanded_reeval {before after : Level} (hbefore : before ≠ .evacuate) :
    (levelHanded before after s).reevalDue = if after = .evacuate then true else s.reevalDue := by
  have hrecord : (leveled before after s).reevalDue = s.reevalDue := (changeRecord_works before after s).reeval (by decide)
  have htold : (tellReaders before after (leveled before after s)).reevalDue = if after = .evacuate then true else s.reevalDue := by
    unfold tellReaders
    rw [if_neg hbefore]
    split
    · rfl
    · exact hrecord
  rw [levelHanded_eq, if_neg hbefore]
  refine Eq.trans ?_ htold
  split
  · exact (requestEvacuate_works _).reeval (by decide)
  · rfl

theorem ReevalFollows.deriveLevel (h : ReevalFollows s) : ReevalFollows (deriveLevel s) := by
  by_cases hdue : levelOf s.level = s.level.level
  · rw [deriveLevel_of_same hdue]
    exact h
  · have hbelow : s.level.level ≠ .evacuate := fun hl => hdue ((levelOf_of_cause_ne (h.cause hl)).trans hl.symm)
    have hnot : s.reevalDue = false := h.due.trans (decide_eq_false hbelow)
    obtain ⟨hl, -, hc, -⟩ := levelHanded_level s.level.level (levelOf s.level) s
    have hr := levelHanded_reeval (s := s) (after := levelOf s.level) hbelow
    have handed : ReevalFollows (levelHanded s.level.level (levelOf s.level) s) := by
      refine ⟨?_, fun he => ?_⟩
      · rw [hr, hl, hnot]
        by_cases hof : levelOf s.level = .evacuate
        · simp [hof]
        · simp [hof]
      · rw [hl] at he
        rw [hc]
        exact fun hn => levelOf_of_no_cause hn he
    rw [deriveLevel_eq hdue, if_neg hbelow]
    have hw := laterRecords_works s.level.taken.tail
      (if levelOf s.level = .evacuate then musterEntry (levelHanded s.level.level (levelOf s.level) s)
        else levelHanded s.level.level (levelOf s.level) s)
    have mustered : ReevalFollows (if levelOf s.level = .evacuate then musterEntry (levelHanded s.level.level (levelOf s.level) s)
        else levelHanded s.level.level (levelOf s.level) s) := by
      split
      · exact ⟨handed.due, handed.cause⟩
      · exact handed
    exact ⟨by rw [hw.reeval (by decide), (hw.level (by decide)).1]; exact mustered.due, fun he => by
      rw [(hw.cause (by decide)).1]
      exact mustered.cause ((hw.level (by decide)).1.symm.trans he)⟩

theorem ReevalFollows.step (h : ReevalFollows s) (hstep : settleStep s0 s = some t) : ReevalFollows t := by
  rcases settleStep_endStep hstep with ⟨-, rfl⟩ | ⟨-, rfl⟩ | hend
  · exact h.deriveLevel
  · exact ⟨h.due, h.cause⟩
  · obtain ⟨hl, hr, hc⟩ := hend.reeval
    exact ⟨by rw [hr, hl]; exact h.due, fun he => hc (h.cause (hl.symm.trans he))⟩

theorem ReevalFollows.works {o : List Opening} (h : ReevalFollows s) (hw : Works o s t) (hl : .level ∉ o := by decide)
    (hc : .cause ∉ o := by decide) (hr : .reeval ∉ o := by decide) : ReevalFollows t :=
  ⟨by rw [hw.reeval hr, (hw.level hl).1]; exact h.due, fun he => by
    rw [(hw.cause hc).1]
    exact h.cause ((hw.level hl).1.symm.trans he)⟩

theorem event_reevalFollows {f : State → State} (h : ReevalFollows (f (beginEvent s))) : ReevalFollows (event f s) :=
  event_keeps (fun _ _ _ h hstep => h.step hstep) (fun u h => h.works (sweepPut_works u)) (fun _ h => h.works (o := []) .of_same) h

/-! ## The truths and the demand -/

theorem cellTruths_at (s : State) (i k : Fin 4) : (cellTruths s i)[k] = inputTruth s s.effective.cells[i].inputs[k] :=
  mapTable_get _ _ k

/-- The truth of an input before its invert flag is the value of its selector. -/
theorem cellTruths_invert (s : State) (i k : Fin 4) :
    ((cellTruths s i)[k] ^^ s.effective.cells[i].inputs[k].invert) = selectorValue s s.effective.cells[i].inputs[k] := by
  rw [cellTruths_at, inputTruth, Bool.xor_assoc, Bool.xor_self, Bool.xor_false]

theorem hasFault_eq (f : FaultFlags) : hasFault f = decide (f ≠ {}) := by
  obtain ⟨a, b, c, d, e⟩ := f
  revert a b c d e
  decide

theorem cellDemand_invert (s : State) (i : Fin 4) :
    (cellDemand s i ^^ s.effective.cells[i].outputInvert) = modeResult s.effective.cells[i].mode (cellTruths s i) := by
  rw [cellDemand, Bool.xor_assoc, Bool.xor_self, Bool.xor_false]

theorem bool_countP_cons (b : Bool) (l : List Bool) : (b :: l).countP id = b.toNat + l.countP id := by
  cases b with
  | false => rw [List.countP_cons_of_neg (by simp)]; simp
  | true => rw [List.countP_cons_of_pos rfl, Nat.add_comm]; rfl

/-- The number of true inputs. -/
theorem countWhere_four (x : Vector Bool 4) : countWhere x id = x[0].toNat + x[1].toNat + x[2].toNat + x[3].toNat := by
  have hlist : x.toList = [x[0], x[1], x[2], x[3]] := by
    refine List.ext_getElem (by simp) fun k hk hk' => ?_
    simp only [List.length_cons, List.length_nil] at hk'
    rw [Vector.getElem_toList]
    interval_cases k <;> rfl
  rw [countWhere, hlist]
  simp only [bool_countP_cons, List.countP_nil]
  omega

theorem modeResult_any (x : Vector Bool 4) : modeResult .any x = decide (∃ k : Fin 4, x[k] = true) := by
  have hall : (∃ k : Fin 4, x[k] = true) ↔ (x[0] || x[1] || x[2] || x[3]) = true := by
    simp [Fin.exists_fin_succ, or_assoc]
  exact (Bool.decide_coe _).symm.trans (decide_eq_decide.mpr hall.symm)

theorem modeResult_all (x : Vector Bool 4) : modeResult .all x = decide (∀ k : Fin 4, x[k] = true) := by
  have hall : (∀ k : Fin 4, x[k] = true) ↔ (x[0] && x[1] && x[2] && x[3]) = true := by
    simp [Fin.forall_fin_succ, and_assoc]
  exact (Bool.decide_coe _).symm.trans (decide_eq_decide.mpr hall.symm)

theorem confirmLevel_of_none (h : ∀ n : Fin 8, s.effective.lines[n].fn ≠ .confirmIn i) : confirmLevel s i = false := by
  have hnone : lineWith s (.confirmIn i) = none := findIndex_none.mpr fun n => by simpa using h n
  rw [confirmLevel, hnone]

theorem confirmLevel_of_only {n : Fin 8} (h : s.effective.lines[n].fn = .confirmIn i)
    (honly : ∀ m : Fin 8, s.effective.lines[m].fn = .confirmIn i → m = n) : confirmLevel s i = s.sampled[n] := by
  have hsome : lineWith s (.confirmIn i) = some n := by
    cases hl : lineWith s (.confirmIn i) with
    | none => exact absurd h (by simpa using findIndex_none.mp hl n)
    | some m => rw [honly m (by simpa using (findIndex_some hl).1)]
  rw [confirmLevel, hsome]

/-! ## The cells at the event -/

/-- The state in which the trip unit's event has been taken up. -/
def reevalTakenUp (s : State) : State := { beginEvent s with reevalDue := false }

theorem evacuatingReevaluation_begin (s : State) :
    evacuatingReevaluation (beginEvent s) = reevaluate (fun sel => sel.code == 5) (reevalTakenUp s) := rfl

theorem reevalTakenUp_alike (s : State) : TripAlike s (reevalTakenUp s) := ⟨rfl, rfl, rfl, rfl⟩

theorem evacuatingReevaluation_alike (s : State) : TripAlike s (evacuatingReevaluation (beginEvent s)) := by
  rw [evacuatingReevaluation_begin]
  exact (reevalTakenUp_alike s).trans (reevaluate_alike _ _)

theorem evacuatingReevaluation_taken (s : State) : (evacuatingReevaluation (beginEvent s)).reevalDue = false
    ∧ (evacuatingReevaluation (beginEvent s)).run = s.run := by
  have hw := reevaluate_works (fun sel => sel.code == 5) (reevalTakenUp s)
  rw [evacuatingReevaluation_begin]
  exact ⟨hw.reeval (by decide), hw.run⟩

theorem evacuatingReevaluation_cause (s : State) :
    (s.level.cause ≠ none → (evacuatingReevaluation (beginEvent s)).level.cause = s.level.cause)
      ∧ (s.level.cause = none → CellCause (evacuatingReevaluation (beginEvent s))) := by
  rw [evacuatingReevaluation_begin]
  refine ⟨fun hn => ?_, fun hn => ?_⟩
  · exact reevaluate_keeps (s := reevalTakenUp s) (P := fun u => u.level.cause = s.level.cause)
      (fun i u hu => ((evaluateCell_cause i u).1 (by rw [hu]; exact hn)).trans hu) _ rfl
  · refine reevaluate_keeps (s := reevalTakenUp s) (P := CellCause) (fun i u hu => (evaluateCell_cause i u).2 hu) _ fun c hc => ?_
    rw [show (reevalTakenUp s).level.cause = s.level.cause from rfl, hn] at hc
    cases hc

/-- The event evaluates an enabled cell with an EVACUATING and no CELL selector. -/
theorem evacuatingReevaluation_cell (hon : s.effective.cells[i].enabled = true) {k : Fin 4} (hk : s.effective.cells[i].inputs[k].code = 5)
    (hcell : ∀ k : Fin 4, s.effective.cells[i].inputs[k].code ≠ 4) :
    (evacuatingReevaluation (beginEvent s)).cells[i] = evaluatedCell s i s.cells[i]
      ∧ (cellDemand s i = true → s.cells[i].state = .ready → .cell i ∈ (evacuatingReevaluation (beginEvent s)).level.alerts
          ∧ (s.effective.cells[i].evacuateOnTrip = true → (evacuatingReevaluation (beginEvent s)).level.cause ≠ none)) := by
  have halike := reevalTakenUp_alike s
  have htouched : ((reevalTakenUp s).effective.cells[i].inputs[k].code == 5) = true := beq_iff_eq.mpr hk
  obtain ⟨hat, htrips⟩ := reevaluate_touched (s := reevalTakenUp s) (touched := fun sel => sel.code == 5) (j := i)
    ⟨k, htouched⟩ hcell hon
  rw [halike.evaluatedCell hcell] at hat
  rw [halike.cellDemand hcell] at htrips
  rw [evacuatingReevaluation_begin]
  exact ⟨hat, htrips⟩

theorem evaluatedCell_judged (s : State) (i : Fin 4) (c : Cell) :
    (evaluatedCell s i c).demand = cellDemand s i ∧ (evaluatedCell s i c).truths = cellTruths s i := by
  unfold evaluatedCell
  split
  · exact ⟨rfl, rfl⟩
  · exact ⟨rfl, rfl⟩

theorem evaluatedCell_trips {c : Cell} (hready : c.state = .ready) (hdemand : cellDemand s i = true) :
    (s.effective.cells[i].confirmRequired = true → confirmLevel s i = false →
        (evaluatedCell s i c).state = .tripped ∧ (evaluatedCell s i c).confirm = Timer.start s.effective.cells[i].confirmTimeout)
      ∧ (s.effective.cells[i].confirmRequired = false ∨ confirmLevel s i = true →
        (evaluatedCell s i c).state = .isolated ∧ (evaluatedCell s i c).confirm = .off) := by
  rw [evaluatedCell, if_pos ⟨hdemand, hready⟩]
  refine ⟨fun hreq hlevel => ?_, fun h => ?_⟩
  · have hstate : tripState s i = .tripped := by
      rw [tripState, hreq, hlevel]
      rfl
    exact ⟨hstate, if_pos hstate⟩
  · have hstate : tripState s i = .isolated := by
      refine if_pos ?_
      rcases h with h | h
      · rw [h]
        rfl
      · rw [h, Bool.or_true]
    exact ⟨hstate, if_neg (by rw [hstate]; decide)⟩

theorem evaluatedCell_stays {c : Cell} (h : c.state ≠ .ready ∨ cellDemand s i = false) :
    (evaluatedCell s i c).state = c.state ∧ (evaluatedCell s i c).confirm = c.confirm := by
  rw [evaluatedCell, if_neg (fun hc => h.elim (fun hn => hn hc.2) fun hn => by rw [hn] at hc; exact absurd hc.1 (by decide))]
  exact ⟨rfl, rfl⟩

end

/-- Settles O50: the evaluation of the event's cells, the due flag that it leaves, and the truths and the demand of a cell. -/
theorem evacuatingCellsReevaluated : Obligations.EvacuatingCellsReevaluated := by
  refine ⟨?_, fun s hdue => ?_, ?_, ?_⟩
  · intro i s hrun hdue hon ⟨k, hk⟩ hcell
    have hexec : exec .evacuatingReevaluation s = .next (expiryEvent s.reevalDue evacuatingReevaluation s) := rfl
    rw [expiryEvent_due hrun hdue] at hexec
    obtain ⟨hat, htrips⟩ := evacuatingReevaluation_cell hon hk hcell
    have same := event_sameBut_acted evacuatingReevaluation s
    have hfinal : (event evacuatingReevaluation s).cells[i] = evaluatedCell s i s.cells[i] := by
      simp only [same.cells]
      exact hat
    have hlevel := (evacuatingReevaluation_alike s).level
    obtain ⟨htaken, hacted⟩ := evacuatingReevaluation_taken s
    obtain ⟨hcause, hcellCause⟩ := evacuatingReevaluation_cause s
    obtain ⟨hdemand, htruths⟩ := evaluatedCell_judged s i s.cells[i]
    refine ⟨_, hexec, by rw [hfinal]; exact hdemand, by rw [hfinal]; exact htruths, fun hready hd => ⟨?_, ?_⟩, fun hready hd => ?_,
      fun hn => by rw [hfinal]; exact evaluatedCell_stays (.inl hn), fun hl hn => ⟨?_, ?_⟩, fun hl => ?_, fun hl hn hready hd he => ?_,
      same.sampled.trans (evacuatingReevaluation_alike s).sampled, ?_⟩
    · exact (same.level.2.2.2.2 _ rfl).mpr (htrips hd hready).1
    · rw [hfinal]
      exact evaluatedCell_trips hready hd
    · rw [hfinal, ← hready]
      exact evaluatedCell_stays (.inr hd)
    · rw [same.level.2.2.2.1 (by rw [hcause hn]; exact Option.isSome_iff_ne_none.mpr hn), hcause hn]
    · exact (event_reevalTaken (f := evacuatingReevaluation) ⟨hlevel.trans hl, by rw [hcause hn]; exact hn, htaken⟩).taken
    · refine (event_reevalFollows (f := evacuatingReevaluation) ⟨?_, fun h => absurd (hlevel.symm.trans h) hl⟩).due
      rw [htaken, hlevel, decide_eq_false hl]
    · have hsome := (htrips hd hready).2 he
      obtain ⟨c, hc⟩ := Option.ne_none_iff_exists'.mp hsome
      obtain ⟨entered, -⟩ := event_entry (f := evacuatingReevaluation) hrun (hacted.trans hrun) hc
        (by rw [hlevel]; exact hl) hlevel
      exact ⟨entered.level, c, entered.cause, hcellCause hn c hc⟩
    · exact event_sameBut (evacuatingReevaluation_within _).1
  · have hexec : exec .evacuatingReevaluation s = .next (expiryEvent s.reevalDue evacuatingReevaluation s) := rfl
    rw [hexec, expiryEvent, hdue, Bool.and_false]
    rfl
  · intro i k s sel truth channel other
    have htruth : truth = selectorValue s sel := cellTruths_invert s i k
    have coded {n : Fin 16} (hc : sel.code = n) : sel.code.val = n.val := congrArg Fin.val hc
    refine ⟨fun hc => ?_, fun hc => ?_, fun hc hi => ?_, fun hc hi => ?_, fun hc hi => ?_, fun hc => ?_, fun hc hi hnone => ?_,
      fun n hc hi hfn honly => ?_⟩
    · rw [htruth, selectorValue, coded hc]
      rfl
    · rw [htruth, selectorValue, coded hc]
      rfl
    · rw [htruth, selectorValue, coded hc]
      simp [hi, channel]
    · rw [htruth, selectorValue, coded hc]
      simp [hi, channel, hasFault_eq]
    · rw [htruth, selectorValue, coded hc]
      simp [hi, other]
    · rw [htruth, selectorValue, coded hc]
      rfl
    · rw [htruth, selectorValue, coded hc]
      exact (congrArg (_ && ·) (confirmLevel_of_none hnone)).trans (Bool.and_false _)
    · rw [htruth, selectorValue, coded hc]
      have hvalue : confirmLevel s other = s.sampled[n] := confirmLevel_of_only hfn honly
      rw [← hvalue]
      exact (congrArg (· && confirmLevel s other) (decide_eq_true hi)).trans (Bool.true_and _)
  · intro i s x result trues
    have hresult : result = modeResult s.effective.cells[i].mode x := cellDemand_invert s i
    have htrues : trues = countWhere x id := (countWhere_four x).symm
    cases hm : s.effective.cells[i].mode with
    | any => rw [hresult, hm]; exact modeResult_any x
    | all => rw [hresult, hm]; exact modeResult_all x
    | twoOfFour => rw [hresult, hm, htrues]; rfl
    | threeOfFour => rw [hresult, hm, htrues]; rfl
    | pairsEither => rw [hresult, hm]; simp [modeResult]
    | pairsBoth => rw [hresult, hm]; simp [modeResult]

end Sys2Proof.Machine
end

section
/-! PROOFS. The confirm line and the confirm timer of a trip cell (R38, R39, R45). -/

set_option Elab.async false

namespace Sys2Proof.Machine

open Sys2Proof.Config

section
variable {s t u : State} {i j : Fin 4} {n : Fin 8} {value : Bool}

/-! ## What the confirm line brings about -/

/-- A cell that goes from one state to another, with its record (R41). -/
def cellGoes (i : Fin 4) (before after : CellState) (g : Cell → Cell) (s : State) : State :=
  cellStateRecord i before after (changeCell i g s)

theorem cellGoes_sameBut (i : Fin 4) (before after : CellState) (g : Cell → Cell) (s : State) :
    SameBut [] (changeCell i g s) (cellGoes i before after g s) := (cellStateRecord_within _ _ _ _).1

theorem cellGoes_cells (i : Fin 4) (before after : CellState) (g : Cell → Cell) (s : State) :
    (cellGoes i before after g s).cells = modifyAt s.cells i g := (cellGoes_sameBut i before after g s).cells

theorem cellGoes_cell (i : Fin 4) (before after : CellState) (g : Cell → Cell) (s : State) :
    (cellGoes i before after g s).cells[i] = g s.cells[i] := by
  simp only [cellGoes_cells]
  exact modifyAt_self _ _ _

/-- A cell goes, and its missing confirmation is a fault (R38, R39). -/
def cellFails (i : Fin 4) (before : CellState) (g : Cell → Cell) (s : State) : State :=
  postCell i (noConfirm i (cellGoes i before .unconfirmed g s))

theorem cellFails_sameBut (i : Fin 4) (before : CellState) (g : Cell → Cell) (s : State) :
    SameBut [.fault] (cellGoes i before .unconfirmed g s) (cellFails i before g s) :=
  ((noConfirm_within i _).andThen (postCell_within i _)).1

theorem cellFails_cells (i : Fin 4) (before : CellState) (g : Cell → Cell) (s : State) :
    (cellFails i before g s).cells = modifyAt s.cells i g :=
  (cellFails_sameBut i before g s).cells.trans (cellGoes_cells _ _ _ _ _)

theorem cellFails_cell (i : Fin 4) (before : CellState) (g : Cell → Cell) (s : State) :
    (cellFails i before g s).cells[i] = g s.cells[i] := by
  simp only [cellFails_cells]
  exact modifyAt_self _ _ _

theorem cellFails_sampled (i : Fin 4) (before : CellState) (g : Cell → Cell) (s : State) :
    (cellFails i before g s).sampled = s.sampled :=
  (cellFails_sameBut i before g s).sampled.trans (cellGoes_sameBut i before .unconfirmed g s).sampled

theorem cellFails_counter (before : CellState) (g : Cell → Cell) (hrun : s.run = true) :
    (cellFails i before g s).fault.counters[10] = saturate countTop s.fault.counters[10] := by
  have hgoes := cellGoes_sameBut i before .unconfirmed g s
  have hcount := recordFault_counter .isolatorNoConfirm (.own unitTrip (word i.val) 0) (hgoes.run.trans hrun) (by decide)
  have hbefore : (cellGoes i before .unconfirmed g s).fault.counters[(10 : Fin 12)] = s.fault.counters[(10 : Fin 12)] :=
    hgoes.counter_eq (by simp) (by decide)
  exact hcount.trans (congrArg (saturate countTop) hbefore)

/-- The confirmation of a waiting cell arrives (R39). -/
theorem confirmArrives_comes (hreq : s.effective.cells[i].confirmRequired = true)
    (hstate : s.cells[i].state = .tripped ∨ s.cells[i].state = .unconfirmed) :
    ∃ before, confirmArrives i true s = postCell i (cellGoes i before .isolated (fun c => { c with state := .isolated, confirm := .off }) s) := by
  unfold confirmArrives
  dsimp only
  rw [hreq]
  rcases hstate with h | h
  · exact ⟨.tripped, by rw [h]; rfl⟩
  · exact ⟨.unconfirmed, by rw [h]; rfl⟩

/-- The confirmation of an isolated cell is lost (R39). -/
theorem confirmArrives_lost (hreq : s.effective.cells[i].confirmRequired = true) (hstate : s.cells[i].state = .isolated) :
    confirmArrives i false s = cellFails i .isolated (fun c => { c with state := .unconfirmed }) s := by
  unfold confirmArrives
  dsimp only
  rw [hreq, hstate]
  rfl

theorem confirmArrives_stays (h : s.effective.cells[i].confirmRequired = false ∨ s.cells[i].state = .idle) :
    confirmArrives i value s = s := by
  unfold confirmArrives
  dsimp only
  rcases h with h | h
  · rw [h]
    rfl
  · rw [h]
    split
    · rfl
    · cases value with
      | false => rfl
      | true => rfl

theorem confirmArrives_sampled (i : Fin 4) (value : Bool) (s : State) : (confirmArrives i value s).sampled = s.sampled := by
  have goes (before : CellState) (g : Cell → Cell) : (postCell i (cellGoes i before .isolated g s)).sampled = s.sampled :=
    (cellGoes_sameBut i before .isolated g s).sampled
  have fails (g : Cell → Cell) : (cellFails i .isolated g s).sampled = s.sampled := cellFails_sampled _ _ _ _
  unfold confirmArrives
  dsimp only
  split
  · rfl
  · split
    · exact goes .tripped _
    · exact goes .unconfirmed _
    · exact fails _
    · rfl

/-! ## A change of a confirm line -/

/-- The state in which a confirm line has been sampled. -/
def lineSampled (n : Fin 8) (i : Fin 4) (value : Bool) (s : State) : State := postCell i { s with sampled := s.sampled.set n value }

/-- The cells with a CONFIRM selector of the cell. -/
def namesConfirm (i : Fin 4) (sel : Selector) : Bool := sel.code == 6 && sel.index.val == i.val

theorem confirmLine_eq (hvalue : (s.pins[n] ^^ s.effective.lines[n].invert) = value) :
    confirmLine n i s = reevaluate (namesConfirm i) (confirmArrives i value (lineSampled n i value s)) := by
  rw [← hvalue]
  rfl

section
variable {T : Selector → Bool}

theorem reevaluated_cell (same : SameBut [] (reevaluate T u) t) (h : u.cells[i].state ≠ .ready) :
    t.cells[i].state = u.cells[i].state ∧ t.cells[i].confirm = u.cells[i].confirm := by
  simp only [same.cells]
  exact (reevaluate_left T u i).1 h

theorem reevaluated_comes (same : SameBut [] (reevaluate T (confirmArrives i true s)) t) (hreq : s.effective.cells[i].confirmRequired = true)
    (hstate : s.cells[i].state = .tripped ∨ s.cells[i].state = .unconfirmed) :
    t.cells[i].state = .isolated ∧ t.cells[i].confirm = .off := by
  obtain ⟨before, he⟩ := confirmArrives_comes hreq hstate
  have hcell : (confirmArrives i true s).cells[i] = { s.cells[i] with state := .isolated, confirm := .off } := by
    simp only [he]
    exact cellGoes_cell i before .isolated _ s
  have hleft := reevaluated_cell same (by
    rw [hcell]
    show CellState.isolated ≠ .ready
    decide)
  rwa [hcell] at hleft

theorem reevaluated_lost (hrun : s.run = true) (same : SameBut [] (reevaluate T (confirmArrives i false s)) t)
    (hreq : s.effective.cells[i].confirmRequired = true) (hstate : s.cells[i].state = .isolated) :
    t.cells[i].state = .unconfirmed ∧ t.fault.counters[10] = saturate countTop s.fault.counters[10] := by
  have he := confirmArrives_lost hreq hstate
  have hcell : (confirmArrives i false s).cells[i] = { s.cells[i] with state := .unconfirmed } := by
    simp only [he]
    exact cellFails_cell i .isolated _ s
  have hleft := (reevaluated_cell same (by
    rw [hcell]
    show CellState.unconfirmed ≠ .ready
    decide)).1
  rw [hcell] at hleft
  have hcount := (((reevaluate_within T (confirmArrives i false s)).1.trans (same.mono (by simp)))).counter_eq (k := 10) (by decide) (by decide)
  refine ⟨hleft, hcount.trans ?_⟩
  simp only [he]
  exact cellFails_counter _ _ hrun

theorem reevaluated_stays (same : SameBut [] (reevaluate T (confirmArrives i value s)) t)
    (h : s.effective.cells[i].confirmRequired = false ∨ s.cells[i].state = .idle) : SameBut [] (reevaluate T s) t := by
  rwa [confirmArrives_stays h] at same

end

theorem lineEvent_confirm {pin : Bool} (hrun : s.run = true) (hfn : s.effective.lines[n].fn = .confirmIn i)
    (hchange : (pin ^^ s.effective.lines[n].invert) ≠ s.sampled[n]) :
    lineEvent n pin s = event (confirmLine n i) { s with pins := s.pins.set n pin } := by
  unfold lineEvent
  rw [hfn]
  refine if_pos ?_
  rw [hrun, Bool.true_and]
  exact bne_iff_ne.mpr hchange

theorem lineEvent_setup {pin : Bool} (hrun : s.run = false) : lineEvent n pin s = { s with pins := s.pins.set n pin } := by
  unfold lineEvent
  split
  · refine if_neg ?_
    rw [hrun]
    simp
  · rfl
  · rfl
  · rfl
  · rfl
  · rfl

/-! ## A confirm timer -/

theorem confirmExpiry_eq (i : Fin 4) (s : State) : confirmExpiry i s
    = cellFails i .tripped (fun c => { c with state := .unconfirmed, confirm := .expired }) s := rfl

theorem confirmExpiry_cells (i : Fin 4) (s : State) :
    (confirmExpiry i s).cells = modifyAt s.cells i (fun c => { c with state := .unconfirmed, confirm := .expired }) := by
  rw [confirmExpiry_eq]
  exact cellFails_cells i .tripped _ s

theorem confirmExpiry_counter (i : Fin 4) (hrun : s.run = true) :
    (confirmExpiry i s).fault.counters[10] = saturate countTop s.fault.counters[10] := by
  rw [confirmExpiry_eq]
  exact cellFails_counter .tripped _ hrun

/-- A fault that evacuates gives the cause, where none is in force (R49, R51). -/
theorem recordFault_evacuates {k : FaultKind} (d : FaultId) (hrun : s.run = true) (hesc : escalation s k = .evacuate)
    (hnone : s.level.cause = none) : (recordFault k d s).level.cause = some (localRecord .fault 4 s) := by
  have hcounted : escalation (countFault k d s) k = .evacuate := hesc
  rw [recordFault, hrun]
  simp only [hcounted, Bool.not_true, Bool.false_eq_true, if_false, postFault_level]
  rw [localCause_of_none (s := countFault k d s) hnone]
  rfl

theorem confirmExpiry_cause (i : Fin 4) (hrun : s.run = true) (hesc : escalation s .isolatorNoConfirm = .evacuate)
    (hnone : s.level.cause = none) : (confirmExpiry i s).level.cause = some (localRecord .fault 4 s)
      ∧ (confirmExpiry i s).level.level = s.level.level ∧ (confirmExpiry i s).run = true := by
  have hw := confirmExpiry_works i s
  refine ⟨?_, (hw.level (by decide)).1, hw.run.trans hrun⟩
  generalize hg : (fun c : Cell => { c with state := .unconfirmed, confirm := .expired }) = g
  have goes := cellGoes_sameBut i .tripped .unconfirmed g s
  have hbefore : (cellGoes i .tripped .unconfirmed g s).level = s.level := addRecord_level _ _ _ _
  have hcause := recordFault_evacuates (s := cellGoes i .tripped .unconfirmed g s) (k := .isolatorNoConfirm)
    (.own unitTrip (word i.val) 0) (goes.run.trans hrun) (by rw [escalation, goes.effective]; exact hesc) (by rw [hbefore]; exact hnone)
  have hrecord : localRecord .fault 4 (cellGoes i .tripped .unconfirmed g s) = localRecord .fault 4 s := by
    have heff : (cellGoes i .tripped .unconfirmed g s).effective = s.effective := goes.effective
    have htime : (cellGoes i .tripped .unconfirmed g s).time = s.time := goes.time
    rw [localRecord, localRecord, hbefore, heff, htime]
  rw [hrecord] at hcause
  rw [confirmExpiry_eq, hg]
  exact hcause

end

/-- Settles O31: the line's sample and the cell's state, and the expiry of the cell's timer. -/
theorem cellConfirmation : Obligations.CellConfirmation := by
  refine ⟨fun n pin s hrun => ?_, ?_, ?_⟩
  · have hexec : exec (.confirmInChange n pin) s = .next (lineEvent n pin s) := rfl
    rw [lineEvent_setup hrun] at hexec
    exact ⟨_, hexec, rfl⟩
  · intro n pin i s hrun hfn hchange
    have hexec : exec (.confirmInChange n pin) s = .next (lineEvent n pin s) := rfl
    rw [lineEvent_confirm hrun hfn hchange] at hexec
    refine ⟨_, hexec, ?_, event_drive _ _, event_sameBut (confirmLine_within n i _).1⟩
    have hvalue : ((beginEvent ({ s with pins := s.pins.set n pin } : State)).pins[n]
        ^^ (beginEvent ({ s with pins := s.pins.set n pin } : State)).effective.lines[n].invert)
        = (pin ^^ s.effective.lines[n].invert) := congrArg (· ^^ _) ((set_get s.pins n n pin).trans (if_pos rfl))
    have same := event_sameBut_acted (confirmLine n i) { s with pins := s.pins.set n pin }
    rw [confirmLine_eq hvalue] at same
    generalize (pin ^^ s.effective.lines[n].invert) = value at same ⊢
    generalize event (confirmLine n i) { s with pins := s.pins.set n pin } = t at same ⊢
    refine ⟨?_, fun hreq hstate hv => ?_, fun hreq hstate hv => ?_, fun hreq hstate hv => ?_, fun hidle hoff => ?_, fun hreq hactive => ?_⟩
    · rw [same.sampled, (reevaluate_alike _ _).sampled, confirmArrives_sampled]
      rfl
    · subst hv
      exact reevaluated_comes same hreq (.inl hstate)
    · subst hv
      exact (reevaluated_comes same hreq (.inr hstate)).1
    · subst hv
      have lost := reevaluated_lost (by exact hrun) same (by exact hreq) (by exact hstate)
      exact ⟨lost.1, lost.2⟩
    · have stays := reevaluated_stays same (.inr hidle)
      simp only [stays.cells]
      exact (reevaluate_left _ _ i).2 hoff
    · refine (reevaluated_cell (reevaluated_stays same (.inl hreq)) fun hready => ?_).1
      have hready : s.cells[i].state = .ready := hready
      rw [tripActive, hready] at hactive
      exact absurd hactive (by decide)
  · intro i s hrun hstate hdue
    have hexec : exec (.confirmTimerExpiry i) s = .next (expiryEvent (confirmDue s i) (confirmExpiry i) s) := rfl
    have hconfirm : confirmDue s i = true := by rw [confirmDue, hdue, hstate]; rfl
    rw [expiryEvent_due hrun hconfirm] at hexec
    have same := event_sameBut_acted (confirmExpiry i) s
    have hcells := same.cells.trans (confirmExpiry_cells i (beginEvent s))
    refine ⟨_, hexec, ?_, fun j hj => ?_, ?_, fun hnone hdefault => ?_, event_sameBut (confirmExpiry_within i _).1⟩
    · simp only [hcells]
      exact modifyAt_self _ _ _
    · simp only [hcells]
      exact modifyAt_other _ _ hj
    · exact (same.counter_eq (k := 10) (by decide) (by decide)).trans (confirmExpiry_counter (s := beginEvent s) i hrun)
    · have hesc : escalation (beginEvent s) .isolatorNoConfirm = .evacuate := by
        have hindex : (beginEvent s).effective.faults[FaultKind.index .isolatorNoConfirm].escalation = .default := hdefault
        rw [escalation, if_neg (by decide), hindex]
        rfl
      obtain ⟨hcause, hlevel, hacted⟩ := confirmExpiry_cause (s := beginEvent s) i hrun hesc hnone
      by_cases hl : s.level.level = .evacuate
      · obtain ⟨entered, -⟩ := event_evacuating (f := confirmExpiry i) ⟨hacted, hlevel.trans hl, hcause, rfl, rfl⟩
        exact ⟨entered.level, _, entered.cause, rfl, rfl⟩
      · obtain ⟨entered, -⟩ := event_entry (f := confirmExpiry i) hrun hacted hcause (fun h => hl (hlevel.symm.trans h)) hlevel
        exact ⟨entered.level, _, entered.cause, rfl, rfl⟩

end Sys2Proof.Machine
end

section
/-! PROOFS. What an event record hands on, what it leaves where the ring is full, and how a report word enters the own-write queue
(R70, R71, R176). -/

set_option Elab.async false

namespace Sys2Proof.Machine

open Sys2Proof.Config

section
variable {s s0 t u : State} {o : Nat}

/-! ## A record -/

/-- A record in a ring that is neither full nor empty hands on its four words and the produce index (R176). -/
theorem addRecord_room (kind subject : Nat) (info : Word) (hrun : s.run = true) (hfull : occupancy s.fault ≠ 64)
    (hempty : occupancy s.fault ≠ 0) : addRecord kind subject info s = { s with
      fault := { s.fault with produce := s.fault.produce + 1 }
      path := { s.path with posts := s.path.posts ++ (recordWords s kind subject info ++ [produceWrite s]).map .write } } := by
  rw [addRecord, if_neg (by rw [hrun]; decide), if_neg (show ¬occupancy s.fault = ringRecords from hfull)]
  dsimp only
  rw [if_neg hempty, List.append_nil]
  rfl

/-- A record at a full ring is one EVENT_LOST, and nothing of it is handed on (R176). -/
theorem addRecord_full (kind subject : Nat) (info : Word) (hrun : s.run = true) (hfull : occupancy s.fault = 64) :
    addRecord kind subject info s = postFault .eventLost (countFault .eventLost (.own 10 (word kind) 0) s) := by
  rw [addRecord, if_neg (by rw [hrun]; decide), if_pos (show occupancy s.fault = ringRecords from hfull)]
  rfl

theorem countFault_log_empty {k : FaultKind} (d : FaultId) (hlog : s.fault.log = none)
    (hon : s.effective.faults[FaultKind.index k].logOff = false) :
    (countFault k d s).fault.log = some { kind := k, ident := d, time := s.time, further := 0 } := by
  unfold countFault
  simp only [hon, hlog, Bool.false_eq_true, if_false]

/-! ## A report word that enters -/

/-- An own-write that may coalesce stands in the queue after it has entered. -/
theorem enterQueue_stands {w : OwnWrite} (hkind : w.kind = .coalescing) :
    ∃ e ∈ (enterQueue w s).path.queue, e.addr = w.addr ∧ e.data = w.data := by
  unfold enterQueue
  split
  · rename_i hq
    rw [queued, List.any_eq_true] at hq
    obtain ⟨e, he, ha⟩ := hq
    simp only [hkind]
    have ha : e.addr = w.addr := eq_of_beq ha
    exact ⟨{ e with data := w.data }, List.mem_map.mpr ⟨e, he, if_pos ha⟩, ha, rfl⟩
  · rcases Nat.lt_or_ge s.path.queue.length 32 with hroom | hfull
    · rw [enterNew_room w hroom]
      exact ⟨w, List.mem_append_right _ List.mem_cons_self, rfl, rfl⟩
    · obtain ⟨e, rest, hq⟩ : ∃ e rest, s.path.queue = e :: rest := by
        cases hs : s.path.queue with
        | nil => rw [hs] at hfull; exact absurd hfull (by decide)
        | cons e rest => exact ⟨e, rest, rfl⟩
      rw [enterNew_full w hfull, (recordFault_within _ _ _).2.2.1, (stallEnter_leaves hq w).2.1]
      exact ⟨w, List.mem_append_right _ List.mem_cons_self, rfl, rfl⟩

theorem enterMirror_stands (o : Nat) (s : State) :
    ∃ w ∈ (enterMirror o s).path.queue, w.addr = reportAddr s o ∧ w.data = mirror s o :=
  enterQueue_stands (w := mirrorWrite s o) rfl

theorem enterMirror_lookup (o : Nat) (s : State) : (enterMirror o s).path.shown.lookup o = some (mirror s o) := by
  rw [enterMirror_shown, List.lookup_cons_self]

theorem enterPost_changed (s0 s : State) (o : Nat) : enterPost s0 (.changed o) s
    = if shownValue s0 s o ≠ mirror s o ∨ queued s.path.queue (reportAddr s o) = true then enterMirror o s else s := by
  simp only [enterPost, Bool.or_eq_true, bne_iff_ne]

theorem enterPost_always (s0 s : State) (o : Nat) : enterPost s0 (.always o) s
    = if s.path.shown.lookup o = some (mirror s o) then s else enterMirror o s := rfl

theorem shownValue_of_none (h : s.path.shown.lookup o = none) : shownValue s0 s o = mirror s0 o := by
  rw [shownValue, h]
  rfl

theorem shownValue_of_some {v : Word} (h : s.path.shown.lookup o = some v) : shownValue s0 s o = v := by
  rw [shownValue, h]
  rfl

/-- A word that the event has not queued yet. -/
theorem enterPost_first (h : s.path.shown.lookup o = none) :
    (mirror s0 o ≠ mirror s o ∨ queued s.path.queue (reportAddr s o) = true → enterPost s0 (.changed o) s = enterMirror o s)
      ∧ (mirror s0 o = mirror s o → queued s.path.queue (reportAddr s o) = false → enterPost s0 (.changed o) s = s)
      ∧ enterPost s0 (.always o) s = enterMirror o s := by
  rw [enterPost_changed, enterPost_always, shownValue_of_none h, h]
  refine ⟨fun h => if_pos h, fun hsame hfree => if_neg (not_or.mpr ⟨not_not_intro hsame, by rw [hfree]; decide⟩), if_neg ?_⟩
  exact fun hn => absurd hn.symm (Option.some_ne_none _)

/-- A word that the event has queued already. -/
theorem enterPost_again {v : Word} (h : s.path.shown.lookup o = some v) {p : Post} (hp : p ∈ [Post.changed o, .always o]) :
    (v ≠ mirror s o → enterPost s0 p s = enterMirror o s)
      ∧ (v = mirror s o → queued s.path.queue (reportAddr s o) = false → enterPost s0 p s = s) := by
  have hcases : p = .changed o ∨ p = .always o := by simpa using hp
  rcases hcases with rfl | rfl
  · rw [enterPost_changed, shownValue_of_some h]
    exact ⟨fun hn => if_pos (.inl hn), fun hv hfree => if_neg (not_or.mpr ⟨not_not_intro hv, by rw [hfree]; decide⟩)⟩
  · rw [enterPost_always, h]
    exact ⟨fun hn => if_neg fun hv => hn (Option.some.inj hv), fun hv _ => if_pos (congrArg some hv)⟩

/-- What the event keeps in mind of a changed word. -/
theorem enterPost_kept (h : mirror s0 o ≠ mirror s o) : (enterPost s0 (.changed o) s).path.shown.lookup o = some (mirror s o) := by
  rw [enterPost_changed]
  split
  · exact enterMirror_lookup o s
  · rename_i hn
    have hshown := not_not.mp (not_or.mp hn).1
    cases hl : s.path.shown.lookup o with
    | none => exact absurd ((shownValue_of_none hl).symm.trans hshown) h
    | some v => rw [← hshown, shownValue_of_some hl]

theorem enterPost_always_kept : (enterPost s0 (.always o) s).path.shown.lookup o = some (mirror s o) := by
  rw [enterPost_always]
  split
  · assumption
  · exact enterMirror_lookup o s

/-! ## The end of an event with a record -/

variable {q words : List OwnWrite} {w : OwnWrite} {outcome : Option Word}

/-- The state that holds this follow-up value. -/
def holding (d : Word) (s : State) : State := { s with path := { s.path with followUp := some d } }

/-- A produce index that meets its entry is held as the follow-up value (R71). -/
theorem enterQueue_trailing (hq : queued s.path.queue w.addr = true) (hkind : w.kind = .trailing) :
    enterQueue w s = holding w.data s := by
  rw [enterQueue, if_pos hq]
  simp only [hkind]
  rfl

/-- A record whose produce index is queued leaves the new index as the follow-up value (R71, R176). -/
theorem settles_followUp (hcalm : Calm s0 s q) (hnew : ((q ++ words).map (·.addr)).Nodup) (hroom : q.length + words.length ≤ 32)
    (hqueued : queued q (eventsAddr s 0) = true) (haddr : w.addr = eventsAddr s 0) (hkind : w.kind = .trailing) :
    SettlesIn (words.length + 1) s0 (lined q [] ((words ++ [w]).map .write) [] outcome s)
        (lined (q ++ words) [] [] [] outcome (holding w.data s))
      ∧ Calm s0 (holding w.data s) (q ++ words) := by
  have written := settles_writes (posts := [.write w]) (reports := []) (shown := []) (outcome := outcome) hcalm hnew hroom
  have held : queued (lined (q ++ words) [] [] [] outcome s).path.queue w.addr = true := haddr ▸ queued_append hqueued
  have last : settleStep s0 (lined (q ++ words) [] [.write w] [] outcome s)
      = some (enterQueue w (lined (q ++ words) [] [] [] outcome s)) := by
    rw [hcalm.append.atRest.step]
    rfl
  rw [enterQueue_trailing held hkind] at last
  rw [List.map_append]
  exact ⟨written.trans (.of_step last), settleUnits_withPath hcalm.units rfl, fun _ => queued_append hqueued⟩

end
end Sys2Proof.Machine
end

section
/-! PROOFS. The own-writes of an event that adds one record: the record's words, the produce index, the changed report words and the
outcome word (R71, R123, R164, R176). -/

set_option Elab.async false

namespace Sys2Proof.Machine

open Sys2Proof.Config

section
variable {s s0 t u : State} {o : Nat}

/-! ## The changed report words of a list -/

theorem enteredWords_filter {done words : List Nat} (hn : words.Nodup) (hd : ∀ o ∈ words, o ∉ done) :
    enteredWords s0 s done words = done ++ changedWords s0 s words := by
  induction words generalizing done with
  | nil => exact (List.append_nil _).symm
  | cons o words ih =>
    obtain ⟨ho, hrest⟩ := List.nodup_cons.mp hn
    rw [enteredWords_cons]
    by_cases hsame : mirror s0 o = mirror s o
    · rw [show enteredWords s0 s done [o] = done from if_pos (.inr hsame), ih hrest fun k hk => hd k (List.mem_cons_of_mem _ hk)]
      rw [changedWords, changedWords, List.filter_cons_of_neg (by simpa using hsame)]
    · rw [show enteredWords s0 s done [o] = done ++ [o] from if_neg (not_or.mpr ⟨hd o List.mem_cons_self, hsame⟩), ih hrest]
      · rw [changedWords, changedWords, List.filter_cons_of_pos (by simpa using hsame), List.append_assoc]
        rfl
      · intro k hk hm
        rcases List.mem_append.mp hm with hm | hm
        · exact hd k (List.mem_cons_of_mem _ hk) hm
        · exact ho (List.mem_singleton.mp hm ▸ hk)

/-! ## APPLY_ADJUSTMENT 0xFF -/

/-- The state in which the periods have been given to their timers. -/
def periodsApplied (s : State) : State := { s with
  rate := PeriodTimer.apply s.staged.rateWindow s.rate
  level := { s.level with repeatTimer := PeriodTimer.apply s.staged.repeatPeriod s.level.repeatTimer }
  fault := { s.fault with patrol := PeriodTimer.apply s.staged.patrol s.fault.patrol } }

/-- The state of one record more, with what it hands on. -/
def recordHanded (P : List OwnWrite) (outcome : Option Word) (s : State) : State := { s with
  fault := { s.fault with produce := s.fault.produce + 1 }
  path := { s.path with posts := P.map .write, outcome := outcome } }

/-- The words of the record of applied periods, and its produce index. -/
def adjustmentWrites (s : State) : List OwnWrite := recordWords s 0x03 0xFF 0 ++ [produceWrite s]

theorem doneAction_adjust {w : Word} (hrun : s.run = true) (hfull : occupancy s.fault ≠ 64) (hempty : occupancy s.fault ≠ 0) :
    doneAction w adjustPeriods (begun w s)
      = recordHanded (adjustmentWrites s) (some (outcomeWord w outDone 0)) (periodsApplied (begun w s)) := by
  have hrecord : adjustPeriods (begun w s) = addRecord recAdjustmentApplied 0xFF (detail []) (periodsApplied (begun w s)) := rfl
  rw [doneAction, hrecord, addRecord_room (s := periodsApplied (begun w s)) _ _ _ hrun hfull hempty]
  rfl

theorem adjusted_calm {w : Word} (hrun : s.run = true) (hset : Settled s) {P : List OwnWrite} {out : Option Word} :
    Calm (begun w s) (recordHanded P out (periodsApplied (begun w s))) s.path.queue where
  units := by
    obtain ⟨hlevel, hmarked, hforget, hmuster, -, hbuild⟩ := settleUnits_none (s := begun w s) hrun (hset.requested w).rest
    exact settleUnits_rest hlevel hmarked hforget hmuster rfl hbuild
  held h := hset.held h

section
variable {w : Word}

/-- The state that an accepted APPLY_ADJUSTMENT 0xFF hands on. -/
def adjusted (w : Word) (s : State) : State :=
  recordHanded (adjustmentWrites s) (some (outcomeWord w outDone 0)) (periodsApplied (begun w s))

theorem levelDue_withPath (p : PathUnit) (s : State) : levelDue { s with path := p } = levelDue s := rfl

theorem levelDue_lined {q : List OwnWrite} {shown : List (Nat × Word)} {posts reports : List Post} {out : Option Word} (s : State) :
    levelDue (lined q shown posts reports out s) = levelDue s := rfl

theorem levelDue_holding (d : Word) (s : State) : levelDue (holding d s) = levelDue s := rfl

theorem settingAddr_holding (d : Word) (s : State) (n : Nat) : settingAddr (holding d s) n = settingAddr s n := rfl

theorem outcomeWrite_holding (d : Word) (s : State) : outcomeWrite (holding d s) = outcomeWrite s := rfl

theorem holding_followUp (d : Word) (s : State) : (holding d s).path.followUp = some d := rfl

/-- The queue and the follow-up value of an event that ends with these own-writes queued. -/
theorem driven_lined {q : List OwnWrite} {shown : List (Nat × Word)} {posts reports : List Post} {out : Option Word} (s : State) :
    (driveLines (lined q shown posts reports out s)).path.queue = q
      ∧ (driveLines (lined q shown posts reports out s)).path.followUp = s.path.followUp := ⟨rfl, rfl⟩

theorem adjusted_not_due (hset : Settled s) : levelDue (adjusted w s) = false := hset.not_due

theorem adjusted_produce (w : Word) (s : State) : (adjusted w s).fault.produce = s.fault.produce + 1 := rfl

theorem adjusted_path (w : Word) (s : State) : (adjusted w s).path.queue = s.path.queue ∧ (adjusted w s).path.followUp = s.path.followUp
    ∧ (adjusted w s).path.posts = (adjustmentWrites s).map .write ∧ (adjusted w s).path.reports = [] ∧ (adjusted w s).path.shown = []
    ∧ (adjusted w s).path.outcome = some (outcomeWord w outDone 0) ∧ outcomeWrite (adjusted w s) = outcomeWrite s
    ∧ settingAddr (adjusted w s) 0xF04 = settingAddr s 0xF04 ∧ eventsAddr (adjusted w s) 0 = eventsAddr s 0 :=
  ⟨rfl, rfl, rfl, rfl, rfl, rfl, rfl, rfl, rfl⟩

theorem adjusted_lined (w : Word) (s : State) :
    lined s.path.queue [] ((adjustmentWrites s).map .write) [] (some (outcomeWord w outDone 0)) (adjusted w s) = adjusted w s := rfl

theorem adjustmentWrites_length (s : State) : (adjustmentWrites s).length = 5 := rfl

theorem Fits.settle_self {L : List Addr} (h : Fits L s s.path) (hunits : settleUnits s0 s = none) (n : Nat) :
    ∃ p, Machine.settle n s0 s = { s with path := p } := by
  obtain ⟨p, he, -⟩ := Fits.settle hunits n h
  exact ⟨p, he⟩

theorem doneEvent_adjust (hrun : s.run = true) (hfull : occupancy s.fault ≠ 64) (hempty : occupancy s.fault ≠ 0)
    (hsettle : settle settleBound (begun w s) (adjusted w s) = t) (ht : levelDue t = false) : doneEvent w adjustPeriods s = driveLines t :=
  event_of_settle (s := requested w s) hrun ((congrArg (settle settleBound (begun w s)) (doneAction_adjust hrun hfull hempty)).trans hsettle) ht

/-- However its own-writes enter, an accepted APPLY_ADJUSTMENT 0xFF that finds room counts one record (R176). -/
theorem doneEvent_adjust_produce (hrun : s.run = true) (hset : Settled s) (hfull : occupancy s.fault ≠ 64)
    (hempty : occupancy s.fault ≠ 0) (hnew : (s.path.queue.map (·.addr)).Nodup) (hroom : s.path.queue.length + 6 ≤ 32) :
    (doneEvent w adjustPeriods s).fault.produce = s.fault.produce + 1 := by
  have fits : Fits (s.path.queue.map (·.addr) ++ (adjustmentWrites s).map (·.addr) ++ [settingAddr s 0xF04]) (adjusted w s)
      (adjusted w s).path := by
    refine ⟨?_, hnew, fun w hw => ?_, fun x hx => ?_, fun x hx => (by cases hx), fun _ => ?_, fun h => hset.held h, rfl⟩
    · rw [List.length_append, List.length_append, List.length_map, List.length_map, adjustmentWrites_length, List.length_singleton]
      exact hroom
    · exact List.mem_append_left _ (List.mem_append_left _ (List.mem_map.mpr ⟨w, hw, rfl⟩))
    · obtain ⟨v, hv, rfl⟩ := List.mem_map.mp hx
      refine ⟨List.mem_append_left _ (List.mem_append_right _ (List.mem_map.mpr ⟨v, hv, rfl⟩)), fun hk => ?_⟩
      rcases List.mem_append.mp hv with hv | hv
      · simp only [recordWords, List.mem_cons, List.not_mem_nil, or_false] at hv
        rcases hv with rfl | rfl | rfl | rfl
        · cases hk
        · cases hk
        · cases hk
        · cases hk
      · rw [List.mem_singleton.mp hv]
        rfl
    · exact List.mem_append_right _ (List.mem_singleton.mpr rfl)
  obtain ⟨p, he⟩ := fits.settle_self (adjusted_calm hrun hset).units settleBound
  rw [doneEvent_adjust hrun hfull hempty he ((levelDue_withPath p _).trans (adjusted_not_due hset))]
  exact adjusted_produce w s

/-- The queue where the produce index finds room at a new address. -/
theorem doneEvent_adjust_room (hrun : s.run = true) (hset : Settled s) (hfull : occupancy s.fault ≠ 64) (hempty : occupancy s.fault ≠ 0)
    (hnew : ((s.path.queue ++ adjustmentWrites s ++ [outcomeWrite s (outcomeWord w outDone 0)]).map (·.addr)).Nodup)
    (hroom : s.path.queue.length + 6 ≤ 32) :
    (doneEvent w adjustPeriods s).path.queue = s.path.queue ++ adjustmentWrites s ++ [outcomeWrite s (outcomeWord w outDone 0)]
      ∧ (doneEvent w adjustPeriods s).path.followUp = s.path.followUp := by
  rw [List.map_append, List.nodup_append] at hnew
  obtain ⟨hwrites, -, hapart⟩ := hnew
  obtain ⟨hqueue, hfollow, hposts, hreports, hshown, hout, houtcome, hsetting, -⟩ := adjusted_path w s
  obtain ⟨k, hk, hsettles, hended⟩ := settles_with_room (s0 := begun w s) (s := adjusted w s) (P := adjustmentWrites s) (R := [])
    (words := []) (hqueue ▸ adjusted_calm hrun hset) hposts hreports hshown (fun o ho => (by cases ho)) (by
      rw [List.map_nil, List.append_nil, hqueue]
      exact hwrites) (fun _ hm => by
      rw [List.map_nil, List.append_nil, hqueue, hsetting] at hm
      exact hapart _ hm _ (List.mem_singleton.mpr rfl) rfl) (by
      rw [List.length_append, hqueue, hout, adjustmentWrites_length]
      exact hroom)
  rw [hqueue, hout, houtcome] at hsettles hended
  rw [adjustmentWrites_length] at hk
  rw [doneEvent_adjust hrun hfull hempty (hsettles.settled (by simp at hk; omega) hended)
    ((levelDue_lined _).trans (adjusted_not_due hset)), (driven_lined _).1, (driven_lined _).2]
  exact ⟨congrArg (· ++ _) (List.append_nil _), hfollow⟩

/-- The queue where the produce index has an entry. -/
theorem doneEvent_adjust_held (hrun : s.run = true) (hset : Settled s) (hfull : occupancy s.fault ≠ 64) (hempty : occupancy s.fault ≠ 0)
    (hnew : ((s.path.queue ++ recordWords s 0x03 0xFF 0 ++ [outcomeWrite s (outcomeWord w outDone 0)]).map (·.addr)).Nodup)
    (hroom : s.path.queue.length + 6 ≤ 32) (hqueued : queued s.path.queue (eventsAddr s 0) = true) :
    (doneEvent w adjustPeriods s).path.queue = s.path.queue ++ recordWords s 0x03 0xFF 0 ++ [outcomeWrite s (outcomeWord w outDone 0)]
      ∧ (doneEvent w adjustPeriods s).path.followUp = some (produceWrite s).data := by
  rw [List.map_append, List.nodup_append] at hnew
  obtain ⟨hwrites, -, hapart⟩ := hnew
  have hlength : (recordWords s 0x03 0xFF 0).length = 4 := rfl
  obtain ⟨-, -, -, -, -, -, houtcome, hsetting, hevents⟩ := adjusted_path w s
  obtain ⟨first, hcalm⟩ := settles_followUp (s0 := begun w s) (s := adjusted w s) (words := recordWords s 0x03 0xFF 0) (w := produceWrite s)
    (outcome := some (outcomeWord w outDone 0)) (adjusted_calm hrun hset) hwrites (by rw [hlength]; omega) (by rw [hevents]; exact hqueued)
    hevents.symm rfl
  obtain ⟨k, hk, last⟩ := settles_last (shown := []) (outcome := some (outcomeWord w outDone 0)) hcalm
    (fun _ hm => by
      rw [settingAddr_holding, hsetting] at hm
      exact hapart _ hm _ (List.mem_singleton.mpr rfl) rfl)
    (fun _ => by rw [List.length_append, hlength]; omega)
  rw [outcomeWrite_holding, houtcome] at last
  have whole := first.trans last
  have start : lined s.path.queue [] ((recordWords s 0x03 0xFF 0 ++ [produceWrite s]).map .write) [] (some (outcomeWord w outDone 0))
      (adjusted w s) = adjusted w s := adjusted_lined w s
  rw [start] at whole
  rw [doneEvent_adjust hrun hfull hempty (whole.settled (by rw [hlength]; omega) (hcalm.append (p := [outcomeWrite s (outcomeWord w outDone 0)])).ended)
    ((levelDue_lined _).trans ((levelDue_holding _ _).trans (adjusted_not_due hset))), (driven_lined _).1, (driven_lined _).2,
    holding_followUp]
  exact ⟨rfl, rfl⟩

end

/-! ## CALL_CLOSE -/

section
variable {call : CallId} {p : Fin 8} {c : Call}

/-- The words of the record of a closed call, and its produce index. -/
def closedWrites (reason : Nat) (c : Call) (s : State) : List OwnWrite :=
  recordWords s 0x2A c.id.toNat (detail [(2, reason), (2, Priority.code c.priority)]) ++ [produceWrite s]

theorem mirror_begun (s : State) (o : Nat) : mirror (beginEvent s) o = mirror s o := rfl

theorem mirror_driven {q : List OwnWrite} {shown : List (Nat × Word)} {posts reports : List Post} {out : Option Word} (s : State)
    (o : Nat) : mirror (driveLines (lined q shown posts reports out s)) o = mirror s o := rfl

/-- The state that a CALL_CLOSE of the call at a position hands on. -/
def callClosed (p : Fin 8) (c : Call) (s : State) : State :=
  recordHanded (closedWrites 1 c s) none (freeCall p c.id (handed (.callClose c.id) s))

theorem closeCall_handed (hrun : s.run = true) (hc : s.call.table[p] = some c) (hfull : occupancy s.fault ≠ 64)
    (hempty : occupancy s.fault ≠ 0) : closeCall p 1 (handed (.callClose c.id) s) = callClosed p c s := by
  obtain ⟨u, hu⟩ := handed_eq (.callClose c.id) s
  unfold callClosed
  rw [hu, closeCall]
  have hc' : ({ beginEvent s with frame := u } : State).call.table[p] = some c := hc
  simp only [hc']
  rw [addRecord_room (s := freeCall p c.id { beginEvent s with frame := u }) _ _ _ hrun hfull hempty]
  rfl

theorem callClosed_calm (hrun : s.run = true) (hset : Settled s) : Calm (beginEvent s) (callClosed p c s) s.path.queue where
  units := by
    obtain ⟨u, hu⟩ := handed_eq (.callClose c.id) s
    unfold callClosed
    rw [hu]
    exact UnitsAlike.rest (s := beginEvent s) (a0 := beginEvent s) ⟨rfl, rfl, rfl, rfl, rfl⟩ rfl hrun hset.rest rfl (hset.not_built hrun)
  held h := by
    obtain ⟨u, hu⟩ := handed_eq (.callClose c.id) s
    unfold callClosed at h ⊢
    rw [hu] at h ⊢
    exact hset.held h

theorem callClosed_path (p : Fin 8) (c : Call) (s : State) : (callClosed p c s).path.queue = s.path.queue
    ∧ (callClosed p c s).path.posts = (closedWrites 1 c s).map .write
    ∧ (callClosed p c s).path.reports = (callWords p).map .changed ∧ (callClosed p c s).path.shown = []
    ∧ (callClosed p c s).path.outcome = none ∧ reportAddr (callClosed p c s) = reportAddr s
    ∧ (callClosed p c s).fault.produce = s.fault.produce + 1 ∧ levelDue (callClosed p c s) = levelDue s := by
  obtain ⟨u, hu⟩ := handed_eq (.callClose c.id) s
  unfold callClosed
  rw [hu]
  exact ⟨rfl, rfl, rfl, rfl, rfl, rfl, rfl, rfl⟩

theorem closedWrites_length (reason : Nat) (c : Call) (s : State) : (closedWrites reason c s).length = 5 := rfl

theorem callWords_length (p : Fin 8) : (callWords p).length = 5 := rfl

theorem changedWords_length_le (s0 s : State) (words : List Nat) : (changedWords s0 s words).length ≤ words.length :=
  List.length_filter_le _ _

/-- A CALL_CLOSE that finds room queues its record, the produce index and the changed words of its call. -/
theorem callClose_settles (hrun : s.run = true) (hset : Settled s)
    (hnew : ((s.path.queue ++ closedWrites 1 c s).map (·.addr) ++ (callWords p).map (reportAddr s)).Nodup)
    (hroom : s.path.queue.length + 10 ≤ 32) :
    settle settleBound (beginEvent s) (callClosed p c s) = lined (s.path.queue ++ closedWrites 1 c s
      ++ (changedWords (beginEvent s) (callClosed p c s) (callWords p)).map (mirrorWrite (callClosed p c s))) [] [] [] none
        (callClosed p c s) := by
  obtain ⟨hqueue, hposts, hreports, hshown, hout, haddr, -, -⟩ := callClosed_path p c s
  have hcalm := callClosed_calm (p := p) (c := c) hrun hset
  have hchanged := changedWords_length_le (beginEvent s) (callClosed p c s) (callWords p)
  have hentered := enteredWords_filter (s0 := beginEvent s) (s := callClosed p c s) (done := [])
    (List.Nodup.of_map _ (List.nodup_append.mp hnew).2.1) fun o _ => List.not_mem_nil
  obtain ⟨k, hk, hsettles, hended⟩ := settles_with_room (s0 := beginEvent s) (s := callClosed p c s) (P := closedWrites 1 c s)
    (R := callWords p) (words := callWords p) (by rw [hqueue]; exact hcalm) hposts hreports hshown (fun o ho => ho)
    (by rw [hqueue, haddr]; exact hnew) (fun h => by rw [hout] at h; cases h) (by
      rw [hqueue, hout, List.length_append, closedWrites_length]
      rw [callWords_length] at hchanged
      simp only [Option.toList_none, List.length_nil]
      omega)
  rw [hqueue, hout, hentered, Option.map_none, Option.toList_none, List.append_nil, List.nil_append] at hsettles hended
  rw [closedWrites_length, callWords_length] at hk
  exact hsettles.settled (by omega) hended

end

end

/-- Settles O15: the own-writes of a record that finds room, a lost record, and how a report word enters. -/
theorem eventRecordsAndReportWordsQueued : Obligations.EventRecordsAndReportWordsQueued := by
  refine ⟨?_, ?_, ?_, ?_⟩
  · intro tag s hrun hlevel hset hempty hfull outcome words index hnew hroom
    have hexec : exec (.applyAdjustment tag 0xFF) s = .next (serveWrite s.strap (requestAccess s 6 tag 0xFF) s) := rfl
    have hjudge := (judge_adjust tag 0xFF (s := begun (requestWord 6 tag 0xFF) s) hrun s.strap).trans
      (requestAdjust_periods (s := begun (requestWord 6 tag 0xFF) s) hlevel)
    rw [serveWrite_request, event_of_done hjudge] at hexec
    have hqueue : (s.path.queue.map (·.addr)).Nodup := by
      rw [List.append_assoc, List.map_append] at hnew
      exact (List.nodup_append.mp hnew).1
    refine ⟨_, hexec, doneEvent_adjust_produce hrun hset hfull hempty hqueue hroom, fun hall hfree => ?_, fun hqueued => ?_⟩
    · have hwrites : s.path.queue ++ words ++ [index, outcome]
          = s.path.queue ++ adjustmentWrites s ++ [outcomeWrite s (outcomeWord (requestWord 6 tag 0xFF) outDone 0)] := by
        rw [adjustmentWrites]
        simp only [List.append_assoc, List.cons_append, List.nil_append]
        rfl
      rw [hwrites] at hall ⊢
      obtain ⟨hq, hf⟩ := doneEvent_adjust_room (w := requestWord 6 tag 0xFF) hrun hset hfull hempty hall hroom
      exact ⟨hq, hf.trans hfree⟩
    · exact doneEvent_adjust_held (w := requestWord 6 tag 0xFF) hrun hset hfull hempty hnew hroom hqueued
  · intro call p c s hrun hcall hp hc hset hfree hempty hfull record hnew hroom
    obtain ⟨d, hd, hid⟩ := callPosition_some hp
    obtain rfl : c = d := Option.some.inj (hc.symm.trans hd)
    subst hid
    have hexec : exec (.callClose c.id) s = .next (frameEvent (.callClose c.id) s) := rfl
    rw [frameEvent_defined hrun (by simpa [Frame.defined] using hcall)] at hexec
    obtain ⟨-, -, -, -, -, haddr, hproduce, hdue⟩ := callClosed_path p c s
    have hacted : takeFrame (.callClose c.id) (clearHandover (.callClose c.id) (beginEvent s)) = callClosed p c s := by
      rw [clearHandover_beginEvent, ← closeCall_handed hrun hc hfull hempty]
      obtain ⟨u, hu⟩ := handed_eq (.callClose c.id) s
      have hp' : callPosition (handed (.callClose c.id) s) c.id = some p := by rw [hu]; exact hp
      show callClose c.id (handed (.callClose c.id) s) = _
      rw [callClose, hp']
    have hended : frameTaken (.callClose c.id) s = _ := event_of_settle hrun
      ((congrArg (settle settleBound (beginEvent s)) hacted).trans (callClose_settles hrun hset hnew hroom))
      ((levelDue_lined _).trans (hdue.trans hset.not_due))
    refine ⟨_, hexec.trans (congrArg _ hended), hproduce, (driven_lined _).1.trans ?_⟩
    rw [changedWords]
    simp only [mirror_driven, mirror_begun]
    refine congrArg (_ ++ ·) (List.map_congr_left fun o _ => ?_)
    rw [mirrorWrite, haddr]
  · intro kind subject info s hrun hfull t
    have ht : t = postFault .eventLost (countFault .eventLost (.own 10 (word kind) 0) s) := addRecord_full _ _ _ hrun hfull
    rw [ht]
    exact ⟨rfl, modifyAt_self s.fault.counters (FaultKind.index .eventLost) (saturate countTop),
      fun hlog hon => countFault_log_empty _ hlog hon, rfl, _, rfl⟩
  · intro o s0 s
    refine ⟨fun h => ?_, fun v h => ?_, enterPost_kept, enterPost_always_kept⟩
    · obtain ⟨hchanged, hsame, halways⟩ := enterPost_first (s0 := s0) h
      refine ⟨fun hc => ?_, hsame, ?_⟩
      · rw [hchanged hc]
        exact enterMirror_stands o s
      · rw [halways]
        exact enterMirror_stands o s
    · refine ⟨fun hn p hp => ?_, fun hv hfree p hp => (enterPost_again h hp).2 hv hfree⟩
      rw [(enterPost_again h hp).1 hn]
      exact enterMirror_stands o s

end Sys2Proof.Machine
end

section
/-! PROOFS. RUN entry: what an accepted START leaves in each unit (R166), and the addresses of the words that it queues (R64, R165). -/

set_option Elab.async false

namespace Sys2Proof.Machine

open Sys2Proof.Config

section
variable {s t u : State} {i j : Fin 4}

/-! ## The units at RUN entry -/

/-- The last turns of RUN entry's loops: every ring's next index stands at its first slot (R82). -/
theorem firstIndices_next (s : State) (r : Fin 4) : (firstIndices s).ring.rings[r].next = some (Fin.ofNat 64 (ringStart s r.val)) := by
  refine forEach_at (P := fun u : State => u.effective = s.effective)
    (K := fun u : State => u.ring.rings[r].next = some (Fin.ofNat 64 (ringStart s r.val))) r (fun _ _ _ h => h) rfl (fun u hu => ?_)
    (fun k u hk hu => ?_)
  · have hself : (changeRing r (fun g => { g with next := some (Fin.ofNat 64 (ringStart u r.val)) }) u).ring.rings[r]
        = { u.ring.rings[r] with next := some (Fin.ofNat 64 (ringStart u r.val)) } := modifyAt_self _ _ _
    have hstart : ringStart u r.val = ringStart s r.val := by unfold ringStart; rw [hu]
    rw [hself, hstart]
  · have hother : (changeRing k (fun g => { g with next := some (Fin.ofNat 64 (ringStart u k.val)) }) u).ring.rings[r]
        = u.ring.rings[r] := modifyAt_other _ _ hk.symm
    rw [hother]
    exact hu

theorem enterRun_next (s : State) (r : Fin 4) : (enterRun s).ring.rings[r].next = some (Fin.ofNat 64 (ringStart (enterRun s) r.val)) := by
  obtain ⟨v, hv⟩ := enterRun_eq s
  have heff : (enterRun s).effective = s.copies := by rw [hv]
  have hfirst := firstIndices_next { s with
    run := true
    effective := s.copies
    time := 0
    sampled := sampleLines s s.copies.lines
    channels := mapTable startChannel s.copies.channels
    cells := mapTable startCell s.copies.cells
    chambers := mapTable startChamber s.copies.chambers
    rate := PeriodTimer.start s.copies.node.rateWindow
    level := { s.level with repeatTimer := PeriodTimer.start s.copies.node.repeatPeriod }
    fault := { s.fault with patrol := PeriodTimer.start s.copies.node.patrol }
    path := { s.path with sweep := some 0x010, scanCursor := 0, patrolCursor := 0x000, patrolPending := false } } r
  rw [ringStart, heff]
  exact hfirst

theorem tripState_cases (s : State) (i : Fin 4) : tripState s i = .isolated ∨ tripState s i = .tripped := by
  unfold tripState
  split
  · exact .inl rfl
  · exact .inr rfl

/-- A READY cell that is evaluated is tripped exactly where its demand is true (R35, R37). -/
theorem evaluatedCell_ready {c : Cell} (h : c.state = .ready) : (evaluatedCell s i c).state ≠ .idle
    ∧ tripActive (evaluatedCell s i c) = (evaluatedCell s i c).demand := by
  by_cases hd : cellDemand s i = true
  · rw [evaluatedCell, if_pos ⟨hd, h⟩]
    have hdemand : (trippedCell s i (judgedCell s i c)).demand = true := hd
    have hstate : (trippedCell s i (judgedCell s i c)).state = tripState s i := rfl
    rw [hdemand]
    rcases tripState_cases s i with ht | ht
    · refine ⟨by rw [hstate, ht]; decide, ?_⟩
      simp [tripActive, hstate, ht]
    · refine ⟨by rw [hstate, ht]; decide, ?_⟩
      simp [tripActive, hstate, ht]
  · rw [evaluatedCell, if_neg (fun hc => hd hc.1)]
    have hdemand : (judgedCell s i c).demand = false := Bool.eq_false_iff.mpr hd
    have hstate : (judgedCell s i c).state = .ready := h
    refine ⟨by rw [hstate]; decide, ?_⟩
    rw [hdemand]
    simp [tripActive, hstate]

/-- Every cell has its turn in a re-evaluation that touches every selector. -/
theorem reevaluateOne_all (s0 : State) (i : Fin 4) (s : State) : reevaluateOne (fun _ => true) s0 i s = evaluateCell i s :=
  if_pos (List.any_eq_true.mpr ⟨s.effective.cells[i].inputs[0], Vector.mem_toList_iff.mpr (Vector.getElem_mem (by decide)), rfl⟩)

theorem reevaluate_all (s : State) : reevaluate (fun _ => true) s = forEach 4 evaluateCell s := by
  rw [reevaluate_eq]
  exact congrArg (fun f => forEach 4 f s) (funext fun i => funext fun u => reevaluateOne_all s i u)

/-- A READY cell that is enabled is tripped after RUN entry's evaluation exactly where its demand is true. -/
theorem reevaluate_all_ready (hon : s.effective.cells[j].enabled = true) (hready : s.cells[j].state = .ready) :
    (reevaluate (fun _ => true) s).cells[j].state ≠ .idle
      ∧ tripActive (reevaluate (fun _ => true) s).cells[j] = (reevaluate (fun _ => true) s).cells[j].demand := by
  rw [reevaluate_all]
  refine forEach_at (P := fun u => u.effective = s.effective ∧ u.cells[j] = s.cells[j])
    (K := fun u => u.cells[j].state ≠ .idle ∧ tripActive u.cells[j] = u.cells[j].demand) j
    (fun i u hi hu => ⟨(evaluateCell_alike i u).effective.trans hu.1, (evaluateCell_other hi.symm).trans hu.2⟩) ⟨rfl, rfl⟩
    (fun u hu => ?_) (fun i u hi hu => ?_)
  · rw [evaluateCell_self (by rw [hu.1]; exact hon)]
    exact evaluatedCell_ready (by rw [hu.2]; exact hready)
  · rw [evaluateCell_other hi.symm]
    exact hu

theorem evaluateCell_repeat (i : Fin 4) (s : State) : (evaluateCell i s).level.repeatTimer = s.level.repeatTimer := by
  have hjoined (v : State) (m : AlertMember) : (joinAlert m v).level.repeatTimer = v.level.repeatTimer := by
    unfold joinAlert
    split
    · rfl
    · rfl
  rcases Bool.eq_false_or_eq_true s.effective.cells[i].enabled with hon | hoff
  · rw [evaluateCell_on hon]
    split
    · rw [tripCell_eq, hjoined]
      exact (tripHanded_sameBut i (judged i s)).level.2.1
    · rfl
  · rw [evaluateCell_off hoff]

/-! ## An accepted START -/

variable {w : Word}

/-- The request START whose copies pass every check. -/
theorem judge_start (tag : BitVec 8) (arg : BitVec 16) (hrun : s.run = false) (hpass : failingCheck s = none) (strap : BitVec 2) :
    judgeRequest strap (requestWord 1 tag arg) s = Reply.done (runEntry s) := by
  have hcode := requestCode_requestWord 1 tag arg (by decide)
  have hstart : requestStart s = Reply.done (runEntry s) := by
    unfold requestStart
    simp only [hpass]
  rw [← hstart]
  unfold judgeRequest
  simp only [hcode, hrun, requestCodeKnown_bits, decide_true, Bool.and_self, Bool.not_true, Bool.false_eq_true, if_false, Bool.not_false,
    if_true, Nat.le_refl, Nat.one_le_ofNat]

theorem failingCheck_begun (w : Word) (s : State) : failingCheck (begun w s) = failingCheck s := rfl

theorem exec_start (tag : BitVec 8) (arg : BitVec 16) (hrun : s.run = false) (hpass : failingCheck s = none) :
    exec (.start tag arg) s = .next (doneEvent (requestWord 1 tag arg) runEntry s) := by
  have hexec : exec (.start tag arg) s = .next (serveWrite s.strap (requestAccess s 1 tag arg) s) := rfl
  rw [hexec, serveWrite_request, event_of_done]
  exact judge_start (s := begun (requestWord 1 tag arg) s) tag arg hrun ((failingCheck_begun _ s).trans hpass) s.strap

theorem started_sameBut : SameBut [.trip, .level] (enterRun (begun w s)) (doneEvent w runEntry s) :=
  (runEntry_within _).1.trans (doneEvent_acted.mono (by simp))

theorem announceStart_sameBut (s : State) : SameBut [] s (announceStart s) := (announceStart_within s).1

/-- The state from which RUN entry evaluates the cells. -/
def announced (w : Word) (s : State) : State := announceStart (enterRun (begun w s))

theorem runEntry_begun (w : Word) (s : State) : runEntry (begun w s) = reevaluate (fun _ => true) (announced w s) := rfl

theorem enterRun_cells (s : State) (i : Fin 4) : (enterRun s).cells[i] = startCell s.copies.cells[i] := by
  obtain ⟨v, hv⟩ := enterRun_eq s
  rw [hv]
  exact mapTable_get _ _ i

theorem announced_cells (w : Word) (s : State) (i : Fin 4) : (announced w s).cells[i] = startCell s.copies.cells[i] := by
  have hcells : (announced w s).cells = (enterRun (begun w s)).cells := (announceStart_sameBut _).cells
  simp only [hcells]
  exact enterRun_cells _ i

theorem announced_effective (w : Word) (s : State) : (announced w s).effective = s.copies := by
  obtain ⟨v, hv⟩ := enterRun_eq (begun w s)
  refine (announceStart_sameBut _).effective.trans ?_
  rw [hv]
  rfl

/-- The cells that RUN entry leaves (R36): one not enabled as it was started, one enabled tripped exactly where its demand is true. -/
theorem started_cells (w : Word) (s : State) (i : Fin 4) :
    (s.copies.cells[i].enabled = false → (doneEvent w runEntry s).cells[i] = {})
      ∧ (s.copies.cells[i].enabled = true → (doneEvent w runEntry s).cells[i].state ≠ .idle
        ∧ tripActive (doneEvent w runEntry s).cells[i] = (doneEvent w runEntry s).cells[i].demand) := by
  have hcells : (doneEvent w runEntry s).cells = (reevaluate (fun _ => true) (announced w s)).cells := doneEvent_acted.cells
  have henabled : (announced w s).effective.cells[i].enabled = s.copies.cells[i].enabled := by rw [announced_effective]
  simp only [hcells]
  refine ⟨fun hoff => ?_, fun hon => ?_⟩
  · have hleft := (reevaluate_left (fun _ => true) (announced w s) i).2 (henabled.trans hoff)
    rw [hleft, announced_cells, startCell, hoff]
    rfl
  · refine reevaluate_all_ready (henabled.trans hon) ?_
    rw [announced_cells, startCell, hon]
    rfl

theorem started_repeat (w : Word) (s : State) :
    (doneEvent w runEntry s).level.repeatTimer = PeriodTimer.start s.copies.node.repeatPeriod := by
  obtain ⟨v, hv⟩ := enterRun_eq (begun w s)
  have hentered : (enterRun (begun w s)).level.repeatTimer = PeriodTimer.start s.copies.node.repeatPeriod := by rw [hv]; rfl
  have hannounced : (announced w s).level.repeatTimer = PeriodTimer.start s.copies.node.repeatPeriod :=
    (announceStart_sameBut _).level.2.1.trans hentered
  refine doneEvent_acted.level.2.1.trans ?_
  rw [runEntry_begun]
  exact reevaluate_keeps (P := fun u => u.level.repeatTimer = PeriodTimer.start s.copies.node.repeatPeriod)
    (fun i u hu => (evaluateCell_repeat i u).trans hu) _ hannounced

/-! ## The addresses of the part's words in RUN -/

/-- The words of REPORT and of EVENTS and the outcome word have each an address of its own. -/
structure Apart (s : State) : Prop where
  report : ∀ {o k : Nat}, o < 4096 → k < 4096 → reportAddr s o = reportAddr s k → o = k
  events : ∀ {o k : Nat}, o < 2048 → k < 2048 → eventsAddr s o = eventsAddr s k → o = k
  mixed : ∀ {o k : Nat}, o < 4096 → k < 2048 → reportAddr s o ≠ eventsAddr s k
  outcomeReport : ∀ {o : Nat}, o < 4096 → settingAddr s 0xF04 ≠ reportAddr s o
  outcomeEvents : ∀ {o : Nat}, o < 2048 → settingAddr s 0xF04 ≠ eventsAddr s o

/-- The start checks on the regions keep the words of the part apart (REGION_ALIGN, REGION_OVERLAP). -/
theorem apart_of_checks (hpass : failingCheck s = none) (heff : t.effective = s.copies) (hstrap : t.strap = s.strap) : Apart t := by
  have passes := failingCheck_none_iff.mp hpass
  have aligned : ∀ r ∈ (regionRanges s).tail, r.1 % r.2 = 0 := passes 3 (by decide) (by decide)
  have disjoint : (regionRanges s).Pairwise fun a b => ∀ x : Nat, a.1 ≤ x → x < a.1 + a.2 → ¬(b.1 ≤ x ∧ x < b.1 + b.2) :=
    passes 4 (by decide) (by decide)
  have hreport : s.copies.regions.report.toNat % 4096 = 0 := aligned (_, 4096) (by simp [regionRanges])
  have hevents : s.copies.regions.events.toNat % 2048 = 0 := aligned (_, 2048) (by simp [regionRanges])
  have hrange := s.copies.regions.report.isLt
  have hrange' := s.copies.regions.events.isLt
  simp only [regionRanges, List.pairwise_cons, List.mem_cons, forall_eq_or_imp] at disjoint
  obtain ⟨⟨hsr, hse, -⟩, ⟨hre, -⟩, -⟩ := disjoint
  have reportAt {o : Nat} (ho : o < 4096) : (reportAddr t o).toNat = s.copies.regions.report.toNat + o := by
    simp only [reportAddr, address, BitVec.toNat_ofNat, heff]
    omega
  have eventsAt {o : Nat} (ho : o < 2048) : (eventsAddr t o).toNat = s.copies.regions.events.toNat + o := by
    simp only [eventsAddr, address, BitVec.toNat_ofNat, heff]
    omega
  have outcomeAt : (settingAddr t 0xF04).toNat = settingBase s.strap + 0xF04 := by
    rw [settingAddr_toNat (by decide), hstrap]
  refine ⟨fun ho hk h => ?_, fun ho hk h => ?_, fun {o k} ho hk h => ?_, fun {o} ho h => ?_, fun {o} ho h => ?_⟩
  · have := congrArg BitVec.toNat h
    rw [reportAt ho, reportAt hk] at this
    omega
  · have := congrArg BitVec.toNat h
    rw [eventsAt ho, eventsAt hk] at this
    omega
  · have := congrArg BitVec.toNat h
    rw [reportAt ho, eventsAt hk] at this
    exact hre (s.copies.regions.report.toNat + o) (by omega) (by omega) (by omega)
  · have := congrArg BitVec.toNat h
    rw [outcomeAt, reportAt ho] at this
    exact hsr (settingBase s.strap + 0xF04) (by omega) (by omega) (by omega)
  · have := congrArg BitVec.toNat h
    rw [outcomeAt, eventsAt ho] at this
    exact hse (settingBase s.strap + 0xF04) (by omega) (by omega) (by omega)

end
end Sys2Proof.Machine
end

section
/-! PROOFS. RUN entry's evaluation of the cells, turn by turn: the records of the cells that trip, and what the trips hand on
(R35 to R37, R41, R166, R176). -/

set_option Elab.async false

namespace Sys2Proof.Machine

open Sys2Proof.Config

section
variable {s e u v : State} {i j : Fin 4}

/-! ## A record in the empty ring, and a local cause below EVACUATE -/

/-- The first record of an empty ring reports the line word too, since ATTENTION_OUT rises (R45, R176, R177). -/
theorem addRecord_empty (kind subject : Nat) (info : Word) (hrun : s.run = true) (hempty : occupancy s.fault = 0) :
    addRecord kind subject info s = { s with
      fault := { s.fault with produce := s.fault.produce + 1 }
      path := { s.path with
        posts := s.path.posts ++ (recordWords s kind subject info ++ [produceWrite s]).map .write
        reports := s.path.reports ++ [.changed 0x110] } } := by
  rw [addRecord, if_neg (by rw [hrun]; decide), if_neg (show ¬occupancy s.fault = ringRecords by rw [hempty]; decide)]
  dsimp only
  rw [if_pos hempty]
  rfl

/-- A local cause below EVACUATE waits for the derivation of the level (R51, R53). -/
theorem localCause_waits {kind : CauseKind} {reason : BitVec 4} (h : s.level.level ≠ .evacuate) : ∃ l : LevelUnit,
    localCause kind reason 0 s = { s with level := l } ∧ l.level = s.level.level ∧ l.alerts = s.level.alerts
      ∧ l.taken.length ≤ s.level.taken.length + 1 ∧ (∀ c ∈ l.taken, c ∈ s.level.taken ∨ c.fault = 0) ∧ l.cause ≠ none := by
  cases hc : s.level.cause with
  | none =>
    refine ⟨_, localCause_of_none hc, rfl, rfl, ?_, fun c hm => ?_, Option.some_ne_none _⟩
    · exact Nat.le_add_left _ _
    · exact .inr (by rw [List.mem_singleton.mp hm])
  | some c =>
    have hsome : s.level.cause.isSome = true := by rw [hc]; rfl
    rw [localCause]
    simp only [hsome, if_true]
    refine ⟨_, takeCause_of_waiting hc h, rfl, rfl, ?_, fun d hm => ?_, ?_⟩
    · exact (List.length_append).le
    · exact (List.mem_append.mp hm).imp_right fun hd => by rw [List.mem_singleton.mp hd]
    · exact fun hn => absurd (hc.symm.trans hn) (Option.some_ne_none c)

/-! ## One turn -/

/-- The state that differs from `e` in the cells, the produce index, what is handed on, and the level unit. -/
def entered (c : Vector Cell 4) (n : BitVec 16) (P R : List Post) (l : LevelUnit) (e : State) : State := { e with
  cells := c
  fault := { e.fault with produce := n }
  path := { e.path with posts := P, reports := R }
  level := l }

/-- The report words of a trip. -/
def tripReports (i : Fin 4) : List Post := [.changed 0x110, .changed (0x100 + 4 * i.val), .changed 0x010]

/-- The words of a CELL_TRIPPED record in place (R37, R176). -/
def trippedWords (s : State) (i : Fin 4) (c : Cell) : List OwnWrite :=
  recordWords s 0x18 i.val (detail ((3, CellState.code c.state) :: truthFields c.truths))

/-- A trip in a ring that is neither full nor empty, below EVACUATE: one record, the cause that the cell is set to give, and the cell in the
ALERT cause set (R37, R41). -/
theorem tripCell_entered (hrun : s.run = true) (hfull : occupancy s.fault ≠ 64) (hempty : occupancy s.fault ≠ 0)
    (hlevel : s.level.level ≠ .evacuate) (hnew : AlertMember.cell i ∉ s.level.alerts) : ∃ l : LevelUnit,
    tripCell i s = entered (modifyAt s.cells i (trippedCell s i)) (s.fault.produce + 1)
        (s.path.posts ++ (trippedWords s i (trippedCell s i s.cells[i]) ++ [produceWrite s]).map .write) (s.path.reports ++ tripReports i) l s
      ∧ l.level = s.level.level ∧ l.alerts = s.level.alerts ++ [.cell i] ∧ l.taken.length ≤ s.level.taken.length + 1
      ∧ (∀ c ∈ l.taken, c ∈ s.level.taken ∨ c.fault = 0) ∧ (l.cause = none → l.taken = s.level.taken ∧ s.level.cause = none) := by
  have hrecord : addRecord recCellTripped i.val (detail ((3, CellState.code (tripState s i)) :: truthFields s.cells[i].truths))
        (changeCell i (trippedCell s i) s)
      = entered (modifyAt s.cells i (trippedCell s i)) (s.fault.produce + 1)
        (s.path.posts ++ (trippedWords s i (trippedCell s i s.cells[i]) ++ [produceWrite s]).map .write) s.path.reports s.level s :=
    addRecord_room (s := changeCell i (trippedCell s i) s) _ _ _ hrun hfull hempty
  have joined (l : LevelUnit) (P R : List Post) (hl : l.alerts = s.level.alerts) :
      joinAlert (.cell i) (postCell i (entered (modifyAt s.cells i (trippedCell s i)) (s.fault.produce + 1) P R l s))
        = entered (modifyAt s.cells i (trippedCell s i)) (s.fault.produce + 1) P (R ++ tripReports i)
            { l with alerts := s.level.alerts ++ [.cell i] } s := by
    have hout : AlertMember.cell i ∉ l.alerts := hl ▸ hnew
    have hjoin : joinAlert (.cell i) (postCell i (entered (modifyAt s.cells i (trippedCell s i)) (s.fault.produce + 1) P R l s))
        = entered (modifyAt s.cells i (trippedCell s i)) (s.fault.produce + 1) P
            (R ++ [.changed 0x110, .changed (0x100 + 4 * i.val)] ++ [.changed 0x010]) { l with alerts := l.alerts ++ [.cell i] } s := if_neg hout
    rw [hjoin, hl, List.append_assoc]
    rfl
  rw [tripCell_eq]
  unfold tripHanded
  dsimp only
  rw [hrecord]
  split
  · obtain ⟨l, hl, hlev, hal, hlen, hfault, hcause⟩ := localCause_waits (kind := .cell) (reason := BitVec.ofNat 4 i.val)
      (s := entered (modifyAt s.cells i (trippedCell s i)) (s.fault.produce + 1)
        (s.path.posts ++ (trippedWords s i (trippedCell s i s.cells[i]) ++ [produceWrite s]).map .write) s.path.reports s.level s) hlevel
    rw [hl]
    exact ⟨_, joined l _ _ hal, hlev, rfl, hlen, hfault, fun hn => absurd hn hcause⟩
  · exact ⟨_, joined s.level _ _ rfl, rfl, rfl, Nat.le_succ _, fun c hc => .inl hc, fun hn => ⟨rfl, hn⟩⟩

/-! ## The turns -/

/-- The words of a record depend on the settings in effect, node time and the produce index alone. -/
theorem recordWords_congr (heff : u.effective = s.effective) (htime : u.time = s.time) (hproduce : u.fault.produce = s.fault.produce)
    (kind subject : Nat) (info : Word) : recordWords u kind subject info = recordWords s kind subject info := by
  unfold recordWords eventsAddr
  rw [heff, htime, hproduce]

theorem produceWrite_congr (heff : u.effective = s.effective) (hproduce : u.fault.produce = s.fault.produce) :
    produceWrite u = produceWrite s := by
  unfold produceWrite eventsAddr
  rw [heff, hproduce]

/-- The cells of a list that are tripped. -/
def trips (d : Vector Cell 4) (done : List (Fin 4)) : List (Fin 4) := done.filter fun i => tripActive d[i]

theorem trips_congr {d d' : Vector Cell 4} {done : List (Fin 4)} (h : ∀ i ∈ done, d'[i] = d[i]) : trips d' done = trips d done :=
  List.filter_congr fun i hi => by rw [h i hi]

theorem trips_append_off {d d' : Vector Cell 4} {done : List (Fin 4)} (h : ∀ i ∈ done, d'[i] = d[i]) (hoff : tripActive d'[i] = false) :
    trips d' (done ++ [i]) = trips d done := by
  rw [trips, List.filter_append, List.filter_cons_of_neg (by rw [hoff]; decide), List.filter_nil, List.append_nil]
  exact trips_congr h

theorem trips_append_on {d d' : Vector Cell 4} {done : List (Fin 4)} (h : ∀ i ∈ done, d'[i] = d[i]) (hon : tripActive d'[i] = true) :
    trips d' (done ++ [i]) = trips d done ++ [i] := by
  rw [trips, List.filter_append, List.filter_cons_of_pos (p := fun i => tripActive d'[i]) hon, List.filter_nil]
  exact congrArg (· ++ [i]) (trips_congr h)

/-- The state `e` with `1 + j` records in the ring. -/
def counted (e : State) (j : Nat) : State := { e with fault := { produce := BitVec.ofNat 16 (1 + j) } }

/-- The own-writes of the record of cell `i`, with `1 + j` records before it. -/
def tripBlock (e : State) (d : Vector Cell 4) (j : Nat) (i : Fin 4) : List OwnWrite :=
  trippedWords (counted e j) i d[i] ++ [produceWrite (counted e j)]

/-- The own-writes of the records of these cells. -/
def tripBlocks (e : State) (d : Vector Cell 4) (l : List (Fin 4)) : List (List OwnWrite) := l.mapIdx (tripBlock e d)

theorem tripBlocks_congr {d d' : Vector Cell 4} {l : List (Fin 4)} (h : ∀ i ∈ l, d'[i] = d[i]) : tripBlocks e d' l = tripBlocks e d l :=
  List.mapIdx_eq_mapIdx_iff.mpr fun k hk => by
    have hcell := h l[k] (List.getElem_mem hk)
    unfold tripBlock
    rw [hcell]

theorem tripBlocks_append (d : Vector Cell 4) (l : List (Fin 4)) :
    tripBlocks e d (l ++ [i]) = tripBlocks e d l ++ [tripBlock e d l.length i] := List.mapIdx_concat

/-- The state in which START has been announced, before any cell is evaluated. -/
structure Announced (e : State) : Prop where
  run : e.run = true
  consume : e.fault.consume = 0
  produce : e.fault.produce = 1
  level : e.level.level = .normal
  alerts : e.level.alerts = []
  taken : e.level.taken = []
  cause : e.level.cause = none
  cells : ∀ i : Fin 4, e.cells[i] = startCell e.effective.cells[i]
  reports : e.path.reports = [.changed 0x110]

/-- The cells `done` have been evaluated, in this order, from the state `e`. -/
structure Looped (e : State) (done : List (Fin 4)) (u : State) : Prop where
  same : u = entered u.cells u.fault.produce u.path.posts u.path.reports u.level e
  ahead : ∀ i, i ∉ done → u.cells[i] = e.cells[i]
  produce : u.fault.produce = BitVec.ofNat 16 (1 + (trips u.cells done).length)
  posts : u.path.posts = e.path.posts ++ (tripBlocks e u.cells (trips u.cells done)).flatten.map .write
  reports : ∀ x ∈ u.path.reports, ∃ o ∈ sweepWords, x = .changed o
  length : u.path.reports.length ≤ 1 + 5 * done.length
  must : ∀ i ∈ trips u.cells done, ∀ x ∈ tripReports i, x ∈ u.path.reports
  enabled : ∀ i ∈ trips u.cells done, e.effective.cells[i].enabled = true
  level : u.level.level = .normal
  alerts : u.level.alerts = (trips u.cells done).map .cell
  taken : u.level.taken.length ≤ (trips u.cells done).length
  faults : ∀ c ∈ u.level.taken, c.fault = 0
  cause : trips u.cells done = [] → u.level.cause = none
  idle : (∀ i : Fin 4, e.effective.cells[i].enabled = false) → u.path.reports = [.changed 0x110]

theorem Announced.looped (h : Announced e) : Looped e [] e where
  same := rfl
  ahead _ _ := rfl
  produce := h.produce
  posts := (List.append_nil _).symm
  reports x hx := by
    rw [h.reports, List.mem_singleton] at hx
    exact ⟨_, by decide, hx⟩
  length := by rw [h.reports]; decide
  must _ hi := by cases hi
  enabled _ hi := by cases hi
  level := h.level
  alerts := h.alerts
  taken := by rw [h.taken]; exact Nat.zero_le _
  faults c hc := by rw [h.taken] at hc; cases hc
  cause _ := h.cause
  idle _ := h.reports

theorem tripReports_swept (i : Fin 4) : ∀ x ∈ tripReports i, ∃ o ∈ sweepWords, x = .changed o := by
  revert i
  have hwords : ∀ i : Fin 4, ∀ o ∈ [0x110, 0x100 + 4 * i.val, 0x010], o ∈ sweepWords := by decide
  intro i x hx
  obtain ⟨o, ho, rfl⟩ := List.mem_map.mp (show x ∈ [0x110, 0x100 + 4 * i.val, 0x010].map Post.changed from hx)
  exact ⟨o, hwords i o ho, rfl⟩

/-- A turn that trips no cell. -/
theorem Looped.untripped {done : List (Fin 4)} {c : Cell} {R : List Post} (h : Looped e done u) (hi : i ∉ done)
    (hc : tripActive c = false) (hR : ∀ x ∈ R, x ∈ tripReports i) (hlen : R.length ≤ 2)
    (hidle : e.effective.cells[i].enabled = false → R = []) :
    Looped e (done ++ [i]) (entered (modifyAt u.cells i fun _ => c) u.fault.produce u.path.posts (u.path.reports ++ R) u.level u) := by
  have hself : (modifyAt u.cells i fun _ => c)[i] = c := modifyAt_self _ _ _
  have hother (k : Fin 4) (hk : k ∈ done) : (modifyAt u.cells i fun _ => c)[k] = u.cells[k] :=
    modifyAt_other _ _ fun hki => hi (hki ▸ hk)
  have htrips : trips (modifyAt u.cells i fun _ => c) (done ++ [i]) = trips u.cells done :=
    trips_append_off hother (by rw [hself]; exact hc)
  have hblocks : tripBlocks e (modifyAt u.cells i fun _ => c) (trips u.cells done) = tripBlocks e u.cells (trips u.cells done) :=
    tripBlocks_congr fun k hk => hother k (List.mem_filter.mp hk).1
  have hsame : entered (modifyAt u.cells i fun _ => c) u.fault.produce u.path.posts (u.path.reports ++ R) u.level u
      = entered (modifyAt u.cells i fun _ => c) u.fault.produce u.path.posts (u.path.reports ++ R) u.level e :=
    h.same ▸ rfl
  exact {
    same := hsame
    ahead := fun k hk => by
      obtain ⟨hdone, hki⟩ := not_or.mp (fun hm => hk (List.mem_append.mpr hm))
      exact (modifyAt_other _ _ fun he => hki (List.mem_singleton.mpr he)).trans (h.ahead k hdone)
    produce := by
      show u.fault.produce = BitVec.ofNat 16 (1 + (trips (modifyAt u.cells i fun _ => c) (done ++ [i])).length)
      rw [htrips]
      exact h.produce
    posts := by
      show u.path.posts = e.path.posts ++ (tripBlocks e (modifyAt u.cells i fun _ => c)
        (trips (modifyAt u.cells i fun _ => c) (done ++ [i]))).flatten.map .write
      rw [htrips, hblocks]
      exact h.posts
    reports := fun x hx => (List.mem_append.mp hx).elim (h.reports x) fun hx => tripReports_swept i x (hR x hx)
    length := by
      have := h.length
      show (u.path.reports ++ R).length ≤ 1 + 5 * (done ++ [i]).length
      rw [List.length_append, List.length_append, List.length_singleton]
      omega
    must := fun k hk x hx => List.mem_append_left _ (h.must k (htrips ▸ hk) x hx)
    enabled := fun k hk => h.enabled k (htrips ▸ hk)
    level := h.level
    alerts := h.alerts.trans (congrArg _ htrips.symm)
    taken := h.taken.trans (congrArg List.length htrips.symm).le
    faults := h.faults
    cause := fun hnil => h.cause (htrips ▸ hnil)
    idle := fun hoff => by
      show u.path.reports ++ R = _
      rw [hidle (hoff i), List.append_nil]
      exact h.idle hoff }

/-- A turn that trips its cell. -/
theorem Looped.tripped {done : List (Fin 4)} {c : Cell} {R : List Post} {l : LevelUnit} (h : Looped e done u) (hi : i ∉ done)
    (hon : e.effective.cells[i].enabled = true) (hc : tripActive c = true) (hR : ∀ x, x ∈ R ↔ x ∈ tripReports i) (hlen : R.length ≤ 5)
    (hlevel : l.level = u.level.level) (halerts : l.alerts = u.level.alerts ++ [.cell i])
    (htaken : l.taken.length ≤ u.level.taken.length + 1) (hfaults : ∀ d ∈ l.taken, d ∈ u.level.taken ∨ d.fault = 0) :
    Looped e (done ++ [i]) (entered (modifyAt u.cells i fun _ => c) (u.fault.produce + 1)
      (u.path.posts ++ (trippedWords u i c ++ [produceWrite u]).map .write) (u.path.reports ++ R) l u) := by
  have hself : (modifyAt u.cells i fun _ => c)[i] = c := modifyAt_self _ _ _
  have hother (k : Fin 4) (hk : k ∈ done) : (modifyAt u.cells i fun _ => c)[k] = u.cells[k] :=
    modifyAt_other _ _ fun hki => hi (hki ▸ hk)
  have htrips : trips (modifyAt u.cells i fun _ => c) (done ++ [i]) = trips u.cells done ++ [i] :=
    trips_append_on hother (by rw [hself]; exact hc)
  have hlength : (trips u.cells done ++ [i]).length = (trips u.cells done).length + 1 := List.length_append
  have hblock : tripBlock e (modifyAt u.cells i fun _ => c) (trips u.cells done).length i
      = trippedWords u i c ++ [produceWrite u] := by
    have heff : (counted e (trips u.cells done).length).effective = u.effective := (congrArg State.effective h.same).symm
    have htime : (counted e (trips u.cells done).length).time = u.time := (congrArg State.time h.same).symm
    unfold tripBlock trippedWords
    rw [hself, recordWords_congr heff htime h.produce.symm, produceWrite_congr heff h.produce.symm]
  have hblocks : tripBlocks e (modifyAt u.cells i fun _ => c) (trips u.cells done) = tripBlocks e u.cells (trips u.cells done) :=
    tripBlocks_congr fun k hk => hother k (List.mem_filter.mp hk).1
  exact {
    same := h.same ▸ rfl
    ahead := fun k hk => by
      obtain ⟨hdone, hki⟩ := not_or.mp (fun hm => hk (List.mem_append.mpr hm))
      exact (modifyAt_other _ _ fun he => hki (List.mem_singleton.mpr he)).trans (h.ahead k hdone)
    produce := by
      show u.fault.produce + 1 = BitVec.ofNat 16 (1 + (trips (modifyAt u.cells i fun _ => c) (done ++ [i])).length)
      rw [htrips, hlength, h.produce, ← Nat.add_assoc, BitVec.ofNat_add (1 + _) 1]
      rfl
    posts := by
      show u.path.posts ++ (trippedWords u i c ++ [produceWrite u]).map Post.write
        = e.path.posts ++ (tripBlocks e (modifyAt u.cells i fun _ => c)
          (trips (modifyAt u.cells i fun _ => c) (done ++ [i]))).flatten.map .write
      rw [htrips, tripBlocks_append, hblocks, hblock, h.posts, List.flatten_append, List.flatten_singleton, List.append_assoc,
        ← List.map_append]
    reports := fun x hx => (List.mem_append.mp hx).elim (h.reports x) fun hx => tripReports_swept i x ((hR x).mp hx)
    length := by
      have := h.length
      show (u.path.reports ++ R).length ≤ 1 + 5 * (done ++ [i]).length
      rw [List.length_append, List.length_append, List.length_singleton]
      omega
    must := fun k hk x hx => by
      rcases List.mem_append.mp (htrips ▸ hk : k ∈ trips u.cells done ++ [i]) with hk | hk
      · exact List.mem_append_left _ (h.must k hk x hx)
      · rw [List.mem_singleton.mp hk] at hx
        exact List.mem_append_right _ ((hR x).mpr hx)
    enabled := fun k hk => by
      rcases List.mem_append.mp (htrips ▸ hk : k ∈ trips u.cells done ++ [i]) with hk | hk
      · exact h.enabled k hk
      · rw [List.mem_singleton.mp hk]
        exact hon
    level := hlevel.trans h.level
    alerts := by
      show l.alerts = (trips (modifyAt u.cells i fun _ => c) (done ++ [i])).map .cell
      rw [htrips, halerts, h.alerts, List.map_append]
      rfl
    taken := by
      have := h.taken
      show l.taken.length ≤ (trips (modifyAt u.cells i fun _ => c) (done ++ [i])).length
      rw [htrips, hlength]
      omega
    faults := fun d hd => (hfaults d hd).elim (h.faults d) id
    cause := fun hnil => absurd (htrips ▸ hnil) (by simp)
    idle := fun hoff => absurd hon (by rw [hoff i]; decide) }

theorem modifyAt_twice {α : Type} {n : Nat} (x : Vector α n) (k : Fin n) (f g : α → α) :
    modifyAt (modifyAt x k f) k g = modifyAt x k fun _ => g (f x[k]) := by
  simp only [modifyAt, Fin.getElem_fin, Vector.getElem_set_self, Vector.set_set]

theorem modifyAt_same {α : Type} {n : Nat} (x : Vector α n) (k : Fin n) : (modifyAt x k fun _ => x[k]) = x := Vector.set_getElem_self _

theorem Looped.occupancy {done : List (Fin 4)} (h : Looped e done u) (he : Announced e) (hlen : done.length ≤ 4) :
    occupancy u.fault = 1 + (trips u.cells done).length ∧ (trips u.cells done).length ≤ done.length := by
  have hsub : (trips u.cells done).length ≤ done.length := List.length_filter_le _ _
  have hconsume : u.fault.consume = 0 := (congrArg (fun v : State => v.fault.consume) h.same).trans he.consume
  refine ⟨?_, hsub⟩
  unfold Machine.occupancy
  rw [hconsume, h.produce]
  simp only [BitVec.ofNat_eq_ofNat, BitVec.sub_zero, BitVec.toNat_ofNat]
  omega

theorem not_tripActive {c : Cell} (h : c.state = .ready ∨ c.state = .idle) : tripActive c = false := by
  rcases h with h | h
  · simp only [tripActive, h]
    rfl
  · simp only [tripActive, h]
    rfl

/-- One turn of RUN entry's evaluation. -/
theorem Looped.turn {done : List (Fin 4)} (h : Looped e done u) (he : Announced e) (hi : i ∉ done) (hlen : done.length < 4) :
    Looped e (done ++ [i]) (evaluateCell i u) := by
  have heff : u.effective = e.effective := (congrArg State.effective h.same).trans rfl
  have hcell : u.cells[i] = startCell e.effective.cells[i] := (h.ahead i hi).trans (he.cells i)
  rcases Bool.eq_false_or_eq_true e.effective.cells[i].enabled with hon | hoff
  · have hon' : u.effective.cells[i].enabled = true := by rw [heff]; exact hon
    have hready : u.cells[i].state = .ready := by rw [hcell, startCell, hon]; rfl
    rw [evaluateCell_on hon']
    split
    · rename_i hd
      obtain ⟨hocc, hsub⟩ := h.occupancy he hlen.le
      have hjudged : (judged i u).cells[i] = judgedCell u i u.cells[i] := judged_cell i u
      have hrun : u.run = true := (congrArg State.run h.same).trans he.run
      have hnew : AlertMember.cell i ∉ (judged i u).level.alerts := by
        show AlertMember.cell i ∉ u.level.alerts
        rw [h.alerts]
        intro hm
        obtain ⟨k, hk, hki⟩ := List.mem_map.mp hm
        cases hki
        exact hi (List.mem_filter.mp hk).1
      have hfull : Machine.occupancy (judged i u).fault ≠ 64 := by
        show Machine.occupancy u.fault ≠ 64
        omega
      have hempty : Machine.occupancy (judged i u).fault ≠ 0 := by
        show Machine.occupancy u.fault ≠ 0
        omega
      obtain ⟨l, hl, hlevel, halerts, htaken, hfaults, -⟩ := tripCell_entered (s := judged i u) hrun hfull hempty
        (by show u.level.level ≠ .evacuate; rw [h.level]; decide) hnew
      have hcells : modifyAt (judged i u).cells i (trippedCell (judged i u) i)
          = modifyAt u.cells i fun _ => trippedCell (judged i u) i (judgedCell u i u.cells[i]) := modifyAt_twice _ _ _ _
      have hactive : tripActive (trippedCell (judged i u) i (judgedCell u i u.cells[i])) = true := by
        rcases tripState_cases (judged i u) i with ht | ht
        · simp [tripActive, trippedCell, ht]
        · simp [tripActive, trippedCell, ht]
      have hreports : (judged i u).path.reports ++ tripReports i
          = u.path.reports ++ ([.changed 0x110, .changed (0x100 + 4 * i.val)] ++ tripReports i) := List.append_assoc _ _ _
      rw [hl, hcells, hjudged, hreports]
      refine h.tripped hi hon hactive (fun x => ?_) (Nat.le_refl 5) hlevel halerts htaken hfaults
      simp only [tripReports, List.mem_append, List.mem_cons, List.not_mem_nil, or_false]
      tauto
    · rename_i hd
      refine h.untripped (c := judgedCell u i u.cells[i]) hi ?_ (fun x hx => ?_) (Nat.le_refl 2) fun hoff => absurd hon (by rw [hoff]; decide)
      · have hstate : (judgedCell u i u.cells[i]).state = .ready := hready
        exact not_tripActive (.inl hstate)
      · exact List.mem_of_mem_take (i := 2) hx
  · have hoff' : u.effective.cells[i].enabled = false := by rw [heff]; exact hoff
    have hstate : u.cells[i].state = .idle := by rw [hcell, startCell, hoff]; rfl
    have hsame : entered (modifyAt u.cells i fun _ => u.cells[i]) u.fault.produce u.path.posts (u.path.reports ++ []) u.level u = u := by
      have hcells : modifyAt u.cells i (fun _ => u.cells[i]) = u.cells := modifyAt_same _ _
      rw [hcells, List.append_nil]
      rfl
    rw [evaluateCell_off hoff', ← hsame]
    exact h.untripped (R := []) hi (not_tripActive (.inr hstate)) (fun x hx => by cases hx) (by decide) fun _ => rfl

/-- RUN entry's evaluation of the four cells. -/
theorem Announced.evaluated (h : Announced e) : Looped e (List.finRange 4) (reevaluate (fun _ => true) e) := by
  rw [reevaluate_all]
  have turns (l done : List (Fin 4)) (u : State) (hu : Looped e done u) (hn : (done ++ l).Nodup) (hlen : (done ++ l).length ≤ 4) :
      Looped e (done ++ l) (l.foldl (fun v i => evaluateCell i v) u) := by
    induction l generalizing done u with
    | nil => rw [List.append_nil]; exact hu
    | cons i l ih =>
      have hi : i ∉ done := fun hm => (List.nodup_append.mp hn).2.2 i hm i List.mem_cons_self rfl
      have hassoc : done ++ i :: l = done ++ [i] ++ l := by rw [List.append_assoc]; rfl
      rw [hassoc] at hn hlen ⊢
      refine ih _ _ (hu.turn h hi ?_) hn hlen
      simp only [List.length_append, List.length_singleton] at hlen
      omega
  exact turns (List.finRange 4) [] e h.looped (List.nodup_finRange 4) (by decide)

end
end Sys2Proof.Machine
end

section
/-! PROOFS. What the units hand on at the end of RUN entry's event, behind the record of the level: swept words and records in later places
(R54, R61, R145, R176). -/

set_option Elab.async false

namespace Sys2Proof.Machine

open Sys2Proof.Config

section
variable {s t u v s0 : State} {r k r' k' : Nat}

/-! ## What is handed on later -/

/-- A post behind the first records: a swept word, the produce index, or a word of a record in a place from `lo` up to `hi`. -/
def LaterPost (s : State) (lo hi : Nat) : Post → Prop
  | .write w => (w.kind = .trailing ∧ w.addr = eventsAddr s 0)
      ∨ (w.kind = .plain ∧ ∃ o, 16 + 16 * lo ≤ o ∧ o < 16 + 16 * hi ∧ w.addr = eventsAddr s o)
  | .changed o | .always o => o ∈ sweepWords

theorem LaterPost.wider {lo hi lo' hi' : Nat} {x : Post} (h : LaterPost s lo hi x) (he : t.effective = s.effective) (hlo : lo' ≤ lo)
    (hhi : hi ≤ hi') : LaterPost t lo' hi' x := by
  have haddr (o : Nat) : eventsAddr t o = eventsAddr s o := by unfold eventsAddr; rw [he]
  cases x with
  | write w =>
    rcases h with ⟨hk, ha⟩ | ⟨hk, o, h1, h2, ha⟩
    · exact .inl ⟨hk, ha.trans (haddr 0).symm⟩
    · exact .inr ⟨hk, o, by omega, by omega, ha.trans (haddr o).symm⟩
  | changed o => exact h
  | always o => exact h

/-- The produce index that stands once a post has entered, `d` before it. -/
def nextIndex (d : Word) : Post → Word
  | .write w => if w.kind = .trailing then w.data else d
  | .changed _ | .always _ => d

/-- The produce index that stands once these posts have entered, `d` before them. -/
def lastIndex (P : List Post) (d : Word) : Word := P.foldl nextIndex d

theorem lastIndex_append (P Q : List Post) (d : Word) : lastIndex (P ++ Q) d = lastIndex Q (lastIndex P d) := List.foldl_append

theorem lastIndex_words {P : List Post} (h : ∀ x ∈ P, ∀ w, x ≠ .write w) (d : Word) : lastIndex P d = d := by
  induction P generalizing d with
  | nil => rfl
  | cons x P ih =>
    have hx : nextIndex d x = d := by
      cases x with
      | write w => exact absurd rfl (h _ List.mem_cons_self w)
      | changed o => rfl
      | always o => rfl
    exact (congrArg (lastIndex P) hx).trans (ih (fun y hy => h y (List.mem_cons_of_mem _ hy)) d)

/-- From `s` to `t` at most `r` records and at most `k` words are handed on, all of them later ones. -/
structure Hands (r k : Nat) (s t : State) : Prop where
  run : t.run = s.run
  effective : t.effective = s.effective
  strap : t.strap = s.strap
  time : t.time = s.time
  cells : t.cells = s.cells
  waits : t.waitCycles = s.waitCycles
  level : t.level.level = s.level.level
  cause : t.level.cause = s.level.cause
  alerts : t.level.alerts = s.level.alerts
  consume : t.fault.consume = s.fault.consume
  low : s.fault.produce.toNat ≤ t.fault.produce.toNat
  high : t.fault.produce.toNat ≤ s.fault.produce.toNat + r
  path : ∃ P R : List Post, t.path = { s.path with posts := s.path.posts ++ P, reports := s.path.reports ++ R }
    ∧ P.length + R.length ≤ k ∧ (∀ x ∈ P, LaterPost s s.fault.produce.toNat t.fault.produce.toNat x)
    ∧ (∀ x ∈ R, ∃ o ∈ sweepWords, x = .changed o) ∧ lastIndex P (word s.fault.produce.toNat) = word t.fault.produce.toNat

theorem Hands.refl (s : State) : Hands 0 0 s s := ⟨rfl, rfl, rfl, rfl, rfl, rfl, rfl, rfl, rfl, rfl, Nat.le_refl _, Nat.le_refl _,
  [], [], by rw [List.append_nil, List.append_nil], Nat.le_refl _, fun x hx => (by cases hx), fun x hx => (by cases hx), rfl⟩

theorem Hands.trans (h : Hands r k s t) (h' : Hands r' k' t u) : Hands (r + r') (k + k') s u := by
  obtain ⟨P, R, hp, hlen, hP, hR, hi⟩ := h.path
  obtain ⟨P', R', hp', hlen', hP', hR', hi'⟩ := h'.path
  have hlow := h.low
  have hlow' := h'.low
  have hhigh := h.high
  have hhigh' := h'.high
  refine ⟨h'.run.trans h.run, h'.effective.trans h.effective, h'.strap.trans h.strap, h'.time.trans h.time, h'.cells.trans h.cells,
    h'.waits.trans h.waits, h'.level.trans h.level, h'.cause.trans h.cause, h'.alerts.trans h.alerts, h'.consume.trans h.consume,
    by omega, by omega, P ++ P', R ++ R', ?_, ?_, fun x hx => ?_, fun x hx => ?_, ?_⟩
  · rw [hp', hp]
    simp only [List.append_assoc]
  · simp only [List.length_append]
    omega
  · rcases List.mem_append.mp hx with hx | hx
    · exact (hP x hx).wider rfl (Nat.le_refl _) hlow'
    · exact (hP' x hx).wider h.effective.symm hlow (Nat.le_refl _)
  · exact (List.mem_append.mp hx).elim (hR x) (hR' x)
  · rw [lastIndex_append, hi, hi']

theorem Hands.wider (h : Hands r k s t) (hr : r ≤ r') (hk : k ≤ k') : Hands r' k' s t := by
  obtain ⟨P, R, hp, hlen, hrest⟩ := h.path
  exact { h with high := h.high.trans (by omega), path := ⟨P, R, hp, by omega, hrest⟩ }

/-- What hands on swept words alone. -/
theorem Hands.of_words {P : List Post} {R : List Nat} (hP : ∀ x ∈ P, ∃ o ∈ sweepWords, x = .changed o ∨ x = .always o)
    (hR : ∀ o ∈ R, o ∈ sweepWords)
    (hpath : t.path = { s.path with posts := s.path.posts ++ P, reports := s.path.reports ++ R.map .changed })
    (hrun : t.run = s.run := by rfl) (heff : t.effective = s.effective := by rfl) (hstrap : t.strap = s.strap := by rfl)
    (htime : t.time = s.time := by rfl) (hcells : t.cells = s.cells := by rfl) (hwaits : t.waitCycles = s.waitCycles := by rfl)
    (hlevel : t.level.level = s.level.level := by rfl) (hcause : t.level.cause = s.level.cause := by rfl)
    (halerts : t.level.alerts = s.level.alerts := by rfl) (hfault : t.fault = s.fault := by rfl) :
    Hands 0 (P.length + R.length) s t where
  run := hrun
  effective := heff
  strap := hstrap
  time := htime
  cells := hcells
  waits := hwaits
  level := hlevel
  cause := hcause
  alerts := halerts
  consume := by rw [hfault]
  low := by rw [hfault]
  high := by rw [hfault]; exact Nat.le_refl _
  path := by
    refine ⟨P, R.map .changed, hpath, by rw [List.length_map], fun x hx => ?_, fun x hx => ?_, ?_⟩
    · obtain ⟨o, ho, rfl | rfl⟩ := hP x hx
      · exact ho
      · exact ho
    · obtain ⟨o, ho, rfl⟩ := List.mem_map.mp hx
      exact ⟨o, hR o ho, rfl⟩
    · rw [hfault]
      refine lastIndex_words (fun x hx w he => ?_) _
      obtain ⟨o, -, rfl | rfl⟩ := hP x hx
      · cases he
      · cases he

theorem reportChanged_hands {R : List Nat} (hR : ∀ o ∈ R, o ∈ sweepWords) (s : State) : Hands 0 R.length s (reportChanged R s) :=
  (Hands.of_words (P := []) (R := R) (fun x hx => by cases hx) hR (by rw [List.append_nil]; rfl)).wider (Nat.le_refl 0) (by simp)

theorem postChanged_hands {L : List Nat} (hL : ∀ o ∈ L, o ∈ sweepWords) (s : State) : Hands 0 L.length s (postChanged L s) :=
  (Hands.of_words (P := L.map .changed) (R := []) (fun x hx => by
    obtain ⟨o, ho, rfl⟩ := List.mem_map.mp hx
    exact ⟨o, hL o ho, .inl rfl⟩) (fun o ho => by cases ho) (by rw [List.map_nil, List.append_nil]; rfl)).wider (Nat.le_refl 0) (by simp)

theorem setMuster_hands (m : Muster) (s : State) : Hands 0 4 s (setMuster m s) :=
  (Hands.of_words (P := musterWords.map .always) (R := []) (fun x hx => by
    obtain ⟨o, ho, rfl⟩ := List.mem_map.mp hx
    have hwords : ∀ o ∈ musterWords, o ∈ sweepWords := by decide
    exact ⟨o, hwords o ho, .inr rfl⟩) (fun o ho => by cases ho) (by rw [List.map_nil, List.append_nil]; rfl)).wider (Nat.le_refl 0) (by decide)

theorem segmentWords_swept (i : Fin 16) : ∀ o ∈ segmentWords i, o ∈ sweepWords := by revert i; decide

theorem changeSegment_hands (i : Fin 16) (f : Segment → Segment) (s : State) : Hands 0 3 s (changeSegment i f s) :=
  (Hands.of_words (P := []) (R := segmentWords i) (fun x hx => by cases hx) (segmentWords_swept i)
    (by rw [List.append_nil]; rfl)).wider (Nat.le_refl 0) (by show 0 + (segmentWords i).length ≤ 3; rfl)

theorem setList_hands (l : List PartFrame) (s : State) : Hands 0 1 s (setList l s) :=
  (Hands.of_words (P := []) (R := [0x170]) (fun x hx => by cases hx) (by decide) (by rw [List.append_nil]; rfl)).wider (Nat.le_refl 0)
    (by decide)

theorem requestEvacuate_hands (s : State) : Hands 0 0 s (requestEvacuate s) := by
  unfold requestEvacuate
  split
  · split
    · exact Hands.of_words (P := []) (R := []) (fun x hx => by cases hx) (fun o ho => by cases ho)
        (by rw [List.append_nil, List.map_nil, List.append_nil]; rfl)
    · exact .refl s
  · exact .refl s

/-- A record where the ring has room hands on its words, in the place of the produce index, and the index raised. -/
theorem addRecord_hands (kind subject : Nat) (info : Word) (hrun : s.run = true) (hconsume : s.fault.consume = 0)
    (hlow : 1 ≤ s.fault.produce.toNat) (hhigh : s.fault.produce.toNat < 64) : Hands 1 5 s (addRecord kind subject info s) := by
  have hocc : occupancy s.fault = s.fault.produce.toNat := by
    unfold occupancy
    rw [hconsume]
    simp
  have hnext : (s.fault.produce + 1).toNat = s.fault.produce.toNat + 1 := by
    rw [BitVec.toNat_add]
    show (s.fault.produce.toNat + 1) % 65536 = _
    omega
  rw [addRecord_room kind subject info hrun (by omega) (by omega)]
  refine ⟨rfl, rfl, rfl, rfl, rfl, rfl, rfl, rfl, rfl, rfl, ?_, ?_, (recordWords s kind subject info ++ [produceWrite s]).map .write, [],
    by rw [List.append_nil], Nat.le_refl 5, fun x hx => ?_, fun x hx => (by cases hx), rfl⟩
  · exact (Nat.le_succ _).trans hnext.symm.le
  · exact hnext.le
  · obtain ⟨w, hw, rfl⟩ := List.mem_map.mp hx
    have place (j : Nat) (hj : j < 16) : ∃ o, 16 + 16 * s.fault.produce.toNat ≤ o ∧ o < 16 + 16 * (s.fault.produce + 1).toNat
        ∧ eventsAddr s (16 + 16 * (s.fault.produce.toNat % 64) + j) = eventsAddr s o :=
      ⟨16 + 16 * s.fault.produce.toNat + j, by omega, by omega, by rw [Nat.mod_eq_of_lt hhigh]⟩
    rcases List.mem_append.mp hw with hw | hw
    · simp only [recordWords, List.mem_cons, List.not_mem_nil, or_false] at hw
      rcases hw with rfl | rfl | rfl | rfl
      · exact .inr ⟨rfl, place 0 (by decide)⟩
      · exact .inr ⟨rfl, place 4 (by decide)⟩
      · exact .inr ⟨rfl, place 8 (by decide)⟩
      · exact .inr ⟨rfl, place 12 (by decide)⟩
    · rw [List.mem_singleton.mp hw]
      exact .inl ⟨rfl, rfl⟩

/-- The records of the later causes (R53). -/
theorem laterRecords_hands (l : List TakenCause) (hrun : s.run = true) (hconsume : s.fault.consume = 0)
    (hlow : 1 ≤ s.fault.produce.toNat) (hhigh : s.fault.produce.toNat + l.length ≤ 64) :
    Hands l.length (5 * l.length) s (l.foldl (fun s c => laterRecord c s) s) := by
  induction l generalizing s with
  | nil => exact .refl s
  | cons c l ih =>
    rw [List.length_cons] at hhigh ⊢
    have first : Hands 1 5 s (laterRecord c s) := addRecord_hands _ _ _ hrun hconsume hlow (by omega)
    have hfirst := first.high
    have hfirst' := first.low
    refine (first.trans (ih (first.run.trans hrun) (first.consume.trans hconsume) (by omega) (by omega))).wider (by omega) (by omega)

end
end Sys2Proof.Machine
end

section
/-! PROOFS. The units at the end of RUN entry's event: the level is derived, the marked queues are served, the EVACUATE frame is taken, and
nothing is left to do (R47, R54, R92, R142). -/

set_option Elab.async false

namespace Sys2Proof.Machine

open Sys2Proof.Config

section
variable {s t u v s0 : State} {r k n : Nat}

/-! ## An empty road -/

/-- No truck waits, holds or stands in the table, and at most `n` frames wait or are requested. -/
structure Idle (n : Nat) (s : State) : Prop where
  segments : ∀ i : Fin 16, s.road.segments[i].holders = [] ∧ s.road.segments[i].queue = []
  trucks : ∀ p : Fin 32, s.road.trucks[p] = none
  frames : s.ring.list.length + s.ring.requests.length ≤ n

theorem Idle.of_same (h : Idle n s) (hroad : t.road = s.road := by rfl) (hlist : t.ring.list = s.ring.list := by rfl)
    (hreq : t.ring.requests = s.ring.requests := by rfl) : Idle n t :=
  ⟨by rw [hroad]; exact h.segments, by rw [hroad]; exact h.trucks, by rw [hlist, hreq]; exact h.frames⟩

theorem Idle.marked (h : Idle n s) (i : Fin 16) (b : Bool) : Idle n (changeSegment i (fun g => { g with marked := b }) s) := by
  refine ⟨fun j => ?_, h.trucks, h.frames⟩
  by_cases hj : j = i
  · subst hj
    rw [changeSegment_get]
    exact h.segments j
  · rw [(changeSegment_only i _ s).others j hj]
    exact h.segments j

theorem Idle.forgettable (h : Idle n s) : firstForgettable s = none := findIndex_none.mpr fun p => by rw [h.trucks p]

theorem addRecord_aside (kind subject : Nat) (info : Word) (s : State) : (addRecord kind subject info s).road = s.road
    ∧ (addRecord kind subject info s).ring = s.ring := by
  unfold addRecord
  split
  · exact ⟨rfl, rfl⟩
  · split
    · exact ⟨rfl, rfl⟩
    · exact ⟨rfl, rfl⟩

theorem Idle.laterRecords (h : Idle n s) (l : List TakenCause) : Idle n (l.foldl (fun s c => laterRecord c s) s) :=
  foldl_keeps (Idle n) (fun u c hu => by
    obtain ⟨hroad, hring⟩ : (laterRecord c u).road = u.road ∧ (laterRecord c u).ring = u.ring := addRecord_aside _ _ _ u
    exact hu.of_same hroad (by rw [hring]) (by rw [hring])) l s h

theorem evacuateSegment_idle (h : Idle n s) (i : Fin 16) :
    evacuateSegment i s = changeSegment i (fun g => { g with marked := true }) s := by
  obtain ⟨hholders, hqueue⟩ := h.segments i
  unfold evacuateSegment
  dsimp only
  rw [hholders, hqueue]
  rfl

/-- On an empty road the entry into EVACUATE marks queues and does nothing else (R145). -/
theorem evacuateRoads_idle (h : Idle n s) : Hands 0 48 s (evacuateRoads s) ∧ Idle n (evacuateRoads s) := by
  have turns (l : List (Fin 16)) (u : State) (hu : Idle n u) :
      Hands 0 (3 * l.length) u (l.foldl (fun v i => if controlled v i then evacuateSegment i v else v) u)
        ∧ Idle n (l.foldl (fun v i => if controlled v i then evacuateSegment i v else v) u) := by
    induction l generalizing u with
    | nil => exact ⟨.refl u, hu⟩
    | cons i l ih =>
      have one : Hands 0 3 u (if controlled u i then evacuateSegment i u else u)
          ∧ Idle n (if controlled u i then evacuateSegment i u else u) := by
        split
        · rw [evacuateSegment_idle hu]
          exact ⟨changeSegment_hands i _ u, hu.marked i true⟩
        · exact ⟨(Hands.refl u).wider (Nat.le_refl 0) (by decide), hu⟩
      obtain ⟨hands, idle⟩ := one
      obtain ⟨hands', idle'⟩ := ih _ idle
      exact ⟨(hands.trans hands').wider (Nat.le_refl 0) (by rw [List.length_cons]; omega), idle'⟩
  exact turns (List.finRange 16) s h

/-! ## The level derived -/

/-- The level unit after RUN entry's trips: below EVACUATE, with a member in the ALERT cause set, and the cells' causes taken. -/
structure Tripped (s : State) : Prop where
  run : s.run = true
  level : s.level.level = .normal
  alerts : s.level.alerts ≠ []
  faults : ∀ c ∈ s.level.taken, c.fault = 0
  taken : s.level.taken.length ≤ 4
  consume : s.fault.consume = 0
  low : 1 ≤ s.fault.produce.toNat
  high : s.fault.produce.toNat ≤ 5

theorem levelOf_of_alerts {l : LevelUnit} (h : l.alerts ≠ []) : levelOf l ≠ .normal := by
  unfold levelOf
  split
  · decide
  · split
    · rename_i he
      exact absurd (List.isEmpty_iff.mp he) h
    · decide

/-- The detail of the record of a change from NORMAL, as the cause record stands after it (R53, R54). -/
def enteredDetail (after : Level) (cause : Option Cause) : Word :=
  detail ([(2, 0), (2, Level.code after)] ++ match cause with
    | some c => [(2, CauseKind.code c.kind), (12, c.node.toNat), (8, c.seq.toNat), (4, c.reason.toNat)]
    | none => [])

theorem Tripped.room (h : Tripped s) : occupancy s.fault = s.fault.produce.toNat := by
  unfold occupancy
  rw [h.consume]
  simp

/-- The change of the level after RUN entry's trips is one record (R54). -/
theorem Tripped.leveled (h : Tripped s) : leveled .normal (levelOf s.level) s = { s with
    fault := { s.fault with produce := s.fault.produce + 1 }
    path := { s.path with posts := s.path.posts
      ++ (recordWords s 0x20 0 (enteredDetail (levelOf s.level) s.level.cause) ++ [produceWrite s]).map .write }
    level := { s.level with level := levelOf s.level, taken := [] } } := by
  have hroom := h.room
  have hlow := h.low
  have hhigh := h.high
  have hrecord (subject : Nat) (info : Word) := addRecord_room (s := s) 0x20 subject info h.run (by omega) (by omega)
  have hchange : changeRecord .normal (levelOf s.level) s = addRecord 0x20 0 (enteredDetail (levelOf s.level) s.level.cause) s := by
    cases hc : s.level.cause with
    | none =>
      have hof := levelOf_of_no_cause hc
      unfold changeRecord
      split
      · rename_i he _
        exact absurd he hof
      · rfl
    | some c =>
      have hof : levelOf s.level = .evacuate := levelOf_of_cause hc
      have hsubject : (s.level.taken.head?.map (·.fault)).getD 0 = 0 := by
        cases ht : s.level.taken with
        | nil => rfl
        | cons d l => exact h.faults d (by rw [ht]; exact List.mem_cons_self)
      unfold changeRecord
      simp only [hof, hc, hsubject]
      rfl
  unfold Machine.leveled
  rw [hchange, hrecord]

/-- What the derivation of the level hands on behind its record, and what it leaves the units to do. -/
theorem Tripped.derived (h : Tripped s) (hidle : Idle 0 s) :
    Hands 3 72 (Machine.leveled .normal (levelOf s.level) s) (deriveLevel s) ∧ Idle 1 (deriveLevel s)
      ∧ (deriveLevel s).level.level = levelOf s.level := by
  have hof := levelOf_of_alerts h.alerts
  have hdue : levelOf s.level ≠ s.level.level := by rw [h.level]; exact hof
  have hleveled := h.leveled
  have base : Idle 0 (Machine.leveled .normal (levelOf s.level) s) := by
    rw [hleveled]
    exact hidle.of_same
  have hlevel : (Machine.leveled .normal (levelOf s.level) s).level.level = levelOf s.level := by rw [hleveled]
  have hrun : (Machine.leveled .normal (levelOf s.level) s).run = true := by rw [hleveled]; exact h.run
  have hconsume : (Machine.leveled .normal (levelOf s.level) s).fault.consume = 0 := by rw [hleveled]; exact h.consume
  have hproduce : (Machine.leveled .normal (levelOf s.level) s).fault.produce.toNat = s.fault.produce.toNat + 1 := by
    have hhigh := h.high
    rw [hleveled]
    show (s.fault.produce + 1).toNat = _
    rw [BitVec.toNat_add]
    show (s.fault.produce.toNat + 1) % 65536 = _
    omega
  have htail : s.level.taken.tail.length ≤ 3 := by
    have := h.taken
    rw [List.length_tail]
    omega
  have hhigh := h.high
  rw [deriveLevel_eq hdue, h.level, levelHanded_eq, if_neg (show Level.normal ≠ .evacuate by decide),
    if_neg (show Level.normal ≠ .evacuate by decide)]
  generalize Machine.leveled .normal (levelOf s.level) s = v at base hlevel hrun hconsume hproduce ⊢
  have changed : ∃ w, (if levelOf s.level = .evacuate then musterEntry (postChanged levelWords
        (if levelOf s.level = .evacuate then requestEvacuate (reportChanged [0x110] (tellReaders .normal (levelOf s.level) v))
          else reportChanged [0x110] (tellReaders .normal (levelOf s.level) v)))
      else postChanged levelWords
        (if levelOf s.level = .evacuate then requestEvacuate (reportChanged [0x110] (tellReaders .normal (levelOf s.level) v))
          else reportChanged [0x110] (tellReaders .normal (levelOf s.level) v))) = w ∧ Hands 0 57 v w ∧ Idle 1 w := by
    refine ⟨_, rfl, ?_⟩
    split
    · rename_i hevac
      obtain ⟨roads, idle⟩ := evacuateRoads_idle base
      have told : tellReaders .normal (levelOf s.level) v = { evacuateRoads v with reevalDue := true } := if_pos hevac
      generalize evacuateRoads v = x at roads idle told
      have due : Hands 0 0 x { x with reevalDue := true } :=
        Hands.of_words (P := []) (R := []) (fun x hx => by cases hx) (fun o ho => by cases ho)
          (by rw [List.append_nil, List.map_nil, List.append_nil])
      rw [told]
      have reported := (roads.trans due).trans (reportChanged_hands (R := [0x110]) (by decide) _)
      have requested := reported.trans (requestEvacuate_hands _)
      have posted := requested.trans (postChanged_hands (L := levelWords) (by decide) _)
      refine ⟨(posted.trans (setMuster_hands _ _)).wider (by decide) (by decide), ?_⟩
      have asked : Idle 1 (requestEvacuate (reportChanged [0x110] { x with reevalDue := true })) := by
        have hframes := idle.frames
        unfold requestEvacuate
        split
        · split
          · refine ⟨idle.segments, idle.trucks, ?_⟩
            show x.ring.list.length + (x.ring.requests ++ [_]).length ≤ 1
            rw [List.length_append, List.length_singleton]
            omega
          · exact ⟨idle.segments, idle.trucks, hframes.trans (by decide)⟩
        · exact ⟨idle.segments, idle.trucks, hframes.trans (by decide)⟩
      exact asked.of_same
    · rename_i hbelow
      have told : tellReaders .normal (levelOf s.level) v = v := by
        unfold tellReaders
        rw [if_neg hbelow, if_neg (by decide)]
      rw [told]
      refine ⟨((reportChanged_hands (R := [0x110]) (by decide) v).trans (postChanged_hands (L := levelWords) (by decide) _)).wider
        (by decide) (by decide), ?_⟩
      exact Idle.of_same (s := v) ⟨base.segments, base.trucks, base.frames.trans (by decide)⟩
  obtain ⟨w, hw, hands, idle⟩ := changed
  rw [hw]
  have hlow' := hands.low
  have hhigh' := hands.high
  have later := laterRecords_hands s.level.taken.tail (hands.run.trans hrun) (hands.consume.trans hconsume) (by omega) (by omega)
  refine ⟨(hands.trans later).wider (by omega) (by omega), idle.laterRecords _, ?_⟩
  exact later.level.trans (hands.level.trans hlevel)

/-! ## The units at rest -/

/-- What the units find that have nothing left to do but to serve marked queues, to bring the muster summary up to date and to take a
frame. -/
structure Resting (s : State) : Prop where
  run : s.run = true
  level : levelOf s.level = s.level.level
  idle : Idle 1 s
  scan : s.path.scanCursor = 0
  followUp : s.path.followUp = none

theorem Resting.hands (h : Resting s) (hands : Hands r k s t) (hidle : Idle 1 t) : Resting t := by
  obtain ⟨P, R, hpath, -⟩ := hands.path
  refine ⟨hands.run.trans h.run, ?_, hidle, by rw [hpath]; exact h.scan, by rw [hpath]; exact h.followUp⟩
  rw [hands.level, ← h.level, levelOf, levelOf, hands.cause, hands.alerts]

theorem Resting.not_due (h : Resting s) : levelDue s = false := by
  simp [levelDue, h.level]

theorem Resting.units_step (h : Resting s) (ht : settleUnits s0 s = some t) : settleStep s0 s = some t := by
  have hfree : followUpFree s = false := by rw [followUpFree, h.followUp]; rfl
  rw [settleStep, hfree, ht]
  rfl

/-- One thing that the units do. -/
theorem Resting.step (h : Resting s) (ht : settleUnits s0 s = some t) : Hands 0 4 s t ∧ Resting t
    ∧ workLeft t + t.ring.requests.length < workLeft s + s.ring.requests.length := by
  have next (hands : Hands 0 4 s t) (hidle : Idle 1 t)
      (hless : workLeft t + t.ring.requests.length < workLeft s + s.ring.requests.length) : Hands 0 4 s t ∧ Resting t
        ∧ workLeft t + t.ring.requests.length < workLeft s + s.ring.requests.length := ⟨hands, h.hands hands hidle, hless⟩
  obtain ⟨-, ⟨hlevel, -⟩ | ⟨-, i, hi, rfl⟩ | ⟨-, -, p, hp, -⟩ | ⟨-, -, -, hstale, rfl⟩
      | ⟨-, hmarked, hforget, hstale, f, rest, hf, rfl⟩ | ⟨-, -, -, -, -, hbuild, -⟩⟩ := settleUnits_cases ht
  · rw [levelFirst, h.not_due] at hlevel
    cases hlevel
  · have hserve : serveSegment i s = changeSegment i (fun g => { g with marked := false }) s := by
      unfold serveSegment
      rw [(h.idle.segments i).2]
      rfl
    have hwork := workLeft_serve hi
    rw [hserve] at hwork next ⊢
    exact next ((changeSegment_hands i _ s).wider (Nat.le_refl 0) (by decide)) (h.idle.marked i false) (Nat.add_lt_add_right hwork _)
  · rw [h.idle.forgettable] at hp
    cases hp
  · exact next (setMuster_hands _ s) h.idle.of_same (Nat.add_lt_add_right (workLeft_muster hstale) _)
  · have hframes := h.idle.frames
    rw [hf, List.length_cons] at hframes
    have hlist : s.ring.list = [] := List.eq_nil_of_length_eq_zero (by omega)
    have hrest : rest = [] := List.eq_nil_of_length_eq_zero (by omega)
    rw [takeRequest_empty (s := { s with ring := { s.ring with requests := rest } }) hlist] at next ⊢
    have dropped : Hands 0 0 s { s with ring := { s.ring with requests := rest } } :=
      Hands.of_words (P := []) (R := []) (fun x hx => by cases hx) (fun o ho => by cases ho)
        (by rw [List.append_nil, List.map_nil, List.append_nil])
    refine next ((dropped.trans (setList_hands [f] _)).wider (Nat.le_refl 0) (by decide)) ⟨h.idle.segments, h.idle.trucks, ?_⟩ ?_
    · show [f].length + rest.length ≤ 1
      rw [hrest]
      exact Nat.le_refl 1
    · show workLeft s + rest.length < workLeft s + s.ring.requests.length
      rw [hf, List.length_cons]
      omega
  · have hscan := h.scan
    simp [canBuild, hscan] at hbuild

/-- The units come to rest. -/
theorem Resting.settles (h : Resting s) (hn : workLeft s + s.ring.requests.length ≤ n) :
    ∃ k ≤ n, ∃ t, SettlesIn k s0 s t ∧ Hands 0 (4 * n) s t ∧ Resting t ∧ settleUnits s0 t = none := by
  induction n generalizing s with
  | zero =>
    cases hunits : settleUnits s0 s with
    | none => exact ⟨0, Nat.le_refl 0, s, .refl s0 s, .refl s, h, hunits⟩
    | some t =>
      obtain ⟨-, -, hless⟩ := h.step hunits
      omega
  | succ n ih =>
    cases hunits : settleUnits s0 s with
    | none => exact ⟨0, Nat.zero_le _, s, .refl s0 s, (Hands.refl s).wider (Nat.le_refl 0) (Nat.zero_le _), h, hunits⟩
    | some t =>
      obtain ⟨hands, resting, hless⟩ := h.step hunits
      obtain ⟨k, hk, u, settles, hands', resting', hrest⟩ := ih resting (by omega)
      exact ⟨1 + k, by omega, u, (SettlesIn.of_step (h.units_step hunits)).trans settles,
        (hands.trans hands').wider (by omega) (by omega), resting', hrest⟩


end
end Sys2Proof.Machine
end

section
/-! PROOFS. How swept words and later records enter the own-write queue behind the first records of RUN entry, and what a stall leaves
told (R70, R71, R73). -/

set_option Elab.async false

namespace Sys2Proof.Machine

open Sys2Proof.Config

section
variable {s t u v s0 : State} {w : OwnWrite} {o : Nat}

/-! ## A stall is told by the wait cycles -/

theorem enterNew_waits (w : OwnWrite) (s : State) :
    (s.path.queue.length < 32 ∧ enterNew w s = { s with path := { s.path with queue := s.path.queue ++ [w] } })
      ∨ (enterNew w s).waitCycles = s.waitCycles + 1 := by
  rcases Nat.lt_or_ge s.path.queue.length 32 with hroom | hfull
  · exact .inl ⟨hroom, enterNew_room w hroom⟩
  · obtain ⟨e, rest, hq⟩ := List.exists_cons_of_length_pos (l := s.path.queue) (by omega)
    obtain ⟨-, -, hwait, -⟩ := stallEnter_leaves hq w
    obtain ⟨-, -, -, -, -, hfault, -⟩ := recordFault_within .ownWriteStall (.own 1 0 0) (stallEnter w s)
    right
    rw [enterNew_full w hfull, hfault, hwait]

theorem enterNew_waits_le (w : OwnWrite) (s : State) : s.waitCycles ≤ (enterNew w s).waitCycles := by
  rcases enterNew_waits w s with ⟨-, he⟩ | he
  · rw [he]
  · omega

theorem enterQueue_waits_le (w : OwnWrite) (s : State) : s.waitCycles ≤ (enterQueue w s).waitCycles := by
  unfold enterQueue
  split
  · split
    · exact Nat.le_refl _
    · exact Nat.le_refl _
    · exact Nat.le_refl _
  · exact enterNew_waits_le w s

theorem enterMirror_waits_le (o : Nat) (s : State) : s.waitCycles ≤ (enterMirror o s).waitCycles :=
  enterQueue_waits_le _ { s with path := { s.path with shown := (o, mirror s o) :: s.path.shown } }

theorem enterPost_waits_le (x : Post) (s : State) : s.waitCycles ≤ (enterPost s0 x s).waitCycles := by
  unfold enterPost
  split
  · exact enterQueue_waits_le _ s
  · split
    · exact Nat.le_refl _
    · exact enterMirror_waits_le _ s
  · split
    · exact enterMirror_waits_le _ s
    · exact Nat.le_refl _

theorem settleStep_waits (h : settleStep s0 s = some t) : s.waitCycles ≤ t.waitCycles := by
  rcases settleStep_cases h with ⟨-, rfl⟩ | ⟨-, hu⟩ | ⟨-, -, hp⟩
  · unfold enterFollowUp
    split
    · exact enterNew_waits_le _ { s with path := { s.path with followUp := none } }
    · exact Nat.le_refl _
  · obtain ⟨-, -, -, -, -, hwait, -⟩ := settleUnits_beside hu
    exact hwait.symm.le
  · rcases settlePath_cases hp with ⟨x, rest, -, rfl⟩ | ⟨x, rest, -, -, rfl⟩ | ⟨d, -, -, -, rfl⟩ | ⟨-, -, -, -, rfl⟩
    · exact enterPost_waits_le x { s with path := { s.path with posts := rest } }
    · exact enterPost_waits_le x { s with path := { s.path with reports := rest } }
    · exact enterQueue_waits_le _ { s with path := { s.path with outcome := none } }
    · exact Nat.le_refl _

theorem settle_waits (n : Nat) (s : State) : s.waitCycles ≤ (settle n s0 s).waitCycles := by
  induction n generalizing s with
  | zero => exact Nat.le_refl _
  | succ n ih =>
    cases hstep : settleStep s0 s with
    | none => rw [settle_of_none _ hstep]
    | some t =>
      rw [settle_of_step hstep]
      exact (settleStep_waits hstep).trans (ih t)

theorem levelEvents_waits (n : Nat) (s : State) : s.waitCycles ≤ (levelEvents n s).waitCycles := by
  induction n generalizing s with
  | zero => exact Nat.le_refl _
  | succ n ih =>
    unfold levelEvents
    split
    · exact (settle_waits settleBound s).trans (ih _)
    · exact Nat.le_refl _

theorem sweepPut_waits (s : State) : (sweepPut s).waitCycles = s.waitCycles := by
  unfold sweepPut
  split
  · rfl
  · split
    · split
      · rfl
      · rfl
    · rfl

theorem enterQueue_unqueued (h : queued s.path.queue w.addr = false) : enterQueue w s = enterNew w s := by
  rw [enterQueue, h]
  rfl

/-! ## What may stand behind the first records -/

/-- The state with this path unit. -/
def onPath (u : State) (p : PathUnit) : State := { u with path := p }

/-- An own-write behind the first records: a swept word with its value, or a word of a record in a place from `lo` up to `hi`. -/
def LaterEntry (u : State) (lo hi : Nat) (w : OwnWrite) : Prop :=
  (∃ o ∈ sweepWords, w = mirrorWrite u o) ∨ (w.kind = .plain ∧ ∃ o, 16 + 16 * lo ≤ o ∧ o < 16 + 16 * hi ∧ w.addr = eventsAddr u o)

/-- The own-writes of the first records: the identity words, the produce index, and records in places below `lo`. -/
structure FirstEntries (u : State) (lo : Nat) (q : List OwnWrite) : Prop where
  own : ∀ w ∈ q, (∃ o < 16, w = mirrorWrite u o) ∨ (∃ o < 16 + 16 * lo, w.addr = eventsAddr u o)
  index : queued q (eventsAddr u 0) = true

theorem sweepWords_range : ∀ o ∈ sweepWords, 16 ≤ o ∧ o < 4096 := by decide +kernel

variable {lo hi : Nat} {q Q : List OwnWrite}

theorem LaterEntry.addr (h : LaterEntry u lo hi w) (hw : Apart u) (hhi : 16 + 16 * hi ≤ 2048) (ho : o < 4096)
    (ha : w.addr = reportAddr u o) : w = mirrorWrite u o := by
  rcases h with ⟨k, hk, rfl⟩ | ⟨-, k, -, hk, hka⟩
  · rw [hw.report (sweepWords_range k hk).2 ho ha]
  · exact absurd (ha.symm.trans hka) (hw.mixed ho (by omega))

theorem FirstEntries.addr (h : FirstEntries u lo q) (hmem : w ∈ q) (hw : Apart u) (hlo : 16 + 16 * lo ≤ 2048) (ho : o < 4096)
    (ha : w.addr = reportAddr u o) : w = mirrorWrite u o ∧ o < 16 := by
  rcases h.own w hmem with ⟨k, hk, rfl⟩ | ⟨k, hk, hka⟩
  · have hko := hw.report (by omega) ho ha
    exact ⟨by rw [hko], by omega⟩
  · exact absurd (ha.symm.trans hka) (hw.mixed ho (by omega))

/-- An own-write to a later place leaves the first records, and the later entries stay such. -/
theorem coalesce_later (hfirst : FirstEntries u lo q) (hw : Apart u) (hhi : 16 + 16 * hi ≤ 2048) (hlo : lo ≤ hi)
    (hQ : ∀ e ∈ Q, LaterEntry u lo hi e) {k : Nat} (hk : 16 + 16 * lo ≤ k) (hk' : k < 16 + 16 * hi) (ha : w.addr = eventsAddr u k) :
    coalesce (q ++ Q) w = q ++ coalesce Q w ∧ (∀ e ∈ coalesce Q w, LaterEntry u lo hi e)
      ∧ ∀ o ∈ sweepWords, mirrorWrite u o ∈ q ++ Q → mirrorWrite u o ∈ q ++ coalesce Q w := by
  have hfixed : coalesce q w = q := by
    refine coalesce_same fun e he hea => ?_
    rcases hfirst.own e he with ⟨j, hj, rfl⟩ | ⟨j, hj, hja⟩
    · exact absurd (hea.trans ha) (hw.mixed (by omega) (by omega))
    · have := hw.events (by omega) (by omega) (hja.symm.trans (hea.trans ha))
      omega
  have hsplit : coalesce (q ++ Q) w = q ++ coalesce Q w := by
    unfold coalesce at hfixed ⊢
    rw [List.map_append, hfixed]
  refine ⟨hsplit, fun e he => ?_, fun o ho hm => ?_⟩
  · obtain ⟨f, hf, rfl⟩ := List.mem_map.mp he
    split
    · rename_i hfa
      rcases hQ f hf with ⟨j, hj, rfl⟩ | ⟨hkind, j, hj, hj', hja⟩
      · exact absurd (hfa.trans ha) (hw.mixed (sweepWords_range j hj).2 (by omega))
      · exact .inr ⟨hkind, j, hj, hj', hja⟩
    · exact hQ f hf
  · rw [← hsplit]
    refine List.mem_map.mpr ⟨mirrorWrite u o, hm, if_neg fun he => ?_⟩
    exact hw.mixed (sweepWords_range o ho).2 (by omega) (he.trans ha)

/-! ## On the way into the queue -/

/-- The path unit on the way: behind the first records stand later entries, and what has been entered and what is still to enter add up to
the produce index `hi`. -/
structure Entering (u : State) (lo hi : Nat) (q : List OwnWrite) (p : PathUnit) : Prop where
  same : p = { u.path with
    queue := p.queue, followUp := p.followUp, shown := p.shown, posts := p.posts, reports := p.reports }
  queue : ∃ Q, p.queue = q ++ Q ∧ ∀ e ∈ Q, LaterEntry u lo hi e
  room : p.queue.length ≤ 32
  shown : ∀ o ∈ sweepWords, ∀ d, p.shown.lookup o = some d → mirrorWrite u o ∈ p.queue
  held : ∃ d, p.followUp = some d ∧ lastIndex p.posts d = word hi
  posts : ∀ x ∈ p.posts, LaterPost u lo hi x
  reports : ∀ x ∈ p.reports, ∃ o ∈ sweepWords, x = .changed o

/-- Each of these words is queued with its value, or still to enter. -/
def Owed (u : State) (must : List Nat) (p : PathUnit) : Prop :=
  ∀ o ∈ must, mirrorWrite u o ∈ p.queue ∨ .changed o ∈ p.posts ∨ .changed o ∈ p.reports

variable {p : PathUnit} {must : List Nat}

/-- The settings under which own-writes enter behind the first records. -/
structure Behind (u : State) (lo hi : Nat) (q : List OwnWrite) : Prop where
  apart : Apart u
  first : FirstEntries u lo q
  low : lo ≤ hi
  high : 16 + 16 * hi ≤ 2048

theorem Entering.queued_first (hp : Entering u lo hi q p) {a : Addr} (h : queued q a = true) : queued p.queue a = true := by
  obtain ⟨Q, hQ, -⟩ := hp.queue
  rw [hQ]
  exact queued_append h

theorem Entering.entry_addr (hb : Behind u lo hi q) (hp : Entering u lo hi q p) {e : OwnWrite} (he : e ∈ p.queue) (ho : o ∈ sweepWords)
    (ha : e.addr = reportAddr u o) : e = mirrorWrite u o := by
  obtain ⟨Q, hQ, hlater⟩ := hp.queue
  have hlow := hb.low
  have hhigh := hb.high
  obtain ⟨ho16, ho4⟩ := sweepWords_range o ho
  rw [hQ] at he
  rcases List.mem_append.mp he with he | he
  · have := (hb.first.addr he hb.apart (by omega) ho4 ha).2
    omega
  · exact (hlater e he).addr hb.apart hhigh ho4 ha

/-- A swept word enters with its value, or the queue stalls. -/
theorem Entering.mirror (hb : Behind u lo hi q) (hp : Entering u lo hi q p) (ho : o ∈ sweepWords) :
    (∃ p', enterMirror o (onPath u p) = onPath u p' ∧ Entering u lo hi q p' ∧ p'.posts = p.posts ∧ p'.reports = p.reports
        ∧ mirrorWrite u o ∈ p'.queue ∧ ∀ e ∈ p.queue, e ∈ p'.queue)
      ∨ (enterMirror o (onPath u p)).waitCycles ≠ 0 := by
  have htold : enterMirror o (onPath u p)
      = enterQueue (mirrorWrite u o) (onPath u { p with shown := (o, Machine.mirror u o) :: p.shown }) := rfl
  obtain ⟨Q, hQ, hlater⟩ := hp.queue
  have hshown (r : List OwnWrite) (hr : ∀ e ∈ p.queue, e ∈ r) (hm : mirrorWrite u o ∈ r) : ∀ k ∈ sweepWords, ∀ d,
      ((o, Machine.mirror u o) :: p.shown).lookup k = some d → mirrorWrite u k ∈ r := fun k hk d hd => by
    rw [List.lookup_cons] at hd
    by_cases hko : k = o
    · rw [hko]
      exact hm
    · rw [show (k == o) = false by simpa using hko] at hd
      exact hr _ (hp.shown k hk d hd)
  have hsame := hp.same
  rw [htold]
  rcases Bool.eq_false_or_eq_true (queued p.queue (reportAddr u o)) with hq | hq
  · have hmem : mirrorWrite u o ∈ p.queue := by
      obtain ⟨e, he, hea⟩ := List.any_eq_true.mp hq
      rw [← hp.entry_addr hb he ho (eq_of_beq hea)]
      exact he
    left
    refine ⟨{ p with shown := (o, Machine.mirror u o) :: p.shown }, ?_, ?_, rfl, rfl, hmem, fun e he => he⟩
    · refine enterQueue_same (s := onPath u { p with shown := (o, Machine.mirror u o) :: p.shown }) hmem rfl fun e he ha => ?_
      rw [hp.entry_addr hb he ho ha]
    · exact ⟨by rw [hsame], ⟨Q, hQ, hlater⟩, hp.room, hshown p.queue (fun e he => he) hmem, hp.held, hp.posts, hp.reports⟩
  · rw [enterQueue_unqueued (w := mirrorWrite u o) (s := onPath u { p with shown := (o, Machine.mirror u o) :: p.shown }) hq]
    rcases enterNew_waits (mirrorWrite u o) (onPath u { p with shown := (o, Machine.mirror u o) :: p.shown }) with ⟨hroom, he⟩ | he
    · left
      have hroom : p.queue.length < 32 := hroom
      have hin : mirrorWrite u o ∈ p.queue ++ [mirrorWrite u o] := List.mem_append_right _ List.mem_cons_self
      refine ⟨{ p with shown := (o, Machine.mirror u o) :: p.shown, queue := p.queue ++ [mirrorWrite u o] }, he, ?_, rfl, rfl, hin,
        fun e he => List.mem_append_left _ he⟩
      refine ⟨by rw [hsame], ⟨Q ++ [mirrorWrite u o], by rw [hQ, List.append_assoc], fun e he => ?_⟩, ?_,
        hshown _ (fun e he => List.mem_append_left _ he) hin, hp.held, hp.posts, hp.reports⟩
      · exact (List.mem_append.mp he).elim (hlater e) fun he => .inl ⟨o, ho, List.mem_singleton.mp he⟩
      · show (p.queue ++ [mirrorWrite u o]).length ≤ 32
        rw [List.length_append, List.length_singleton]
        omega
    · right
      omega

/-- An own-write handed on later enters, or the queue stalls. -/
theorem Entering.write (hb : Behind u lo hi q) (hp : Entering u lo hi q { p with posts := .write w :: p.posts })  :
    (∃ p', enterQueue w (onPath u p) = onPath u p' ∧ Entering u lo hi q p' ∧ p'.posts = p.posts ∧ p'.reports = p.reports
        ∧ ∀ o ∈ sweepWords, mirrorWrite u o ∈ p.queue → mirrorWrite u o ∈ p'.queue)
      ∨ (enterQueue w (onPath u p)).waitCycles ≠ 0 := by
  obtain ⟨Q, hQ, hlater⟩ := hp.queue
  have hQ : p.queue = q ++ Q := hQ
  have hsame : p = { u.path with
      queue := p.queue, followUp := p.followUp, shown := p.shown, posts := p.posts, reports := p.reports } := by
    have h := hp.same
    exact congrArg (fun r : PathUnit => { r with posts := p.posts }) h
  obtain ⟨d, hd, hindex⟩ := hp.held
  have hd : p.followUp = some d := hd
  have hposts : ∀ x ∈ p.posts, LaterPost u lo hi x := fun x hx => hp.posts x (List.mem_cons_of_mem _ hx)
  rcases hp.posts _ List.mem_cons_self with ⟨hkind, ha⟩ | ⟨hkind, k, hk, hk', ha⟩
  · have hq : queued p.queue w.addr = true := by rw [hQ, ha]; exact queued_append hb.first.index
    have hindex : lastIndex p.posts w.data = word hi := by
      have hnext : nextIndex d (.write w) = w.data := if_pos hkind
      rw [← hindex, ← hnext]
      rfl
    left
    refine ⟨{ p with followUp := some w.data }, enterQueue_trailing (s := onPath u p) hq hkind, ?_, rfl, rfl, fun o _ h => h⟩
    exact ⟨by rw [hsame], ⟨Q, hQ, hlater⟩, hp.room, hp.shown, ⟨w.data, rfl, hindex⟩, hposts, hp.reports⟩
  · have hindex : lastIndex p.posts d = word hi := by
      have hnext : nextIndex d (.write w) = d := if_neg (by rw [hkind]; decide)
      have hwhole : lastIndex p.posts (nextIndex d (.write w)) = word hi := hindex
      rwa [hnext] at hwhole
    rcases Bool.eq_false_or_eq_true (queued p.queue w.addr) with hq | hq
    · obtain ⟨hsplit, hlater', hkept⟩ := coalesce_later hb.first hb.apart hb.high hb.low hlater hk hk' ha
      left
      refine ⟨{ p with queue := coalesce p.queue w }, ?_, ?_, rfl, rfl, fun o ho hm => ?_⟩
      · unfold enterQueue
        rw [if_pos (show queued (onPath u p).path.queue w.addr = true from hq), hkind]
        rfl
      · refine ⟨by rw [hsame], ⟨coalesce Q w, by rw [hQ]; exact hsplit, hlater'⟩, ?_, fun o ho e he => ?_, ⟨d, hd, hindex⟩, hposts,
          hp.reports⟩
        · show (coalesce p.queue w).length ≤ 32
          unfold coalesce
          rw [List.length_map]
          exact hp.room
        · show mirrorWrite u o ∈ coalesce p.queue w
          rw [hQ, hsplit]
          exact hkept o ho (hQ ▸ hp.shown o ho e he)
      · show mirrorWrite u o ∈ coalesce p.queue w
        rw [hQ, hsplit]
        exact hkept o ho (hQ ▸ hm)
    · rw [enterQueue_unqueued (w := w) (s := onPath u p) hq]
      rcases enterNew_waits w (onPath u p) with ⟨hroom, he⟩ | he
      · left
        have hroom : p.queue.length < 32 := hroom
        refine ⟨{ p with queue := p.queue ++ [w] }, he, ?_, rfl, rfl, fun o _ h => List.mem_append_left _ h⟩
        refine ⟨by rw [hsame], ⟨Q ++ [w], by rw [hQ, List.append_assoc], fun e he => ?_⟩, ?_,
          fun o ho e he => List.mem_append_left _ (hp.shown o ho e he), ⟨d, hd, hindex⟩, hposts, hp.reports⟩
        · exact (List.mem_append.mp he).elim (hlater e) fun he =>
            .inr (List.mem_singleton.mp he ▸ ⟨hkind, k, hk, hk', ha⟩)
        · show (p.queue ++ [w]).length ≤ 32
          rw [List.length_append, List.length_singleton]
          omega
      · right
        omega

end
end Sys2Proof.Machine
end

section
/-! PROOFS. The own-writes behind the first records of RUN entry have entered, the outcome word last, where the queue has not stalled
(R71, R164, R167). -/

set_option Elab.async false

namespace Sys2Proof.Machine

open Sys2Proof.Config

section
variable {s t u v s0 : State} {w : OwnWrite} {o : Nat} {lo hi n : Nat} {q Q : List OwnWrite} {p : PathUnit} {must : List Nat}

/-- A word named as changed has entered, where it was not left as it was, or the queue stalls. -/
theorem Entering.changed (hb : Behind u lo hi q) (hp : Entering u lo hi q p) (ho : o ∈ sweepWords) :
    (∃ p', enterPost s0 (.changed o) (onPath u p) = onPath u p' ∧ Entering u lo hi q p' ∧ p'.posts = p.posts ∧ p'.reports = p.reports
        ∧ (Machine.mirror s0 o ≠ Machine.mirror u o → mirrorWrite u o ∈ p'.queue) ∧ ∀ e ∈ p.queue, e ∈ p'.queue)
      ∨ (enterPost s0 (.changed o) (onPath u p)).waitCycles ≠ 0 := by
  rw [enterPost_changed]
  split
  · rcases hp.mirror hb ho with ⟨p', he, hp', hposts, hreports, hin, hkept⟩ | he
    · exact .inl ⟨p', he, hp', hposts, hreports, fun _ => hin, hkept⟩
    · exact .inr he
  · rename_i hleft
    refine .inl ⟨p, rfl, hp, rfl, rfl, fun hn => ?_, fun e he => he⟩
    have hshown := not_not.mp (not_or.mp hleft).1
    cases hl : p.shown.lookup o with
    | none => exact absurd ((shownValue_of_none (s := onPath u p) hl).symm.trans hshown) hn
    | some d => exact hp.shown o ho d hl

/-- A word named whatever its value has entered, or the queue stalls. -/
theorem Entering.always (hb : Behind u lo hi q) (hp : Entering u lo hi q p) (ho : o ∈ sweepWords) :
    (∃ p', enterPost s0 (.always o) (onPath u p) = onPath u p' ∧ Entering u lo hi q p' ∧ p'.posts = p.posts ∧ p'.reports = p.reports
        ∧ ∀ e ∈ p.queue, e ∈ p'.queue)
      ∨ (enterPost s0 (.always o) (onPath u p)).waitCycles ≠ 0 := by
  rw [enterPost_always]
  split
  · exact .inl ⟨p, rfl, hp, rfl, rfl, fun e he => he⟩
  · rcases hp.mirror hb ho with ⟨p', he, hp', hposts, hreports, -, hkept⟩ | he
    · exact .inl ⟨p', he, hp', hposts, hreports, hkept⟩
    · exact .inr he

/-- A post that is no own-write leaves the way as it is once it is taken up. -/
theorem Entering.dropPost {x : Post} (hp : Entering u lo hi q { p with posts := x :: p.posts }) (hx : ∀ d, nextIndex d x = d) :
    Entering u lo hi q p := by
  obtain ⟨d, hd, hindex⟩ := hp.held
  have hwhole : lastIndex p.posts (nextIndex d x) = word hi := hindex
  rw [hx] at hwhole
  exact ⟨congrArg (fun r : PathUnit => { r with posts := p.posts }) hp.same, hp.queue, hp.room, hp.shown, ⟨d, hd, hwhole⟩,
    fun y hy => hp.posts y (List.mem_cons_of_mem _ hy), hp.reports⟩

theorem Entering.dropReport {x : Post} (hp : Entering u lo hi q { p with reports := x :: p.reports }) : Entering u lo hi q p :=
  ⟨congrArg (fun r : PathUnit => { r with reports := p.reports }) hp.same, hp.queue, hp.room, hp.shown, hp.held, hp.posts,
    fun y hy => hp.reports y (List.mem_cons_of_mem _ hy)⟩

/-- What is owed stays so where the queue loses no swept word. -/
theorem Owed.next {p' : PathUnit} {x : Post} {posts reports : List Post} (h : Owed u must p) (hmust : ∀ o ∈ must, o ∈ sweepWords)
    (hsplit : ∀ y, y ∈ p.posts ∨ y ∈ p.reports → y = x ∨ y ∈ posts ∨ y ∈ reports) (hposts : p'.posts = posts)
    (hreports : p'.reports = reports)
    (hkept : ∀ o ∈ sweepWords, mirrorWrite u o ∈ p.queue → mirrorWrite u o ∈ p'.queue)
    (hx : ∀ o ∈ must, x = .changed o → mirrorWrite u o ∈ p'.queue) : Owed u must p' := fun o ho => by
  rw [hposts, hreports]
  rcases h o ho with hq | hp
  · exact .inl (hkept o (hmust o ho) hq)
  · rcases hsplit _ hp with hy | hy
    · exact .inl (hx o ho hy.symm)
    · exact .inr hy

/-- The first thing handed on enters, or the queue stalls. -/
theorem Entering.post (hb : Behind u lo hi q) {x : Post} (hp : Entering u lo hi q { p with posts := x :: p.posts })
    (hmust : ∀ o ∈ must, o ∈ sweepWords ∧ Machine.mirror s0 o ≠ Machine.mirror u o) :
    (∃ p', enterPost s0 x (onPath u p) = onPath u p' ∧ Entering u lo hi q p' ∧ p'.posts = p.posts ∧ p'.reports = p.reports
        ∧ (Owed u must { p with posts := x :: p.posts } → Owed u must p'))
      ∨ (enterPost s0 x (onPath u p)).waitCycles ≠ 0 := by
  have hsplit : ∀ y, y ∈ x :: p.posts ∨ y ∈ p.reports → y = x ∨ y ∈ p.posts ∨ y ∈ p.reports := fun y hy =>
    hy.elim (fun h => (List.mem_cons.mp h).imp_right .inl) fun h => .inr (.inr h)
  have hswept : ∀ o ∈ must, o ∈ sweepWords := fun o ho => (hmust o ho).1
  cases x with
  | write w =>
    rcases hp.write hb with ⟨p', he, hp', hposts, hreports, hkept⟩ | he
    · exact .inl ⟨p', he, hp', hposts, hreports, fun h => h.next hswept hsplit hposts hreports hkept fun o _ hx => by cases hx⟩
    · exact .inr he
  | changed o =>
    have ho : o ∈ sweepWords := hp.posts _ List.mem_cons_self
    rcases (hp.dropPost fun _ => rfl).changed (s0 := s0) hb ho with ⟨p', he, hp', hposts, hreports, hin, hkept⟩ | he
    · refine .inl ⟨p', he, hp', hposts, hreports, fun h => h.next hswept hsplit hposts hreports (fun _ _ => hkept _) fun k hk hx => ?_⟩
      cases hx
      exact hin (hmust _ hk).2
    · exact .inr he
  | always o =>
    have ho : o ∈ sweepWords := hp.posts _ List.mem_cons_self
    rcases (hp.dropPost fun _ => rfl).always (s0 := s0) hb ho with ⟨p', he, hp', hposts, hreports, hkept⟩ | he
    · exact .inl ⟨p', he, hp', hposts, hreports, fun h => h.next hswept hsplit hposts hreports (fun _ _ => hkept _)
        fun o _ hx => by cases hx⟩
    · exact .inr he

theorem Entering.settleStep (hb : Behind u lo hi q) (hp : Entering u lo hi q p) (hunits : settleUnits s0 u = none) :
    Machine.settleStep s0 (onPath u p) = settlePath s0 (onPath u p) := by
  have hscan : p.scanCursor = u.path.scanCursor := (congrArg PathUnit.scanCursor hp.same).trans rfl
  have hindex := hp.queued_first hb.first.index
  have hfree : followUpFree (onPath u p) = false := by
    show (p.followUp.isSome && !queued p.queue (eventsAddr u 0)) = false
    rw [hindex, Bool.not_true, Bool.and_false]
  have hrest : settleUnits s0 (onPath u p) = none := settleUnits_withPath hunits hscan
  rw [Machine.settleStep, hfree, hrest]
  rfl

/-- One thing that is handed on or reported enters, or the queue stalls. -/
theorem Entering.step (hb : Behind u lo hi q) (hp : Entering u lo hi q p) (hunits : settleUnits s0 u = none)
    (hmust : ∀ o ∈ must, o ∈ sweepWords ∧ Machine.mirror s0 o ≠ Machine.mirror u o) (hn : p.posts.length + p.reports.length = n + 1) :
    ∃ t, Machine.settleStep s0 (onPath u p) = some t
      ∧ ((∃ p', t = onPath u p' ∧ Entering u lo hi q p' ∧ p'.posts.length + p'.reports.length = n
          ∧ (Owed u must p → Owed u must p'))
        ∨ t.waitCycles ≠ 0) := by
  rw [hp.settleStep hb hunits]
  cases hposts : p.posts with
  | cons x rest =>
    have hwhole : ({ p with posts := x :: rest } : PathUnit) = p := by rw [← hposts]
    have hpath : settlePath s0 (onPath u p) = some (enterPost s0 x (onPath u { p with posts := rest })) := by
      rw [← hwhole]
      rfl
    rw [hposts, List.length_cons] at hn
    refine ⟨_, hpath, ?_⟩
    rcases Entering.post (p := { p with posts := rest }) (x := x) hb (hwhole.symm ▸ hp) hmust with
      ⟨p', he, hp', hposts', hreports', howed⟩ | he
    · have howed : Owed u must p → Owed u must p' := by
        rw [← hwhole]
        exact howed
      refine .inl ⟨p', he, hp', ?_, howed⟩
      rw [hposts', hreports']
      show rest.length + p.reports.length = n
      omega
    · exact .inr he
  | nil =>
    cases hreports : p.reports with
    | nil =>
      rw [hposts, hreports] at hn
      cases hn
    | cons x rest =>
      have hwhole : ({ p with reports := x :: rest } : PathUnit) = p := by rw [← hreports]
      obtain ⟨o, ho, rfl⟩ := hp.reports x (by rw [hreports]; exact List.mem_cons_self)
      have hpath : settlePath s0 (onPath u p) = some (enterPost s0 (.changed o) (onPath u { p with reports := rest })) := by
        unfold settlePath
        rw [show (onPath u p).path.posts = [] from hposts, show (onPath u p).path.reports = .changed o :: rest from hreports]
        rfl
      rw [hposts, hreports, List.length_cons] at hn
      have dropped : Entering u lo hi q { p with reports := rest } :=
        Entering.dropReport (p := { p with reports := rest }) (x := .changed o) (hwhole.symm ▸ hp)
      refine ⟨_, hpath, ?_⟩
      rcases dropped.changed (s0 := s0) hb ho with ⟨p', he, hp', hposts', hreports', hin, hkept⟩ | he
      · refine .inl ⟨p', he, hp', ?_, fun howed => ?_⟩
        · rw [hposts', hreports']
          show p.posts.length + rest.length = n
          rw [hposts]
          simpa using hn
        · refine howed.next (x := .changed o) (fun k hk => (hmust k hk).1) (fun y hy => ?_) hposts' hreports' (fun _ _ => hkept _)
            fun k hk hx => ?_
          · rw [hreports] at hy
            exact hy.elim (fun h => .inr (.inl h)) fun h => (List.mem_cons.mp h).imp_right .inr
          · cases hx
            exact hin (hmust _ hk).2
      · exact .inr he

/-- Everything handed on and reported enters, or the queue stalls. -/
theorem Entering.settles (hb : Behind u lo hi q) (hp : Entering u lo hi q p) (hunits : settleUnits s0 u = none)
    (hmust : ∀ o ∈ must, o ∈ sweepWords ∧ Machine.mirror s0 o ≠ Machine.mirror u o) (howed : Owed u must p)
    (hn : p.posts.length + p.reports.length = n) :
    (∃ p', SettlesIn n s0 (onPath u p) (onPath u p') ∧ Entering u lo hi q p' ∧ p'.posts = [] ∧ p'.reports = []
        ∧ ∀ o ∈ must, mirrorWrite u o ∈ p'.queue)
      ∨ ∃ k ≤ n, ∃ t, SettlesIn k s0 (onPath u p) t ∧ t.waitCycles ≠ 0 := by
  induction n generalizing p with
  | zero =>
    have hposts : p.posts = [] := List.eq_nil_of_length_eq_zero (by omega)
    have hreports : p.reports = [] := List.eq_nil_of_length_eq_zero (by omega)
    refine .inl ⟨p, .refl s0 _, hp, hposts, hreports, fun o ho => ?_⟩
    rcases howed o ho with h | h | h
    · exact h
    · rw [hposts] at h
      cases h
    · rw [hreports] at h
      cases h
  | succ n ih =>
    obtain ⟨t, hstep, ⟨p', rfl, hp', hn', hkept⟩ | hwaits⟩ := hp.step hb hunits hmust hn
    · rcases ih hp' (hkept howed) hn' with ⟨p'', hsettles, hrest⟩ | ⟨k, hk, t, hsettles, hwaits⟩
      · left
        have both := (SettlesIn.of_step hstep).trans hsettles
        rw [Nat.add_comm] at both
        exact ⟨p'', both, hrest⟩
      · exact .inr ⟨1 + k, by omega, t, (SettlesIn.of_step hstep).trans hsettles, hwaits⟩
    · exact .inr ⟨1, by omega, t, .of_step hstep, hwaits⟩

/-- The path unit of a settled end: the queue holds these entries, and nothing is left to enter. -/
def endPath (q : List OwnWrite) (d : Word) (p : PathUnit) : PathUnit := { p with
  queue := q, followUp := some d, shown := [], posts := [], reports := [], outcome := none }

section
variable {d : Word}

/-- The state in which the outcome word alone is still to enter. -/
theorem Entering.lined (hp : Entering u lo hi q p) (hposts : p.posts = []) (hreports : p.reports = []) (hout : u.path.outcome = some d) :
    onPath u p = Machine.lined p.queue p.shown [] [] (some d) (holding (word hi) u) := by
  obtain ⟨f, hf, hindex⟩ := hp.held
  rw [hposts] at hindex
  have hindex : f = word hi := hindex
  have hpath : p = { u.path with
      queue := p.queue, followUp := some (word hi), shown := p.shown, posts := [], reports := [], outcome := some d } := by
    have h := hp.same
    simp only [hf, hindex, hposts, hreports] at h
    exact h.trans (by rw [← hout])
  exact congrArg (onPath u) hpath

theorem Entering.calm (hb : Behind u lo hi q) (hp : Entering u lo hi q p) (hunits : settleUnits s0 u = none) :
    Calm s0 (holding (word hi) u) p.queue := ⟨settleUnits_withPath hunits rfl, fun _ => hp.queued_first hb.first.index⟩

/-- The outcome word finds no entry of its own. -/
theorem Entering.outcome_new (hb : Behind u lo hi q) (hp : Entering u lo hi q p) : settingAddr u 0xF04 ∉ p.queue.map (·.addr) := fun hm => by
  have hlow := hb.low
  have hhigh := hb.high
  obtain ⟨e, he, hea⟩ := List.mem_map.mp hm
  have hea : e.addr = settingAddr u 0xF04 := hea
  obtain ⟨Q, hQ, hlater⟩ := hp.queue
  rw [hQ] at he
  rcases List.mem_append.mp he with he | he
  · rcases hb.first.own e he with ⟨k, hk, rfl⟩ | ⟨k, hk, hka⟩
    · exact hb.apart.outcomeReport (by omega) hea.symm
    · exact hb.apart.outcomeEvents (by omega) (hea.symm.trans hka)
  · rcases hlater e he with ⟨k, hk, rfl⟩ | ⟨-, k, -, hk, hka⟩
    · exact hb.apart.outcomeReport (sweepWords_range k hk).2 hea.symm
    · exact hb.apart.outcomeEvents (by omega) (hea.symm.trans hka)

/-- The outcome word enters last in a queue with room. -/
theorem Entering.ends (hb : Behind u lo hi q) (hp : Entering u lo hi q p) (hunits : settleUnits s0 u = none) (hposts : p.posts = [])
    (hreports : p.reports = []) (hout : u.path.outcome = some d) (hroom : p.queue.length < 32) :
    ∃ k ≤ 2, SettlesIn k s0 (onPath u p) (onPath u (endPath (p.queue ++ [outcomeWrite u d]) (word hi) u.path))
      ∧ Machine.settleStep s0 (onPath u (endPath (p.queue ++ [outcomeWrite u d]) (word hi) u.path)) = none := by
  have hcalm := hp.calm hb hunits
  have hnew := hp.outcome_new hb
  rw [hp.lined hposts hreports hout]
  obtain ⟨k, hk, hsettles⟩ := settles_last (shown := p.shown) (outcome := some d) hcalm (fun _ => hnew) (fun _ => hroom)
  exact ⟨k, hk, hsettles, (hcalm.append (p := [outcomeWrite (holding (word hi) u) d])).ended⟩

/-- The outcome word stalls at a full queue. -/
theorem Entering.stalls (hb : Behind u lo hi q) (hp : Entering u lo hi q p) (hunits : settleUnits s0 u = none) (hposts : p.posts = [])
    (hreports : p.reports = []) (hout : u.path.outcome = some d) (hfull : 32 ≤ p.queue.length) :
    ∃ t, SettlesIn 1 s0 (onPath u p) t ∧ t.waitCycles ≠ 0 := by
  have hstep : Machine.settleStep s0 (Machine.lined p.queue p.shown [] [] (some d) (holding (word hi) u))
      = some (enterQueue (outcomeWrite u d) (Machine.lined p.queue p.shown [] [] none (holding (word hi) u))) := by
    rw [(hp.calm hb hunits).atRest.step]
    rfl
  have hnew : queued p.queue (settingAddr u 0xF04) = false := queued_of_new (hp.outcome_new hb)
  rw [hp.lined hposts hreports hout]
  refine ⟨_, .of_step hstep, ?_⟩
  rw [enterQueue_unqueued (w := outcomeWrite u d) (s := Machine.lined p.queue p.shown [] [] none (holding (word hi) u))
    hnew]
  rcases enterNew_waits (outcomeWrite u d) (Machine.lined p.queue p.shown [] [] none (holding (word hi) u)) with ⟨hroom, -⟩ | he
  · have hroom : p.queue.length < 32 := hroom
    omega
  · omega

end

end
end Sys2Proof.Machine
end

section
/-! PROOFS. The first own-writes of RUN entry enter the empty queue in their order: the identity words, the produce index 0, and the records,
each in its place, with the produce index held as the follow-up value (R71, R166, R176). -/

set_option Elab.async false

namespace Sys2Proof.Machine

open Sys2Proof.Config

section
variable {s t u v s0 : State} {w : OwnWrite} {o : Nat} {n : Nat} {q words : List OwnWrite} {shown : List (Nat × Word)}
  {posts reports : List Post} {outcome : Option Word}

/-- A word that the event names first, whatever its value, enters a queue with room. -/
theorem settles_always (hcalm : Calm s0 s q) (hlookup : shown.lookup o = none) (hnew : reportAddr s o ∉ q.map (·.addr))
    (hroom : q.length < 32) : SettlesIn 1 s0 (lined q shown (.always o :: posts) reports outcome s)
      (lined (q ++ [mirrorWrite s o]) ((o, mirror s o) :: shown) posts reports outcome s) := by
  refine .of_step ?_
  rw [hcalm.atRest.step]
  have hpost : enterPost s0 (.always o) (lined q shown posts reports outcome s) = enterMirror o (lined q shown posts reports outcome s) :=
    if_neg (by rw [show (lined q shown posts reports outcome s).path.shown.lookup o = none from hlookup]; exact (Option.some_ne_none _).symm)
  have hentered : enterMirror o (lined q shown posts reports outcome s)
      = enterQueue (mirrorWrite s o) (lined q ((o, mirror s o) :: shown) posts reports outcome s) := rfl
  show some (enterPost s0 (.always o) (lined q shown posts reports outcome s)) = _
  rw [hpost, hentered, enterQueue_new (s := lined q ((o, mirror s o) :: shown) posts reports outcome s) hnew hroom]
  rfl

/-- The words of a record enter a queue with room, and the produce index behind them is held as the follow-up value. -/
theorem settles_record (hcalm : Calm s0 s q) (hnew : ((q ++ words).map (·.addr)).Nodup) (hroom : q.length + words.length ≤ 32)
    (hqueued : queued q (eventsAddr s 0) = true) (haddr : w.addr = eventsAddr s 0) (hkind : w.kind = .trailing) :
    SettlesIn (words.length + 1) s0 (lined q shown ((words ++ [w]).map .write ++ posts) reports outcome s)
        (lined (q ++ words) shown posts reports outcome (holding w.data s))
      ∧ Calm s0 (holding w.data s) (q ++ words) := by
  have written := settles_writes (posts := .write w :: posts) (reports := reports) (shown := shown) (outcome := outcome) hcalm hnew hroom
  have held : queued (lined (q ++ words) shown posts reports outcome s).path.queue w.addr = true := haddr ▸ queued_append hqueued
  have last : settleStep s0 (lined (q ++ words) shown (.write w :: posts) reports outcome s)
      = some (enterQueue w (lined (q ++ words) shown posts reports outcome s)) := by
    rw [hcalm.append.atRest.step]
    rfl
  rw [enterQueue_trailing held hkind] at last
  rw [List.map_append, List.append_assoc]
  exact ⟨written.trans (.of_step last), settleUnits_withPath hcalm.units rfl, fun _ => queued_append hqueued⟩

/-- A record in the place `n` of the ring: its four words, and the produce index that counts it. -/
structure RecordAt (u : State) (n : Nat) (b : List OwnWrite × OwnWrite) : Prop where
  words : b.1.map (·.addr) = [0, 4, 8, 12].map fun k => eventsAddr u (16 + 16 * n + k)
  index : b.2.addr = eventsAddr u 0
  trailing : b.2.kind = .trailing

theorem RecordAt.length {b : List OwnWrite × OwnWrite} (h : RecordAt u n b) : b.1.length = 4 := by
  have := congrArg List.length h.words
  rwa [List.length_map] at this

theorem RecordAt.word {b : List OwnWrite × OwnWrite} (h : RecordAt u n b) (hw : w ∈ b.1) :
    ∃ k, k < 16 ∧ w.addr = eventsAddr u (16 + 16 * n + k) := by
  have hmem : w.addr ∈ [0, 4, 8, 12].map fun k => eventsAddr u (16 + 16 * n + k) := h.words ▸ List.mem_map.mpr ⟨w, hw, rfl⟩
  obtain ⟨k, hk, hka⟩ := List.mem_map.mp hmem
  have hsmall : ∀ k ∈ [0, 4, 8, 12], k < 16 := by decide
  exact ⟨k, hsmall k hk, hka.symm⟩

theorem RecordAt.nodup {b : List OwnWrite × OwnWrite} (h : RecordAt u n b) (ha : Apart u) (hn : 32 + 16 * n ≤ 2048) :
    (b.1.map (·.addr)).Nodup := by
  have hsmall : ∀ k ∈ [0, 4, 8, 12], k < 16 := by decide
  rw [h.words]
  refine List.Nodup.map_on (fun k hk j hj he => ?_) (by decide)
  have hk := hsmall k hk
  have hj := hsmall j hj
  have := ha.events (by omega) (by omega) he
  omega

/-- A record in the next place finds its addresses new. -/
theorem FirstEntries.nodup (h : FirstEntries u n q) (ha : Apart u) (hn : 32 + 16 * n ≤ 2048) (hq : (q.map (·.addr)).Nodup)
    {b : List OwnWrite × OwnWrite} (hb : RecordAt u n b) : ((q ++ b.1).map (·.addr)).Nodup := by
  rw [List.map_append]
  refine List.Nodup.append hq (hb.nodup ha hn) fun a hqa hba => ?_
  obtain ⟨e, he, rfl⟩ := List.mem_map.mp hqa
  obtain ⟨f, hf, hfa⟩ := List.mem_map.mp hba
  obtain ⟨k, hk, hka⟩ := hb.word hf
  have hfa : f.addr = e.addr := hfa
  rcases h.own e he with ⟨j, hj, rfl⟩ | ⟨j, hj, hja⟩
  · exact ha.mixed (by omega) (by omega) (hfa.symm.trans hka)
  · have := ha.events (by omega) (by omega) (hja.symm.trans (hfa.symm.trans hka))
    omega

theorem FirstEntries.next (h : FirstEntries u n q) {b : List OwnWrite × OwnWrite} (hb : RecordAt u n b) : FirstEntries u (n + 1) (q ++ b.1) where
  own w hw := by
    rcases List.mem_append.mp hw with hw | hw
    · exact (h.own w hw).imp_right fun ⟨o, ho, ha⟩ => ⟨o, by omega, ha⟩
    · obtain ⟨k, hk, hka⟩ := hb.word hw
      exact .inr ⟨_, by omega, hka⟩
  index := queued_append h.index

/-- The own-writes of these records. -/
def recordPosts (L : List (List OwnWrite × OwnWrite)) : List OwnWrite := (L.map fun b => b.1 ++ [b.2]).flatten

/-- The words of these records, without the produce index. -/
def recordEntries (L : List (List OwnWrite × OwnWrite)) : List OwnWrite := (L.map (·.1)).flatten

/-- The produce index behind these records, `d` before them. -/
def recordIndex (L : List (List OwnWrite × OwnWrite)) (d : Word) : Word := L.foldl (fun _ b => b.2.data) d

theorem calm_holding {d : Word} (hunits : settleUnits s0 u = none) (hi : queued q (eventsAddr u 0) = true) : Calm s0 (holding d u) q :=
  ⟨settleUnits_withPath hunits rfl, fun _ => hi⟩

/-- Records enter one behind the other, where a produce index is held already. -/
theorem settles_records {L : List (List OwnWrite × OwnWrite)} {d : Word} (ha : Apart u) (hfirst : FirstEntries u n q)
    (hunits : settleUnits s0 u = none) (hq : (q.map (·.addr)).Nodup) (hL : ∀ k, ∀ hk : k < L.length, RecordAt u (n + k) L[k])
    (hroom : q.length + 4 * L.length ≤ 32) (hn : 16 + 16 * (n + L.length) ≤ 2048) :
    SettlesIn (5 * L.length) s0 (lined q shown ((recordPosts L).map .write ++ posts) reports outcome (holding d u))
        (lined (q ++ recordEntries L) shown posts reports outcome (holding (recordIndex L d) u))
      ∧ FirstEntries u (n + L.length) (q ++ recordEntries L) ∧ (q ++ recordEntries L).length = q.length + 4 * L.length := by
  induction L generalizing q n d with
  | nil =>
    rw [show recordEntries [] = [] from rfl, List.append_nil]
    exact ⟨.refl s0 _, hfirst, rfl⟩
  | cons b L ih =>
    rw [List.length_cons] at hroom hn ⊢
    have hb : RecordAt u n b := hL 0 (by rw [List.length_cons]; omega)
    have hlen := hb.length
    obtain ⟨first, -⟩ := settles_record (shown := shown) (posts := (recordPosts L).map .write ++ posts) (reports := reports)
      (outcome := outcome) (w := b.2)
      (calm_holding (d := d) hunits hfirst.index) (hfirst.nodup ha (by omega) hq hb) (by omega) hfirst.index hb.index hb.trailing
    obtain ⟨rest, hfirst', hlength⟩ := ih (d := b.2.data) (hfirst.next hb)
      (hfirst.nodup ha (by omega) hq hb)
      (fun k hk => by
        have := hL (k + 1) (by rw [List.length_cons]; omega)
        rw [List.getElem_cons_succ] at this
        rwa [show n + (k + 1) = n + 1 + k by omega] at this)
      (by rw [List.length_append]; omega) (by omega)
    have hposts : (recordPosts (b :: L)).map Post.write ++ posts
        = (b.1 ++ [b.2]).map .write ++ ((recordPosts L).map .write ++ posts) := by
      rw [← List.append_assoc, ← List.map_append]
      rfl
    have hentries : q ++ recordEntries (b :: L) = q ++ b.1 ++ recordEntries L := by
      rw [List.append_assoc]
      rfl
    rw [hposts, hentries]
    refine ⟨?_, ?_, ?_⟩
    · have both := first.trans rest
      rwa [show b.1.length + 1 + 5 * L.length = 5 * (L.length + 1) by omega] at both
    · rwa [show n + 1 + L.length = n + (L.length + 1) by omega] at hfirst'
    · rw [hlength, List.length_append]
      omega

end
end Sys2Proof.Machine
end

section
/-! PROOFS. The own-writes of RUN entry's event from the first to the outcome word, and the sweep's first word behind them
(R71, R164, R166, R167). -/

set_option Elab.async false

namespace Sys2Proof.Machine

open Sys2Proof.Config

section
variable {s t u v s0 : State} {o : Nat} {n : Nat} {posts reports : List Post} {outcome : Option Word}
  {L : List (List OwnWrite × OwnWrite)} {i0 : OwnWrite}

/-! ## The first records -/

/-- The own-writes of the identity words, the produce index and these records, in their order. -/
def firstQueue (u : State) (i0 : OwnWrite) (L : List (List OwnWrite × OwnWrite)) : List OwnWrite :=
  [mirrorWrite u 0, mirrorWrite u 4, i0] ++ recordEntries L

/-- What is handed on for them. -/
def firstPosts (i0 : OwnWrite) (L : List (List OwnWrite × OwnWrite)) : List Post :=
  [.always 0, .always 4, .write i0] ++ (recordPosts L).map .write

/-- The report words that the event keeps in mind with them. -/
def firstShown (u : State) : List (Nat × Word) := [(4, mirror u 4), (0, mirror u 0)]

/-- The first own-writes enter the empty queue in their order. -/
theorem settles_first (ha : Apart u) (hunits : settleUnits s0 u = none) (hfollow : u.path.followUp = none) (hne : L ≠ [])
    (hL : ∀ k, ∀ hk : k < L.length, RecordAt u k L[k]) (hroom : L.length ≤ 7) (hi0 : i0.addr = eventsAddr u 0) :
    SettlesIn (3 + 5 * L.length) s0 (lined [] [] (firstPosts i0 L ++ posts) reports outcome u)
        (lined (firstQueue u i0 L) (firstShown u) posts reports outcome (holding (recordIndex L 0) u))
      ∧ FirstEntries u L.length (firstQueue u i0 L) ∧ (firstQueue u i0 L).length = 3 + 4 * L.length := by
  obtain ⟨b, L, rfl⟩ := List.exists_cons_of_ne_nil hne
  rw [List.length_cons] at hroom ⊢
  have calm (q : List OwnWrite) : Calm s0 u q := ⟨hunits, fun h => by rw [hfollow] at h; cases h⟩
  have hb : RecordAt u 0 b := hL 0 (by rw [List.length_cons]; omega)
  have hlen := hb.length
  have hfour : reportAddr u 4 ≠ reportAddr u 0 := fun h => absurd (ha.report (by decide) (by decide) h) (by decide)
  have identity := settles_always (o := 0) (q := []) (shown := []) (posts := .always 4 :: .write i0 :: ((recordPosts (b :: L)).map .write ++ posts))
    (reports := reports) (outcome := outcome) (calm []) rfl (by simp) (by decide)
  have count := settles_always (o := 4) (q := [mirrorWrite u 0]) (shown := [(0, mirror u 0)])
    (posts := .write i0 :: ((recordPosts (b :: L)).map .write ++ posts)) (reports := reports) (outcome := outcome) (calm _) rfl
    (by simpa [mirrorWrite] using hfour) (by decide : 1 < 32)
  have hnodup : (([mirrorWrite u 0, mirrorWrite u 4] ++ [i0]).map (·.addr)).Nodup := by
    have h0 : reportAddr u 0 ≠ eventsAddr u 0 := ha.mixed (by decide) (by decide)
    have h4 : reportAddr u 4 ≠ eventsAddr u 0 := ha.mixed (by decide) (by decide)
    simp [mirrorWrite, hi0, hfour.symm, h0, h4]
  have index := settles_writes (P := [i0]) (shown := firstShown u) (posts := (recordPosts (b :: L)).map .write ++ posts) (reports := reports)
    (outcome := outcome) (calm [mirrorWrite u 0, mirrorWrite u 4]) hnodup (by decide : 2 + 1 ≤ 32)
  have hfirst : FirstEntries u 0 [mirrorWrite u 0, mirrorWrite u 4, i0] := by
    refine ⟨fun w hw => ?_, queued_of_mem (w := i0) (by simp) hi0⟩
    simp only [List.mem_cons, List.not_mem_nil, or_false] at hw
    rcases hw with rfl | rfl | rfl
    · exact .inl ⟨0, by decide, rfl⟩
    · exact .inl ⟨4, by decide, rfl⟩
    · exact .inr ⟨0, by decide, hi0⟩
  obtain ⟨started, -⟩ := settles_record (w := b.2) (shown := firstShown u) (posts := (recordPosts L).map .write ++ posts) (reports := reports)
    (outcome := outcome) (calm _) (hfirst.nodup ha (by decide) hnodup hb)
    (by show 3 + b.1.length ≤ 32; omega) hfirst.index hb.index hb.trailing
  obtain ⟨records, hlast, hlength⟩ := settles_records (L := L) (d := b.2.data) (shown := firstShown u) (posts := posts) (reports := reports)
    (outcome := outcome) ha (hfirst.next hb) hunits (hfirst.nodup ha (by decide) hnodup hb)
    (fun k hk => by
      have hplace : RecordAt u (k + 1) L[k] := hL (k + 1) (by rw [List.length_cons]; omega)
      rwa [show k + 1 = 0 + 1 + k by omega] at hplace)
    (by
      rw [List.length_append, hlen]
      show 3 + 4 + 4 * L.length ≤ 32
      omega) (by omega)
  have hqueue : firstQueue u i0 (b :: L) = [mirrorWrite u 0, mirrorWrite u 4, i0] ++ b.1 ++ recordEntries L := by
    rw [List.append_assoc]
    rfl
  have hposts : (recordPosts (b :: L)).map Post.write ++ posts = (b.1 ++ [b.2]).map .write ++ ((recordPosts L).map .write ++ posts) := by
    rw [← List.append_assoc, ← List.map_append]
    rfl
  rw [hqueue]
  refine ⟨?_, ?_, ?_⟩
  · rw [hposts] at identity count index
    have start : firstPosts i0 (b :: L) ++ posts
        = .always 0 :: .always 4 :: .write i0 :: ((b.1 ++ [b.2]).map .write ++ ((recordPosts L).map .write ++ posts)) := by
      rw [← hposts]
      rfl
    rw [start]
    have whole := (((identity.trans count).trans index).trans started).trans records
    rwa [show 1 + 1 + [i0].length + (b.1.length + 1) + 5 * L.length = 3 + 5 * (L.length + 1) by
      rw [hlen, List.length_singleton]; omega] at whole
  · rwa [show 0 + 1 + L.length = L.length + 1 by omega] at hlast
  · rw [hlength, List.length_append, hlen]
    show 3 + 4 + 4 * L.length = _
    omega

/-! ## From the first own-write to the outcome word -/

/-- The end of RUN entry's event for the path unit: its units are at rest, and it hands on the first records and what stands behind them. -/
structure Handing (s0 u : State) (i0 : OwnWrite) (L : List (List OwnWrite × OwnWrite)) (hi : Nat) (P : List Post) (d : Word) : Prop where
  apart : Apart u
  units : settleUnits s0 u = none
  queue : u.path.queue = []
  shown : u.path.shown = []
  followUp : u.path.followUp = none
  posts : u.path.posts = firstPosts i0 L ++ P
  outcome : u.path.outcome = some d
  records : L ≠ []
  placed : ∀ k, ∀ hk : k < L.length, RecordAt u k L[k]
  few : L.length ≤ 7
  index : i0.addr = eventsAddr u 0
  low : L.length ≤ hi
  high : hi ≤ 64
  later : ∀ x ∈ P, LaterPost u L.length hi x
  reports : ∀ x ∈ u.path.reports, ∃ o ∈ sweepWords, x = .changed o
  last : lastIndex P (recordIndex L 0) = word hi

variable {hi : Nat} {d : Word} {must : List Nat}

theorem Handing.first (h : Handing s0 u i0 L hi posts d) :
    SettlesIn (3 + 5 * L.length) s0 u (lined (firstQueue u i0 L) (firstShown u) posts u.path.reports u.path.outcome
        (holding (recordIndex L 0) u))
      ∧ Behind u L.length hi (firstQueue u i0 L) ∧ (firstQueue u i0 L).length ≤ 31 := by
  obtain ⟨settles, hfirst, hlen⟩ := settles_first (posts := posts) (reports := u.path.reports) (outcome := u.path.outcome) h.apart h.units
    h.followUp h.records h.placed h.few h.index
  have start : lined [] [] (firstPosts i0 L ++ posts) u.path.reports u.path.outcome u = u := by
    have hself := lined_self u
    rwa [h.queue, h.shown, h.posts] at hself
  have hhigh := h.high
  have hfew := h.few
  rw [start] at settles
  exact ⟨settles, ⟨h.apart, hfirst, h.low, by omega⟩, by omega⟩

/-- The path unit behind the first records. -/
def firstPath (u : State) (i0 : OwnWrite) (L : List (List OwnWrite × OwnWrite)) (P R : List Post) : PathUnit := { u.path with
  queue := firstQueue u i0 L, followUp := some (recordIndex L 0), shown := firstShown u, posts := P, reports := R }

theorem Handing.entering (h : Handing s0 u i0 L hi posts d) {R : List Post} (hR : ∀ x ∈ R, ∃ o ∈ sweepWords, x = .changed o) :
    Entering u L.length hi (firstQueue u i0 L) (firstPath u i0 L posts R) where
  same := rfl
  queue := ⟨[], (List.append_nil _).symm, fun e he => by cases he⟩
  room := h.first.2.2.trans (by decide)
  shown o ho d hd := by
    have hrange := (sweepWords_range o ho).1
    have hnone : (firstShown u).lookup o = none := by
      have h4 : (o == 4) = false := by simp; omega
      have h0 : (o == 0) = false := by simp; omega
      rw [firstShown, List.lookup_cons, h4, List.lookup_cons, h0]
      rfl
    exact absurd (hnone.symm.trans hd) (Option.some_ne_none d).symm
  held := ⟨_, rfl, h.last⟩
  posts := h.later
  reports := hR

/-- The state in which RUN entry's event has been settled, with these own-writes behind the first records. -/
def startedEnd (u : State) (i0 : OwnWrite) (L : List (List OwnWrite × OwnWrite)) (hi : Nat) (d : Word) (Q : List OwnWrite) : State :=
  onPath u (endPath (firstQueue u i0 L ++ Q ++ [outcomeWrite u d]) (word hi) u.path)

/-- Within `n` steps the event is settled in a state with this property. -/
def Arrives (n : Nat) (s0 u : State) (P : State → Prop) : Prop := ∃ k ≤ n, ∃ t, SettlesIn k s0 u t ∧ settleStep s0 t = none ∧ P t

/-- Within `n` steps a bus access has waited for a full queue. -/
def Stalls (n : Nat) (s0 u : State) : Prop := ∃ k ≤ n, ∃ t, SettlesIn k s0 u t ∧ t.waitCycles ≠ 0

theorem Arrives.settled {P : State → Prop} {k : Nat} (h : Arrives n s0 u P) (hs : SettlesIn k s0 s u) (hn : k + n ≤ settleBound) :
    P (settle settleBound s0 s) := by
  have hbound : settleBound = 20000 := rfl
  obtain ⟨m, hm, t, settles, hrest, ht⟩ := h
  rw [(hs.trans settles).settled (by omega) hrest]
  exact ht

theorem Stalls.settled {k : Nat} (h : Stalls n s0 u) (hs : SettlesIn k s0 s u) (hn : k + n ≤ settleBound) :
    (settle settleBound s0 s).waitCycles ≠ 0 := by
  obtain ⟨m, hm, t, settles, ht⟩ := h
  have hbound : settleBound = 20000 := rfl
  obtain ⟨j, hj⟩ : ∃ j, settleBound = j + (k + m) := ⟨settleBound - (k + m), by omega⟩
  have hle := settle_waits (s0 := s0) j t
  rw [hj, hs.trans settles j]
  omega

/-- What RUN entry's event leaves in the queue, with these own-writes behind the first records. -/
def StartedWith (u : State) (i0 : OwnWrite) (L : List (List OwnWrite × OwnWrite)) (hi : Nat) (d : Word) (must : List Nat) (t : State) : Prop :=
  ∃ Q, t = startedEnd u i0 L hi d Q ∧ (firstQueue u i0 L ++ Q ++ [outcomeWrite u d]).length ≤ 32
    ∧ (∀ e ∈ Q, LaterEntry u L.length hi e) ∧ ∀ o ∈ must, mirrorWrite u o ∈ Q

/-- The own-writes of RUN entry's event enter in their order, or the queue stalls. -/
theorem Handing.settles (h : Handing s0 u i0 L hi posts d) (hmust : ∀ o ∈ must, o ∈ sweepWords ∧ mirror s0 o ≠ mirror u o)
    (howed : ∀ o ∈ must, .changed o ∈ u.path.reports) (hn : posts.length + u.path.reports.length ≤ 1000) :
    Arrives 2000 s0 u (StartedWith u i0 L hi d must) ∨ Stalls 2000 s0 u := by
  obtain ⟨first, behind, -⟩ := h.first
  have hfew := h.few
  have entering := h.entering h.reports
  rcases entering.settles (must := must) behind h.units hmust (fun o ho => .inr (.inr (howed o ho))) rfl with
    ⟨p, settles, hp, hposts, hreports, hin⟩ | ⟨k, hk, t, settles, hwaits⟩
  · obtain ⟨Q, hQ, hlater⟩ := hp.queue
    rcases Nat.lt_or_ge p.queue.length 32 with hroom | hfull
    · obtain ⟨k, hk, last, hrest⟩ := hp.ends behind h.units hposts hreports h.outcome hroom
      have hlen : p.queue.length = (firstQueue u i0 L ++ Q).length := by rw [hQ]
      rw [hQ] at last hrest
      refine .inl ⟨_, ?_, _, (first.trans settles).trans last, hrest, Q, rfl, ?_, hlater, fun o ho => ?_⟩
      · show 3 + 5 * L.length + (posts.length + u.path.reports.length) + k ≤ 2000
        omega
      · rw [List.length_append, List.length_singleton]
        omega
      · have hmem := hin o ho
        rw [hQ] at hmem
        refine (List.mem_append.mp hmem).resolve_left fun hm => ?_
        obtain ⟨hlow, hhigh⟩ := sweepWords_range o (hmust o ho).1
        have hhi := h.low
        have hle := h.high
        have := (behind.first.addr hm h.apart (by omega) hhigh rfl).2
        omega
    · obtain ⟨t, last, hwaits⟩ := hp.stalls behind h.units hposts hreports h.outcome hfull
      refine .inr ⟨_, ?_, t, (first.trans settles).trans last, hwaits⟩
      show 3 + 5 * L.length + (posts.length + u.path.reports.length) + 1 ≤ 2000
      omega
  · have hk : k ≤ posts.length + u.path.reports.length := hk
    exact .inr ⟨_, by omega, t, first.trans settles, hwaits⟩

/-- With nothing handed on behind the first records, and the line word as it was, the event ends with the outcome word behind them. -/
theorem Handing.quiet (h : Handing s0 u i0 L hi [] d) (hreports : u.path.reports = [.changed 0x110])
    (hsame : mirror s0 0x110 = mirror u 0x110) : Arrives 2000 s0 u (· = startedEnd u i0 L hi d []) := by
  obtain ⟨first, behind, hlen⟩ := h.first
  have hfew := h.few
  have entering := h.entering (R := []) fun x hx => by cases hx
  have dropped : SettlesIn 1 s0 (onPath u (firstPath u i0 L [] [.changed 0x110])) (onPath u (firstPath u i0 L [] [])) := by
    refine .of_step ?_
    have whole := h.entering (R := [.changed 0x110]) (hreports ▸ h.reports)
    rw [whole.settleStep behind h.units]
    show some (enterPost s0 (.changed 0x110) (onPath u (firstPath u i0 L [] []))) = _
    have hqueued : queued (firstQueue u i0 L) (reportAddr u 0x110) = false := by
      refine queued_of_new fun hm => ?_
      obtain ⟨e, he, hea⟩ := List.mem_map.mp hm
      have hlow := h.low
      have hhigh := h.high
      exact absurd (behind.first.addr he h.apart (by omega) (by decide) hea).2 (by decide)
    exact congrArg some ((enterPost_first (s := onPath u (firstPath u i0 L [] [])) rfl).2.1 hsame hqueued)
  obtain ⟨k, hk, last, hrest⟩ := entering.ends behind h.units rfl rfl h.outcome
    (show (firstQueue u i0 L).length < 32 by omega)
  have start : lined (firstQueue u i0 L) (firstShown u) [] u.path.reports u.path.outcome (holding (recordIndex L 0) u)
      = onPath u (firstPath u i0 L [] [.changed 0x110]) := by
    rw [hreports]
    rfl
  rw [start] at first
  refine ⟨_, by omega, _, (first.trans dropped).trans last, hrest, ?_⟩
  rw [startedEnd, List.append_nil]
  rfl

end
end Sys2Proof.Machine
end

section
/-! PROOFS. The report words that a trip changes: the level word, the line word and the cell's word (R41, R45, R60). -/

set_option Elab.async false

namespace Sys2Proof.Machine

open Sys2Proof.Config

section
variable {s t u v s0 : State} {i : Fin 4}

/-! ## The lowest field, and four bits for each line -/

theorem layout_foldl_mod {n : Nat} (fields : List (Nat × Nat × Nat)) (h : ∀ f ∈ fields, n ≤ f.1) (acc : Nat) :
    fields.foldl (fun acc f => acc + (f.2.2 % 2 ^ f.2.1) * 2 ^ f.1) acc % 2 ^ n = acc % 2 ^ n := by
  induction fields generalizing acc with
  | nil => rfl
  | cons f fields ih =>
    rw [List.foldl_cons, ih fun g hg => h g (List.mem_cons_of_mem _ hg)]
    obtain ⟨k, hk⟩ := Nat.exists_eq_add_of_le (h f List.mem_cons_self)
    rw [hk, Nat.pow_add, Nat.mul_left_comm, Nat.add_mul_mod_self_left]

/-- The lowest field of a word, where every other field lies above it. -/
theorem layout_low {n v : Nat} {rest : List (Nat × Nat × Nat)} (h : ∀ p ∈ rest.map (·.1), n ≤ p) (hn : n ≤ 32) :
    (layout ((0, n, v) :: rest)).toNat % 2 ^ n = v % 2 ^ n := by
  have hdvd : 2 ^ n ∣ 2 ^ 32 := Nat.pow_dvd_pow 2 hn
  rw [layout_toNat, Nat.mod_mod_of_dvd _ hdvd, List.foldl_cons,
    layout_foldl_mod rest fun f hf => h f.1 (List.mem_map.mpr ⟨f, hf, rfl⟩), Nat.zero_add, Nat.pow_zero, Nat.mul_one, Nat.mod_mod]

/-- The four bits of a line: its value and the class of its function. -/
def lineDigit (s : State) (n : Fin 8) : Nat := (lineValue s n).toNat % 2 ^ 1 + 2 * (LineFn.code s.effective.lines[n].fn % 2 ^ 3)

theorem lineDigit_lt (s : State) (n : Fin 8) : lineDigit s n < 16 := by
  unfold lineDigit
  omega

/-- Fields of four bits, from the one at `k` on. -/
theorem foldl_digits (g h : Fin 8 → Nat) (l : List (Fin 8)) (k acc : Nat) (hl : ∀ j, ∀ hj : j < l.length, (l[j]).val = k + j) :
    (l.flatMap fun n => [(4 * n.val, 1, g n), (4 * n.val + 1, 3, h n)]).foldl (fun acc f => acc + (f.2.2 % 2 ^ f.2.1) * 2 ^ f.1) acc
      = acc + 16 ^ k * Nat.ofDigits 16 (l.map fun n => g n % 2 ^ 1 + 2 * (h n % 2 ^ 3)) := by
  induction l generalizing k acc with
  | nil => rfl
  | cons n l ih =>
    have hn : n.val = k := hl 0 (by rw [List.length_cons]; omega)
    have hrest : ∀ j, ∀ hj : j < l.length, (l[j]).val = k + 1 + j := fun j hj => by
      have hnext : (l[j]).val = k + (j + 1) := hl (j + 1) (by rw [List.length_cons]; omega)
      omega
    have hpow : 2 ^ (4 * k) = 16 ^ k := Nat.pow_mul 2 4 k
    have hpow' : 2 ^ (4 * k + 1) = 16 ^ k * 2 := by rw [Nat.pow_succ, hpow]
    have hnext : 16 ^ (k + 1) = 16 ^ k * 16 := pow_succ 16 k
    rw [List.flatMap_cons, List.foldl_append, List.foldl_cons, List.foldl_cons, List.foldl_nil, ih _ _ hrest, List.map_cons,
      Nat.ofDigits_cons]
    dsimp only
    rw [hn, hpow, hpow', hnext]
    ring

theorem mirrorLines_toNat (s : State) : (mirrorLines s).toNat = Nat.ofDigits 16 ((List.finRange 8).map (lineDigit s)) := by
  have hsum := foldl_digits (fun n => (lineValue s n).toNat) (fun n => LineFn.code s.effective.lines[n].fn) (List.finRange 8) 0 0
    (fun j hj => by rw [List.getElem_finRange]; simp)
  have hlt : Nat.ofDigits 16 ((List.finRange 8).map (lineDigit s)) < 2 ^ 32 := by
    refine (Nat.ofDigits_lt_base_pow_length (b := 16) (by decide) fun d hd => ?_).trans_le (by
      rw [List.length_map, List.length_finRange]
      decide)
    obtain ⟨n, -, rfl⟩ := List.mem_map.mp hd
    exact lineDigit_lt s n
  unfold mirrorLines
  rw [layout_toNat, hsum, Nat.zero_add, Nat.pow_zero, Nat.one_mul]
  exact Nat.mod_eq_of_lt hlt

/-- A line whose value differs shows in the line word. -/
theorem mirrorLines_ne {n : Fin 8} (he : t.effective = s.effective) (h : lineValue s n ≠ lineValue t n) : mirrorLines s ≠ mirrorLines t := by
  intro hsame
  have hdigits := congrArg BitVec.toNat hsame
  rw [mirrorLines_toNat, mirrorLines_toNat] at hdigits
  have small (v : State) : ∀ d ∈ (List.finRange 8).map (lineDigit v), d < 16 := fun d hd => by
    obtain ⟨m, -, rfl⟩ := List.mem_map.mp hd
    exact lineDigit_lt v m
  have hlists := Nat.ofDigits_inj_of_len_eq (b := 16) (by decide) (by rw [List.length_map, List.length_map]) (small s) (small t) hdigits
  have hdigit : lineDigit s n = lineDigit t n := List.map_inj_left.mp hlists n (List.mem_finRange n)
  unfold lineDigit at hdigit
  rw [he] at hdigit
  refine h ?_
  cases hs : lineValue s n with
  | true =>
    cases ht : lineValue t n with
    | true => rfl
    | false =>
      rw [hs, ht] at hdigit
      simp at hdigit
  | false =>
    cases ht : lineValue t n with
    | true =>
      rw [hs, ht] at hdigit
      simp at hdigit
    | false => rfl

/-! ## The words of a trip -/

theorem mirror_level_word (s : State) : (mirror s 0x010).toNat % 2 ^ 2 = Level.code s.level.level % 2 ^ 2 := by
  refine layout_low (n := 2) (v := Level.code s.level.level) ?_ (by decide)
  show ∀ p ∈ [2, 9, 10, 16], 2 ≤ p
  decide

theorem mirror_cell_word (s : State) (i : Fin 4) :
    (mirror s (0x100 + 4 * i.val)).toNat % 2 ^ 3 = CellState.code s.cells[i].state % 2 ^ 3 := by
  have hword : mirror s (0x100 + 4 * i.val) = mirrorCell s i := by
    match i with
    | 0 => rfl
    | 1 => rfl
    | 2 => rfl
    | 3 => rfl
  rw [hword]
  refine layout_low (n := 3) (v := CellState.code s.cells[i].state) ?_ (by decide)
  show ∀ p ∈ [3, 4, 5, 6, 7, 8, 9], 3 ≤ p
  decide

theorem mirror_line_word (s : State) : mirror s 0x110 = mirrorLines s := rfl

/-- The words that tell of a trip differ where the cell was READY and the level NORMAL (R41, R45, R60). -/
theorem mirror_trip_ne (hlevel : s.level.level = .normal) (hlevel' : t.level.level ≠ .normal) (hready : s.cells[i].state = .ready)
    (htrip : tripActive t.cells[i] = true) {n : Fin 8} (he : t.effective = s.effective) (hline : s.effective.lines[n].fn = .tripOut i) :
    mirror s 0x010 ≠ mirror t 0x010 ∧ mirror s 0x110 ≠ mirror t 0x110 ∧ mirror s (0x100 + 4 * i.val) ≠ mirror t (0x100 + 4 * i.val) := by
  refine ⟨fun h => ?_, ?_, fun h => ?_⟩
  · have hcode := congrArg (fun x : Word => x.toNat % 2 ^ 2) h
    simp only [mirror_level_word, hlevel] at hcode
    cases hl : t.level.level with
    | normal => exact hlevel' hl
    | alert => rw [hl] at hcode; exact absurd hcode (by decide)
    | evacuate => rw [hl] at hcode; exact absurd hcode (by decide)
  · rw [mirror_line_word, mirror_line_word]
    have hline' : t.effective.lines[n].fn = .tripOut i := by rw [he]; exact hline
    have hs : lineValue s n = true := by
      unfold lineValue
      simp only [hline, not_tripActive (.inl hready), Bool.not_false]
    have ht : lineValue t n = false := by
      unfold lineValue
      simp only [hline', htrip, Bool.not_true]
    exact mirrorLines_ne (n := n) he (by rw [hs, ht]; decide)
  · have hcode := congrArg (fun x : Word => x.toNat % 2 ^ 3) h
    simp only [mirror_cell_word, hready] at hcode
    cases hc : t.cells[i].state with
    | idle => rw [not_tripActive (.inr hc)] at htrip; cases htrip
    | ready => rw [not_tripActive (.inl hc)] at htrip; cases htrip
    | tripped => rw [hc] at hcode; exact absurd hcode (by decide)
    | isolated => rw [hc] at hcode; exact absurd hcode (by decide)
    | unconfirmed => rw [hc] at hcode; exact absurd hcode (by decide)

end
end Sys2Proof.Machine
end

section
/-! PROOFS. The records of RUN entry's event: STARTED, the cells that trip, and the change of the level (R37, R54, R166, R176). -/

set_option Elab.async false

namespace Sys2Proof.Machine

open Sys2Proof.Config

section
variable {s e u v : State} {n : Nat} {info : Word}

/-! ## The records -/

/-- The own-write of the produce index 0. -/
def indexWrite (u : State) : OwnWrite := { addr := eventsAddr u 0, data := 0, kind := .trailing }

/-- The own-writes of the STARTED record, with this detail. -/
def startRecord (info : Word) (u : State) : List OwnWrite × OwnWrite :=
  (recordWords { u with fault := {} } 0x01 u.effective.node.nodeId.toNat info, produceWrite { u with fault := {} })

/-- The own-writes of the records of these cells. -/
def tripRecords (u : State) (d : Vector Cell 4) (l : List (Fin 4)) : List (List OwnWrite × OwnWrite) :=
  l.mapIdx fun j i => (trippedWords (counted u j) i d[i], produceWrite (counted u j))

/-- The own-writes of the record of the change of the level, behind `n` records of cells. -/
def changedRecord (u : State) (n : Nat) : List OwnWrite × OwnWrite :=
  (recordWords (counted u n) 0x20 0 (enteredDetail u.level.level u.level.cause), produceWrite (counted u n))

/-- The tripped cells. -/
def tripped (u : State) : List (Fin 4) := trips u.cells (List.finRange 4)

/-- The records of RUN entry's event. -/
def startRecords (info : Word) (u : State) : List (List OwnWrite × OwnWrite) :=
  startRecord info u :: (tripRecords u u.cells (tripped u) ++ if tripped u = [] then [] else [changedRecord u (tripped u).length])

theorem tripped_length (u : State) : (tripped u).length ≤ 4 := (List.length_filter_le _ _).trans (by rw [List.length_finRange])

theorem startRecords_length (info : Word) (u : State) : (startRecords info u).length = 1 + (tripped u).length + if tripped u = [] then 0 else 1 := by
  rw [startRecords, List.length_cons, List.length_append, tripRecords, List.length_mapIdx]
  split
  · simp only [List.length_nil]
    omega
  · simp only [List.length_singleton]
    omega

theorem counted_congr (heff : v.effective = u.effective) (htime : v.time = u.time) (j : Nat) (kind subject : Nat) (info : Word) :
    recordWords (counted v j) kind subject info = recordWords (counted u j) kind subject info
      ∧ produceWrite (counted v j) = produceWrite (counted u j) :=
  ⟨recordWords_congr (u := counted v j) (s := counted u j) heff htime rfl _ _ _,
    produceWrite_congr (u := counted v j) (s := counted u j) heff rfl⟩

theorem startRecord_congr (heff : v.effective = u.effective) (htime : v.time = u.time) : startRecord info v = startRecord info u := by
  have hwords := recordWords_congr (u := { v with fault := {} }) (s := { u with fault := {} }) heff htime rfl 0x01
    v.effective.node.nodeId.toNat info
  have hindex := produceWrite_congr (u := { v with fault := {} }) (s := { u with fault := {} }) heff rfl
  rw [startRecord, hwords, hindex, heff]
  rfl

theorem tripRecords_congr (heff : v.effective = u.effective) (htime : v.time = u.time) (d : Vector Cell 4) (l : List (Fin 4)) :
    tripRecords v d l = tripRecords u d l :=
  congrArg (fun f => l.mapIdx f) (funext fun j => funext fun i => by
    obtain ⟨hwords, hindex⟩ := counted_congr heff htime j 0x18 i.val (detail ((3, CellState.code d[i].state) :: truthFields d[i].truths))
    rw [trippedWords, hwords, hindex]
    rfl)

/-- The records depend on the settings in effect, node time, the cells and the level unit alone. -/
theorem startRecords_congr (heff : v.effective = u.effective) (htime : v.time = u.time) (hcells : v.cells = u.cells)
    (hlevel : v.level.level = u.level.level) (hcause : v.level.cause = u.level.cause) : startRecords info v = startRecords info u := by
  have htripped : tripped v = tripped u := by rw [tripped, hcells]; rfl
  obtain ⟨hwords, hindex⟩ := counted_congr heff htime (tripped u).length 0x20 0 (enteredDetail u.level.level u.level.cause)
  rw [startRecords, startRecord_congr heff htime, htripped, hcells, tripRecords_congr heff htime, changedRecord, hlevel, hcause, hwords,
    hindex]
  rfl

/-! ## Their places -/

/-- A record in the place that the produce index names. -/
theorem recordAt_of (heff : v.effective = u.effective) (hplace : v.fault.produce.toNat = n) (hn : n < 64) (kind subject : Nat)
    (info : Word) : RecordAt u n (recordWords v kind subject info, produceWrite v) where
  words := by
    have haddr (o : Nat) : eventsAddr v o = eventsAddr u o := by unfold eventsAddr; rw [heff]
    simp only [recordWords, hplace, Nat.mod_eq_of_lt hn, List.map_cons, List.map_nil, haddr, Nat.add_zero]
  index := by
    show eventsAddr v 0 = eventsAddr u 0
    unfold eventsAddr
    rw [heff]
  trailing := rfl

theorem counted_produce {j : Nat} (hj : j < 64) (u : State) : (counted u j).fault.produce.toNat = j + 1 := by
  show (BitVec.ofNat 16 (1 + j)).toNat = _
  rw [BitVec.toNat_ofNat, Nat.mod_eq_of_lt (by omega), Nat.add_comm]

theorem startRecords_placed (info : Word) (u : State) (k : Nat) (hk : k < (startRecords info u).length) :
    RecordAt u k (startRecords info u)[k] := by
  have hlength := startRecords_length info u
  have hfew := tripped_length u
  have hnum : (tripRecords u u.cells (tripped u)).length = (tripped u).length := List.length_mapIdx
  cases k with
  | zero => exact recordAt_of (u := u) (n := 0) (v := { u with fault := {} }) rfl rfl (Nat.zero_lt_succ 63) 0x01 u.effective.node.nodeId.toNat info
  | succ k =>
    have hget : (startRecords info u)[k + 1]
        = (tripRecords u u.cells (tripped u) ++ if tripped u = [] then [] else [changedRecord u (tripped u).length])[k]'(by
          rw [startRecords, List.length_cons] at hk
          exact Nat.lt_of_succ_lt_succ hk) := List.getElem_cons_succ _ _ _ _
    rw [hget, List.getElem_append]
    split
    · rename_i hin
      simp only [tripRecords, List.getElem_mapIdx, trippedWords]
      exact recordAt_of (u := u) (v := counted u k) rfl (counted_produce (by omega) u) (by omega) _ _ _
    · rename_i hout
      rw [hnum] at hout
      by_cases hnil : tripped u = []
      · rw [if_pos hnil] at hlength
        omega
      · rw [if_neg hnil] at hlength
        have hlast : k = (tripped u).length := by omega
        subst hlast
        simp only [if_neg hnil, List.getElem_singleton]
        exact recordAt_of (u := u) (v := counted u (tripped u).length) rfl (counted_produce (by omega) u) (by omega) _ _ _

theorem recordIndex_concat (L : List (List OwnWrite × OwnWrite)) (b : List OwnWrite × OwnWrite) (d : Word) :
    recordIndex (L ++ [b]) d = b.2.data := List.foldl_concat _ _ _ _

/-- The produce index behind the records counts them. -/
theorem startRecords_index (info : Word) (u : State) (d : Word) :
    recordIndex (startRecords info u) d = word (startRecords info u).length := by
  have hlength := startRecords_length info u
  have hfew := tripped_length u
  by_cases hnil : tripped u = []
  · have hone : startRecords info u = [startRecord info u] := by
      rw [startRecords, hnil, if_pos rfl]
      rfl
    rw [hone]
    rfl
  · have hlast : startRecords info u
        = (startRecord info u :: tripRecords u u.cells (tripped u)) ++ [changedRecord u (tripped u).length] := by
      rw [startRecords, if_neg hnil]
      rfl
    rw [if_neg hnil] at hlength
    rw [hlength, hlast, recordIndex_concat]
    show word ((counted u (tripped u).length).fault.produce + 1).toNat = _
    have hproduce := counted_produce (j := (tripped u).length) (by omega) u
    rw [BitVec.toNat_add, hproduce]
    show word (((tripped u).length + 1 + 1) % 65536) = _
    rw [Nat.mod_eq_of_lt (by omega)]
    congr 1
    omega

theorem recordPosts_append (L M : List (List OwnWrite × OwnWrite)) : recordPosts (L ++ M) = recordPosts L ++ recordPosts M := by
  rw [recordPosts, List.map_append, List.flatten_append]
  rfl

theorem firstPosts_append (i0 : OwnWrite) (L M : List (List OwnWrite × OwnWrite)) :
    firstPosts i0 (L ++ M) = firstPosts i0 L ++ (recordPosts M).map .write := by
  rw [firstPosts, recordPosts_append, List.map_append, ← List.append_assoc]
  rfl

theorem recordPosts_trips (u : State) (d : Vector Cell 4) (l : List (Fin 4)) : recordPosts (tripRecords u d l) = (tripBlocks u d l).flatten := by
  refine congrArg List.flatten (List.ext_getElem (by simp [tripRecords, tripBlocks]) fun k _ _ => ?_)
  simp only [tripRecords, tripBlocks, tripBlock, List.getElem_map, List.getElem_mapIdx]

/-! ## The announcement of START -/

/-- The first own-writes of RUN entry, from a state with nothing in the ring. -/
theorem announceStart_eq (hrun : u.run = true) (hempty : occupancy u.fault = 0) (hproduce : u.fault.produce = 0) (hposts : u.path.posts = []) :
    announceStart u = { u with
      fault := { u.fault with produce := u.fault.produce + 1 }
      path := { u.path with
        posts := firstPosts (indexWrite u) [startRecord (detail [(2, ResetKind.code u.resetKind), (16, u.resetCount)]) u]
        reports := u.path.reports ++ [.changed 0x110] } } := by
  have hwords := recordWords_congr (u := u) (s := { u with fault := {} }) rfl rfl hproduce 0x01
    u.effective.node.nodeId.toNat (detail [(2, ResetKind.code u.resetKind), (16, u.resetCount)])
  have hindex := produceWrite_congr (u := u) (s := { u with fault := {} }) rfl hproduce
  have hrecord := addRecord_empty (s := post (.write (indexWrite u)) (postAlways [0x000, 0x004] u)) recStarted u.effective.node.nodeId.toNat
    (detail [(2, ResetKind.code u.resetKind), (16, u.resetCount)]) hrun hempty
  have hposted : (post (.write (indexWrite u)) (postAlways [0x000, 0x004] u)).path.posts = [.always 0, .always 4, .write (indexWrite u)] := by
    show u.path.posts ++ [.always 0, .always 4] ++ [.write (indexWrite u)] = _
    rw [hposts]
    rfl
  refine hrecord.trans ?_
  rw [hposted, firstPosts, startRecord, ← hwords, ← hindex]
  rfl

end
end Sys2Proof.Machine
end

section
/-! PROOFS. RUN entry's event up to the units at rest: from the tables as a reset leaves them, the state in which the own-writes begin to
enter the queue (R36, R47, R54, R166). -/

set_option Elab.async false

namespace Sys2Proof.Machine

open Sys2Proof.Config

section
variable {s e u v s0 : State} {n : Nat} {w d info : Word}

/-! ## The announced state -/

/-- The tables as a reset leaves them, with an empty own-write queue. -/
structure Fresh (s : State) : Prop where
  run : s.run = false
  level : s.level = {}
  road : s.road = {}
  fault : s.fault = {}
  list : s.ring.list = []
  queue : s.path.queue = []
  followUp : s.path.followUp = none

/-- The detail of the STARTED record. -/
def startInfo (s : State) : Word := detail [(2, ResetKind.code s.resetKind), (16, s.resetCount)]

/-- What RUN entry has of each unit while it evaluates the cells. -/
structure Entry (s e : State) : Prop where
  announced : Announced e
  effective : e.effective = s.copies
  strap : e.strap = s.strap
  time : e.time = 0
  waits : e.waitCycles = 0
  road : e.road = {}
  list : e.ring.list = []
  requests : e.ring.requests = []
  posts : e.path.posts = firstPosts (indexWrite e) [startRecord (startInfo s) e]
  path : e.path.queue = [] ∧ e.path.shown = [] ∧ e.path.followUp = none ∧ e.path.sweep = some 0x010 ∧ e.path.scanCursor = 0

theorem announced_entry (h : Fresh s) (w : Word) : Entry s (announced w s) := by
  obtain ⟨v, hv⟩ := enterRun_eq (begun w s)
  have hfault : (begun w s).fault = {} := h.fault
  have hlevel : (begun w s).level = {} := by
    show { s.level with taken := [] } = _
    rw [h.level]
  have hbase : (enterRun (begun w s)).fault = { patrol := PeriodTimer.start s.copies.node.patrol } := by
    rw [hv, hfault]
    rfl
  have heq := announceStart_eq (u := enterRun (begun w s)) (by rw [hv]) (by simp [hbase, occupancy]) (by rw [hbase]) (by rw [hv]; rfl)
  have hcells := announced_cells w s
  have heffective := announced_effective w s
  unfold announced at hcells heffective ⊢
  rw [heq] at hcells heffective ⊢
  have hstart : (enterRun (begun w s)).level = { repeatTimer := PeriodTimer.start s.copies.node.repeatPeriod } := by
    rw [hv, hlevel]
    rfl
  have hinfo : detail [(2, ResetKind.code (enterRun (begun w s)).resetKind), (16, (enterRun (begun w s)).resetCount)] = startInfo s := by
    rw [hv]
    rfl
  refine {
    announced := {
      run := by rw [hv]
      consume := by rw [hbase]
      produce := by rw [hbase]; rfl
      level := by rw [hstart]
      alerts := by rw [hstart]
      taken := by rw [hstart]
      cause := by rw [hstart]
      cells := fun i => by rw [heffective]; exact hcells i
      reports := by rw [hv]; rfl }
    effective := heffective
    strap := by rw [hv]; rfl
    time := by rw [hv]
    waits := by rw [hv]; rfl
    road := by rw [hv]; exact h.road
    list := by rw [hv]; exact h.list
    requests := by rw [hv]; rfl
    posts := by
      show firstPosts _ [startRecord _ _] = _
      rw [hinfo]
      rfl
    path := ⟨?_, ?_, ?_, ?_, ?_⟩ }
  · rw [hv]; exact h.queue
  · rw [hv]; rfl
  · rw [hv]; exact h.followUp
  · rw [hv]
  · rw [hv]

/-! ## The evaluated state -/

/-- What RUN entry has of each unit once it has evaluated the cells, up to the first own-write. -/
structure Starting (s : State) (d : Word) (u : State) : Prop where
  run : u.run = true
  effective : u.effective = s.copies
  strap : u.strap = s.strap
  time : u.time = 0
  waits : u.waitCycles = 0
  enabled : ∀ i ∈ tripped u, s.copies.cells[i].enabled = true
  must : ∀ i ∈ tripped u, ∀ x ∈ tripReports i, x ∈ u.path.reports
  reports : ∀ x ∈ u.path.reports, ∃ o ∈ sweepWords, x = .changed o
  outcome : u.path.outcome = some d
  path : u.path.queue = [] ∧ u.path.shown = [] ∧ u.path.followUp = none ∧ u.path.sweep = some 0x010 ∧ u.path.scanCursor = 0

theorem Starting.hands {r k : Nat} (h : Starting s d u) (hands : Hands r k u v) : Starting s d v := by
  obtain ⟨P, R, hpath, -, -, hR, -⟩ := hands.path
  have htripped : tripped v = tripped u := by rw [tripped, hands.cells]; rfl
  refine ⟨hands.run.trans h.run, hands.effective.trans h.effective, hands.strap.trans h.strap, hands.time.trans h.time,
    hands.waits.trans h.waits, fun i hi => h.enabled i (htripped ▸ hi), fun i hi x hx => ?_, fun x hx => ?_, ?_, ?_⟩
  · rw [hpath]
    exact List.mem_append_left _ (h.must i (htripped ▸ hi) x hx)
  · rw [hpath] at hx
    exact (List.mem_append.mp hx).elim (h.reports x) (hR x)
  · rw [hpath]
    exact h.outcome
  · rw [hpath]
    exact h.path

/-- The state in which RUN entry has acted. -/
def startedActed (w : Word) (s : State) : State := doneAction w runEntry (begun w s)

/-- What the evaluation leaves in the units. -/
structure Evaluated (s : State) (d : Word) (u : State) : Prop where
  starting : Starting s d u
  idle : Idle 0 u
  unmarked : firstMarked u = none
  requests : u.ring.requests = []
  posts : u.path.posts = firstPosts (indexWrite u) (startRecord (startInfo s) u :: tripRecords u u.cells (tripped u))
  consume : u.fault.consume = 0
  produce : u.fault.produce.toNat = 1 + (tripped u).length
  level : u.level.level = .normal
  alerts : u.level.alerts = (tripped u).map .cell
  taken : u.level.taken.length ≤ 4
  faults : ∀ c ∈ u.level.taken, c.fault = 0
  cause : tripped u = [] → u.level.cause = none
  quiet : (∀ i : Fin 4, s.copies.cells[i].enabled = false) → u.path.reports = [.changed 0x110]
  few : u.path.reports.length ≤ 21

theorem emptyRoad : (∀ i : Fin 16, ({} : RoadUnit).segments[i].holders = [] ∧ ({} : RoadUnit).segments[i].queue = [])
    ∧ ∀ p : Fin 32, ({} : RoadUnit).trucks[p] = none := by decide

theorem startedActed_evaluated (h : Fresh s) (w : Word) : Evaluated s (outcomeWord w outDone 0) (startedActed w s) := by
  have entry := announced_entry h w
  have looped := entry.announced.evaluated
  have hacted : startedActed w s = withOutcome (some (outcomeWord w outDone 0)) (reevaluate (fun _ => true) (announced w s)) := rfl
  rw [hacted]
  generalize announced w s = e at entry looped ⊢
  generalize reevaluate (fun _ => true) e = u at looped ⊢
  obtain ⟨hqueue, hshown, hfollow, hsweep, hscan⟩ := entry.path
  have hsame := looped.same
  have heff : u.effective = e.effective := (congrArg State.effective hsame).trans rfl
  have htime : u.time = e.time := (congrArg State.time hsame).trans rfl
  have hroad : u.road = {} := (congrArg State.road hsame).trans entry.road
  have hring : u.ring = e.ring := (congrArg State.ring hsame).trans rfl
  have hlist : u.ring.list = [] := by rw [hring]; exact entry.list
  have hrequests : u.ring.requests = [] := by rw [hring]; exact entry.requests
  have path {α : Type} (f : PathUnit → α) (hf : ∀ p P R, f { p with posts := P, reports := R } = f p) : f u.path = f e.path :=
    (congrArg (fun v : State => f v.path) hsame).trans (hf _ _ _)
  refine {
    starting := {
      run := (congrArg State.run hsame).trans entry.announced.run
      effective := heff.trans entry.effective
      strap := (congrArg State.strap hsame).trans entry.strap
      time := htime.trans entry.time
      waits := (congrArg State.waitCycles hsame).trans entry.waits
      enabled := fun i hi => entry.effective ▸ looped.enabled i hi
      must := looped.must
      reports := looped.reports
      outcome := rfl
      path := ⟨(path (·.queue) fun _ _ _ => rfl).trans hqueue, (path (·.shown) fun _ _ _ => rfl).trans hshown,
        (path (·.followUp) fun _ _ _ => rfl).trans hfollow, (path (·.sweep) fun _ _ _ => rfl).trans hsweep,
        (path (·.scanCursor) fun _ _ _ => rfl).trans hscan⟩ }
    idle := ⟨?_, ?_, ?_⟩
    unmarked := ?_
    requests := hrequests
    posts := ?_
    consume := (congrArg (fun v : State => v.fault.consume) hsame).trans entry.announced.consume
    produce := ?_
    level := looped.level
    alerts := looped.alerts
    taken := looped.taken.trans (tripped_length u)
    faults := looped.faults
    cause := looped.cause
    quiet := fun hoff => looped.idle (entry.effective.symm ▸ hoff)
    few := looped.length }
  · show ∀ i : Fin 16, u.road.segments[i].holders = [] ∧ u.road.segments[i].queue = []
    rw [hroad]
    exact emptyRoad.1
  · show ∀ p : Fin 32, u.road.trucks[p] = none
    rw [hroad]
    exact emptyRoad.2
  · show u.ring.list.length + u.ring.requests.length ≤ 0
    rw [hlist, hrequests]
    exact Nat.le_refl 0
  · show findIndex u.road.segments (fun g => g.marked) = none
    rw [hroad]
    rfl
  · have hindex : indexWrite e = indexWrite u := by
      unfold indexWrite eventsAddr
      rw [heff]
    have hblocks : tripBlocks e u.cells (tripped u) = tripBlocks u u.cells (tripped u) := by
      refine List.mapIdx_eq_mapIdx_iff.mpr fun k hk => ?_
      obtain ⟨hwords, hcount⟩ := counted_congr (v := e) (u := u) heff.symm htime.symm k 0x18 (tripped u)[k].val
        (detail ((3, CellState.code u.cells[(tripped u)[k]].state) :: truthFields u.cells[(tripped u)[k]].truths))
      rw [tripBlock, trippedWords, hwords, hcount]
      rfl
    have hposts : u.path.posts = e.path.posts ++ (tripBlocks e u.cells (tripped u)).flatten.map .write := looped.posts
    show u.path.posts = firstPosts (indexWrite u) ([startRecord (startInfo s) u] ++ tripRecords u u.cells (tripped u))
    rw [firstPosts_append, recordPosts_trips, ← hblocks, hposts, entry.posts, hindex, startRecord_congr heff.symm htime.symm]
  · show u.fault.produce.toNat = 1 + (tripped u).length
    have hfew := tripped_length u
    have hproduce : u.fault.produce = BitVec.ofNat 16 (1 + (tripped u).length) := looped.produce
    rw [hproduce, BitVec.toNat_ofNat]
    omega

end
end Sys2Proof.Machine
end

section
/-! PROOFS. RUN entry's event from the evaluated cells to the units at rest, with and without a trip (R47, R54, R92, R142). -/

set_option Elab.async false

namespace Sys2Proof.Machine

open Sys2Proof.Config

section
variable {s u v s0 : State} {d : Word} {P : List Post}

/-- The report words of a trip. -/
def tripOffsets (i : Fin 4) : List Nat := [0x110, 0x100 + 4 * i.val, 0x010]

theorem tripOffsets_swept (i : Fin 4) : ∀ o ∈ tripOffsets i, o ∈ sweepWords := by
  revert i
  decide

/-- The units are at rest, and the own-writes of RUN entry's event begin to enter the queue. -/
structure Rested (s : State) (d : Word) (s0 u : State) (P : List Post) : Prop where
  starting : Starting s d u
  level : levelOf u.level = u.level.level
  handing : Handing s0 u (indexWrite u) (startRecords (startInfo s) u) u.fault.produce.toNat P d
  differs : ∀ i ∈ tripped u, ∀ o ∈ tripOffsets i, mirror s0 o ≠ mirror u o
  few : P.length + u.path.reports.length ≤ 1000

theorem entryBase_cell (v : State) (i : Fin 4) : (entryBase v).cells[i] = startCell v.effective.cells[i] := mapTable_get _ _ i

/-- With no cell tripped the units are at rest. -/
theorem Evaluated.rested (h : Evaluated s d u) (ha : Apart u) (hnil : tripped u = []) : Rested s d (entryBase u) u [] := by
  have hlevel : levelOf u.level = .normal := by
    rw [levelOf, h.cause hnil, h.alerts, hnil]
    rfl
  have hproduce : u.fault.produce.toNat = 1 := by rw [h.produce, hnil]; rfl
  have hrecords : startRecords (startInfo s) u = [startRecord (startInfo s) u] := by
    rw [startRecords, hnil, if_pos rfl]
    rfl
  obtain ⟨hqueue, hshown, hfollow, -, hscan⟩ := h.starting.path
  have hunits : settleUnits (entryBase u) u = none := by
    refine settleUnits_rest ?_ h.unmarked h.idle.forgettable ?_ h.requests ?_
    · simp [levelFirst, levelDue, hlevel, h.level]
    · simp [musterStale, h.level]
    · simp [canBuild, hscan]
  refine ⟨h.starting, hlevel.trans h.level.symm, ?_, ?_, ?_⟩
  · refine ⟨ha, hunits, hqueue, hshown, hfollow, ?_, h.starting.outcome, List.cons_ne_nil _ _, startRecords_placed _ u, ?_, rfl, ?_, ?_,
      fun x hx => (by cases hx), h.starting.reports, ?_⟩
    · rw [h.posts, hrecords, hnil, List.append_nil]
      rfl
    · rw [hrecords]
      exact Nat.le_add_left 1 6
    · rw [hrecords, hproduce]
      exact Nat.le_refl 1
    · rw [hproduce]
      decide
    · rw [startRecords_index, hrecords, hproduce]
      rfl
  · rw [hnil]
    exact fun i hi => by cases hi
  · have := h.few
    rw [List.length_nil]
    omega

theorem Evaluated.tripped (h : Evaluated s d u) (hne : Machine.tripped u ≠ []) : Tripped u where
  run := h.starting.run
  level := h.level
  alerts := by
    rw [h.alerts]
    exact fun hnil => hne (List.map_eq_nil_iff.mp hnil)
  faults := h.faults
  taken := h.taken
  consume := h.consume
  low := by rw [h.produce]; omega
  high := by
    have := tripped_length u
    rw [h.produce]
    omega

/-- The record of the change of the level stands behind the cells' records. -/
theorem Evaluated.leveled (h : Evaluated s d u) (hne : Machine.tripped u ≠ []) (hv : Machine.leveled .normal (levelOf u.level) u = v) :
    Starting s d v ∧ v.path.posts = firstPosts (indexWrite v) (startRecords (startInfo s) v)
      ∧ v.fault.produce.toNat = (startRecords (startInfo s) v).length ∧ v.path.reports = u.path.reports
      ∧ v.level.level = levelOf u.level ∧ v.level.cause = u.level.cause ∧ v.level.alerts = u.level.alerts ∧ v.cells = u.cells := by
  rw [(h.tripped hne).leveled] at hv
  have htripped : Machine.tripped v = Machine.tripped u := by rw [← hv]; rfl
  have heff : v.effective = u.effective := by rw [← hv]
  have htime : v.time = u.time := by rw [← hv]
  have hfew := tripped_length u
  have hproduce := h.produce
  have hstarting := h.starting
  have hlength := startRecords_length (startInfo s) v
  rw [htripped, if_neg hne] at hlength
  refine ⟨?_, ?_, ?_, by rw [← hv], by rw [← hv], by rw [← hv], by rw [← hv], by rw [← hv]⟩
  · subst hv
    exact ⟨hstarting.run, hstarting.effective, hstarting.strap, hstarting.time, hstarting.waits, hstarting.enabled, hstarting.must,
      hstarting.reports, hstarting.outcome, hstarting.path⟩
  · have hcount : u.fault.produce = (counted v (Machine.tripped u).length).fault.produce :=
      BitVec.eq_of_toNat_eq (by rw [hproduce, counted_produce (by omega), Nat.add_comm])
    have hwords := recordWords_congr (u := u) (s := counted v (Machine.tripped u).length) heff.symm htime.symm hcount 0x20 0
      (enteredDetail (levelOf u.level) u.level.cause)
    have hindex := produceWrite_congr (u := u) (s := counted v (Machine.tripped u).length) heff.symm hcount
    have hposts : v.path.posts = u.path.posts
        ++ (recordWords u 0x20 0 (enteredDetail (levelOf u.level) u.level.cause) ++ [produceWrite u]).map .write := by rw [← hv]
    have hstart : indexWrite u = indexWrite v := by
      unfold indexWrite eventsAddr
      rw [heff]
    have hchanged : recordPosts [changedRecord v (Machine.tripped u).length]
        = recordWords u 0x20 0 (enteredDetail (levelOf u.level) u.level.cause) ++ [produceWrite u] := by
      have hlevel : v.level.level = levelOf u.level := by rw [← hv]
      have hcause : v.level.cause = u.level.cause := by rw [← hv]
      rw [hwords, hindex, recordPosts, changedRecord, hlevel, hcause]
      exact List.append_nil _
    have hcells : v.cells = u.cells := by rw [← hv]
    have hrecords : startRecords (startInfo s) v = (startRecord (startInfo s) u :: tripRecords u u.cells (Machine.tripped u))
        ++ [changedRecord v (Machine.tripped u).length] := by
      rw [startRecords, htripped, if_neg hne, hcells, startRecord_congr heff htime, tripRecords_congr heff htime]
      rfl
    rw [hposts, h.posts, hrecords, firstPosts_append, hchanged, hstart]
  · have hnext : v.fault.produce = u.fault.produce + 1 := by rw [← hv]
    rw [hlength, hnext, BitVec.toNat_add, hproduce]
    show (1 + (Machine.tripped u).length + 1) % 65536 = _
    omega

/-- With a cell tripped the level is derived and the units come to rest. -/
theorem Evaluated.rests (h : Evaluated s d u) (ha : ∀ t : State, t.effective = s.copies → t.strap = s.strap → Apart t)
    (hlines : ∀ i : Fin 4, s.copies.cells[i].enabled = true → ∃ n : Fin 8, s.copies.lines[n].fn = .tripOut i)
    (hne : Machine.tripped u ≠ []) : ∃ k ≤ 84, ∃ t P, SettlesIn k (entryBase u) u t ∧ Rested s d (entryBase u) t P := by
  have htripped := h.tripped hne
  obtain ⟨derived, idle, hlevel⟩ := htripped.derived h.idle
  obtain ⟨starting, hposts, hproduce, hreports, hleveled, hcause, halerts, hcells⟩ := h.leveled hne rfl
  obtain ⟨-, -, hfollow, -, hscan⟩ := h.starting.path
  have hof := levelOf_of_alerts htripped.alerts
  have hfirst : levelFirst (entryBase u) u = true := by
    have hbase : (entryBase u).level.level = .normal := rfl
    have hrun := h.starting.run
    have hnormal := h.level
    simp [levelFirst, levelDue, hrun, hnormal, hbase, hof]
  have step := SettlesIn.of_step (settleStep_derive (s0 := entryBase u) h.starting.run (by simp [followUpFree, hfollow]) hfirst)
  have resting : Resting (deriveLevel u) := by
    obtain ⟨-, -, hfollow', -, hscan'⟩ := (starting.hands derived).path
    refine ⟨(starting.hands derived).run, ?_, idle, hscan', hfollow'⟩
    rw [hlevel, levelOf, derived.cause, derived.alerts, hcause, halerts]
    rfl
  have hwork : workLeft (deriveLevel u) + (deriveLevel u).ring.requests.length ≤ 83 := by
    have := workLeft_le (deriveLevel u)
    have := idle.frames
    omega
  obtain ⟨k, hk, t, settles, hands, rests, hunits⟩ := resting.settles (s0 := entryBase u) hwork
  have whole := derived.trans hands
  generalize Machine.leveled .normal (levelOf u.level) u = v at derived starting hposts hproduce hreports hleveled hcause halerts hcells whole
  have starting' := starting.hands whole
  have hrecords : startRecords (startInfo s) t = startRecords (startInfo s) v :=
    startRecords_congr whole.effective whole.time whole.cells whole.level whole.cause
  have hfew := startRecords_length (startInfo s) v
  have htrips := tripped_length v
  have hlow := whole.low
  have hhigh := whole.high
  obtain ⟨Q, R, hpath, hlen, hlater, hR, hlast⟩ := whole.path
  obtain ⟨hqueue, hshown, hfollow', -, -⟩ := starting'.path
  have hindex : indexWrite t = indexWrite v := by
    unfold indexWrite eventsAddr
    rw [whole.effective]
  have hseven : (startRecords (startInfo s) v).length ≤ 6 := by
    rw [hfew]
    split
    · omega
    · omega
  refine ⟨1 + k, by omega, t, Q, step.trans settles, starting', rests.level, ?_, fun i hi => ?_, ?_⟩
  · refine ⟨ha t starting'.effective starting'.strap, hunits, hqueue, hshown, hfollow', ?_, starting'.outcome, List.cons_ne_nil _ _,
      startRecords_placed _ t, ?_, rfl, ?_, by omega, fun x hx => ?_, starting'.reports, ?_⟩
    · rw [hpath, hrecords, hindex, ← hposts]
    · rw [hrecords]
      omega
    · rw [hrecords, ← hproduce]
      exact hlow
    · rw [hrecords, ← hproduce]
      exact (hlater x hx).wider whole.effective (Nat.le_refl _) (Nat.le_refl _)
    · rw [hrecords, startRecords_index, ← hproduce]
      exact hlast
  · have hactive : tripActive t.cells[i] = true := (List.mem_filter.mp hi).2
    have hon := starting'.enabled i hi
    obtain ⟨n, hn⟩ := hlines i hon
    have hbase : (entryBase u).effective = s.copies := h.starting.effective
    have hready : (entryBase u).cells[i].state = .ready := by
      rw [entryBase_cell, h.starting.effective, startCell, hon]
      rfl
    have hraised : t.level.level ≠ .normal := by
      rw [whole.level, hleveled]
      exact hof
    obtain ⟨hword, hline, hcell⟩ := mirror_trip_ne (s := entryBase u) (t := t) (i := i) rfl hraised hready hactive (n := n)
      (starting'.effective.trans hbase.symm) (by rw [hbase]; exact hn)
    simp only [tripOffsets, List.mem_cons, List.not_mem_nil, or_false]
    rintro o (rfl | rfl | rfl)
    · exact hline
    · exact hcell
    · exact hword
  · have hlength : t.path.reports.length = v.path.reports.length + R.length := by
      rw [hpath]
      exact List.length_append
    have := h.few
    rw [hreports] at hlength
    omega

/-- With no cell enabled no line value changes. -/
theorem Evaluated.same_line (h : Evaluated s d u) (hoff : ∀ i : Fin 4, s.copies.cells[i].enabled = false)
    (hcells : ∀ i : Fin 4, tripActive u.cells[i] = false) :
    mirror (entryBase u) 0x110 = mirror u 0x110 := by
  have hvalue (n : Fin 8) : lineValue (entryBase u) n = lineValue u n := by
    unfold lineValue
    have heff : (entryBase u).effective = u.effective := rfl
    rw [heff, h.level]
    split
    · rfl
    · rename_i i _
      have hbase : tripActive (entryBase u).cells[i] = false := by
        refine not_tripActive (.inr ?_)
        rw [entryBase_cell, h.starting.effective, startCell, hoff i]
        rfl
      rw [hbase, hcells i]
    · rfl
    · rfl
    · rfl
    · rfl
  rw [mirror_line_word, mirror_line_word]
  refine BitVec.eq_of_toNat_eq ?_
  rw [mirrorLines_toNat, mirrorLines_toNat]
  refine congrArg (Nat.ofDigits 16) (List.map_congr_left fun n _ => ?_)
  rw [lineDigit, hvalue n]
  rfl

end
end Sys2Proof.Machine
end

section
/-! PROOFS. The end of RUN entry's event: the queue that it leaves, and the sweep's first word behind it (R71, R164, R166, R167). -/

set_option Elab.async false

namespace Sys2Proof.Machine

open Sys2Proof.Config

section
variable {s u v t s0 a : State} {w d : Word} {P : List Post} {Q : List OwnWrite}

/-! ## The sweep's first word -/

theorem sweepWords_ascend : sweepWords.IsChain (· < ·) := by decide +kernel

theorem sweepWords_nodup : sweepWords.Nodup := (List.isChain_iff_pairwise.mp sweepWords_ascend).imp fun h => Nat.ne_of_lt h

theorem sweepWords_many : 31 < sweepWords.length := by decide +kernel

/-- A queue with room leaves a swept word without an entry. -/
theorem sweepNext_exists (ha : Apart v) {q : List OwnWrite} (hroom : q.length < 32) : ∃ o, SweepNext v q 0x010 o := by
  by_contra hno
  have hqueued : ∀ o ∈ sweepWords, queued q (reportAddr v o) = true := by
    have hfind : sweepWords.find? (fun o => decide (0x010 ≤ o) && !queued q (reportAddr v o)) = none := by
      rw [Option.eq_none_iff_forall_not_mem]
      exact fun o ho => hno ⟨o, (sweepNext_iff v q 0x010 o).mpr ho⟩
    intro o ho
    have hfree := List.find?_eq_none.mp hfind o ho
    have hlow : decide (0x010 ≤ o) = true := decide_eq_true (sweepWords_range o ho).1
    simpa [hlow] using hfree
  have hnodup : (sweepWords.map (reportAddr v)).Nodup := List.Nodup.map_on (fun o ho k hk he =>
    ha.report (sweepWords_range o ho).2 (sweepWords_range k hk).2 he) sweepWords_nodup
  have hsub : sweepWords.map (reportAddr v) ⊆ q.map (·.addr) := fun a hm => by
    obtain ⟨o, ho, rfl⟩ := List.mem_map.mp hm
    by_contra hout
    have := (queued_of_new hout).symm.trans (hqueued o ho)
    cases this
  have hle := (List.subperm_of_subset hnodup hsub).length_le
  rw [List.length_map, List.length_map] at hle
  have := sweepWords_many
  omega

/-! ## The queue that the event leaves -/

/-- The own-writes of RUN entry's event wait, with `Q` behind the first records, and the sweep has begun if they left it room. -/
structure StartQueue (s : State) (d : Word) (t : State) (Q : List OwnWrite) : Prop where
  queue : (∃ o, SweepNext t (firstQueue t (indexWrite t) (startRecords (startInfo s) t) ++ Q ++ [outcomeWrite t d]) 0x010 o
        ∧ t.path.queue = firstQueue t (indexWrite t) (startRecords (startInfo s) t) ++ Q ++ [outcomeWrite t d] ++ [mirrorWrite t o]
        ∧ t.path.sweep = sweepAfter o)
      ∨ (t.path.queue = firstQueue t (indexWrite t) (startRecords (startInfo s) t) ++ Q ++ [outcomeWrite t d]
        ∧ (firstQueue t (indexWrite t) (startRecords (startInfo s) t) ++ Q ++ [outcomeWrite t d]).length = 32
        ∧ t.path.sweep = some 0x010)
  must : ∀ i ∈ tripped t, ∀ o ∈ tripOffsets i, mirrorWrite t o ∈ Q
  later : ∀ e ∈ Q, LaterEntry t (startRecords (startInfo s) t).length t.fault.produce.toNat e
  followUp : t.path.followUp = some (word t.fault.produce.toNat)

theorem startRecords_drive (info : Word) (u : State) (p : PathUnit) :
    startRecords info (driveLines (onPath u p)) = startRecords info u := startRecords_congr rfl rfl rfl rfl rfl

theorem drive_onPath (u : State) (p : PathUnit) : (driveLines (onPath u p)).waitCycles = u.waitCycles
    ∧ (driveLines (onPath u p)).fault = u.fault := ⟨rfl, rfl⟩

/-- The sweep begins behind the outcome word. -/
theorem Rested.swept (h : Rested s d s0 u P)
    (hlen : (firstQueue u (indexWrite u) (startRecords (startInfo s) u) ++ Q ++ [outcomeWrite u d]).length ≤ 32)
    (hlater : ∀ e ∈ Q, LaterEntry u (startRecords (startInfo s) u).length u.fault.produce.toNat e)
    (hmust : ∀ i ∈ tripped u, ∀ o ∈ tripOffsets i, mirrorWrite u o ∈ Q) :
    ∃ p, sweepPut (startedEnd u (indexWrite u) (startRecords (startInfo s) u) u.fault.produce.toNat d Q) = onPath u p
      ∧ StartQueue s d (driveLines (onPath u p)) Q := by
  obtain ⟨-, -, -, hsweep, -⟩ := h.starting.path
  have hcursor : (startedEnd u (indexWrite u) (startRecords (startInfo s) u) u.fault.produce.toNat d Q).path.sweep = some 0x010 := hsweep
  rcases Nat.lt_or_ge (firstQueue u (indexWrite u) (startRecords (startInfo s) u) ++ Q ++ [outcomeWrite u d]).length 32 with hroom | hfull
  · obtain ⟨o, ho⟩ := sweepNext_exists h.handing.apart hroom
    have hput := sweepPut_some (s := startedEnd u (indexWrite u) (startRecords (startInfo s) u) u.fault.produce.toNat d Q) hcursor hroom ho
    refine ⟨_, hput, ?_, hmust, ?_, rfl⟩
    · rw [startRecords_drive]
      exact .inl ⟨o, ho, rfl, rfl⟩
    · rw [startRecords_drive]
      exact hlater
  · have hput : sweepPut (startedEnd u (indexWrite u) (startRecords (startInfo s) u) u.fault.produce.toNat d Q)
        = startedEnd u (indexWrite u) (startRecords (startInfo s) u) u.fault.produce.toNat d Q := by
      have hno : ¬(startedEnd u (indexWrite u) (startRecords (startInfo s) u) u.fault.produce.toNat d Q).path.queue.length < queueSize :=
        Nat.not_lt.mpr hfull
      unfold sweepPut
      simp only [hcursor, hno, if_false]
    refine ⟨_, hput, ?_, hmust, ?_, rfl⟩
    · rw [startRecords_drive]
      exact .inr ⟨rfl, Nat.le_antisymm hlen hfull, hsweep⟩
    · rw [startRecords_drive]
      exact hlater

/-! ## The event -/

theorem startedActed_base (h : Fresh s) (w : Word) : eventBase (begun w s) (startedActed w s) = entryBase (startedActed w s) := by
  have hrun := (startedActed_evaluated h w).starting.run
  have hbefore : (begun w s).run = false := h.run
  rw [eventBase, hrun, hbefore]
  rfl

/-- The event of an accepted START, by the state in which its own-writes have entered. -/
theorem doneEvent_start (h : Fresh s) (w : Word) : doneEvent w runEntry s = driveLines (levelEvents 2
    (if (settle settleBound (entryBase (startedActed w s)) (startedActed w s)).run
      then sweepPut (settle settleBound (entryBase (startedActed w s)) (startedActed w s))
      else settle settleBound (entryBase (startedActed w s)) (startedActed w s))) := by
  have heq : doneEvent w runEntry s = driveLines (levelEvents 2
      (if (settle settleBound (eventBase (begun w s) (startedActed w s)) (startedActed w s)).run && !(begun w s).run
        then sweepPut (settle settleBound (eventBase (begun w s) (startedActed w s)) (startedActed w s))
        else settle settleBound (eventBase (begun w s) (startedActed w s)) (startedActed w s))) := event_eq _ _
  have hbefore : (begun w s).run = false := h.run
  rw [heq, startedActed_base h w, hbefore, Bool.not_false, Bool.and_true]

theorem doneEvent_started (h : Fresh s) (ha : startedActed w s = a) (hrested : Rested s d s0 u P)
    (hend : settle settleBound (entryBase a) a
      = startedEnd u (indexWrite u) (startRecords (startInfo s) u) u.fault.produce.toNat d Q)
    (hlen : (firstQueue u (indexWrite u) (startRecords (startInfo s) u) ++ Q ++ [outcomeWrite u d]).length ≤ 32)
    (hlater : ∀ e ∈ Q, LaterEntry u (startRecords (startInfo s) u).length u.fault.produce.toNat e)
    (hmust : ∀ i ∈ tripped u, ∀ o ∈ tripOffsets i, mirrorWrite u o ∈ Q) :
    ∃ p, doneEvent w runEntry s = driveLines (onPath u p) ∧ StartQueue s d (driveLines (onPath u p)) Q := by
  obtain ⟨p, hput, hqueue⟩ := hrested.swept hlen hlater hmust
  have hrun : (startedEnd u (indexWrite u) (startRecords (startInfo s) u) u.fault.produce.toNat d Q).run = true := hrested.starting.run
  have hdue : levelDue (onPath u p) = false := by
    have hlevel : levelOf (onPath u p).level = (onPath u p).level.level := hrested.level
    simp [levelDue, hlevel]
  refine ⟨p, ?_, hqueue⟩
  rw [doneEvent_start h w, ha, hend, hrun, if_pos rfl, hput, levelEvents_of_not_due 2 hdue]

theorem doneEvent_stalled (h : Fresh s) (ha : startedActed w s = a) (hwaits : (settle settleBound (entryBase a) a).waitCycles ≠ 0) :
    (doneEvent w runEntry s).waitCycles ≠ 0 := by
  rw [doneEvent_start h w, ha]
  generalize settle settleBound (entryBase a) a = v at hwaits ⊢
  have hle := levelEvents_waits 2 (if v.run then sweepPut v else v)
  have hsame : (if v.run then sweepPut v else v).waitCycles = v.waitCycles := by
    split
    · exact sweepPut_waits v
    · rfl
  show (levelEvents 2 (if v.run then sweepPut v else v)).waitCycles ≠ 0
  omega

/-- The own-writes of an accepted START wait in their order, or the queue has stalled; with no cell enabled it does not stall, and nothing
stands behind the first records. -/
theorem started_queue (h : Fresh s) (hpass : failingCheck s = none) (w : Word) :
    ((doneEvent w runEntry s).waitCycles ≠ 0 ∨ ∃ Q, StartQueue s (outcomeWord w outDone 0) (doneEvent w runEntry s) Q)
      ∧ ((∀ i : Fin 4, s.copies.cells[i].enabled = false) → StartQueue s (outcomeWord w outDone 0) (doneEvent w runEntry s) []
        ∧ (doneEvent w runEntry s).waitCycles = 0 ∧ (doneEvent w runEntry s).fault.produce = 1) := by
  have evaluated := startedActed_evaluated h w
  obtain ⟨a, ha⟩ : ∃ a, startedActed w s = a := ⟨_, rfl⟩
  rw [ha] at evaluated
  have apart (t : State) (heff : t.effective = s.copies) (hstrap : t.strap = s.strap) : Apart t := apart_of_checks hpass heff hstrap
  have lines (i : Fin 4) (hon : s.copies.cells[i].enabled = true) : ∃ n : Fin 8, s.copies.lines[n].fn = .tripOut i := by
    have hcheck : StartCheckPasses s 11 := failingCheck_none_iff.mp hpass 11 (by decide) (by decide)
    exact (hcheck i hon).1
  constructor
  · have reached : ∃ k ≤ 84, ∃ u P, SettlesIn k (entryBase a) a u
        ∧ Rested s (outcomeWord w outDone 0) (entryBase a) u P := by
      by_cases hnil : tripped a = []
      · exact ⟨0, Nat.zero_le _, _, _, .refl _ _, evaluated.rested (apart _ evaluated.starting.effective evaluated.starting.strap) hnil⟩
      · exact evaluated.rests apart lines hnil
    obtain ⟨k, hk, u, P, settles, rested⟩ := reached
    have hbound : settleBound = 20000 := rfl
    rcases rested.handing.settles (must := (tripped u).flatMap tripOffsets)
      (fun o ho => by
        obtain ⟨i, hi, hoi⟩ := List.mem_flatMap.mp ho
        exact ⟨tripOffsets_swept i o hoi, rested.differs i hi o hoi⟩)
      (fun o ho => by
        obtain ⟨i, hi, hoi⟩ := List.mem_flatMap.mp ho
        exact rested.starting.must i hi _ (List.mem_map.mpr ⟨o, hoi, rfl⟩)) rested.few with arrives | stalls
    · obtain ⟨Q, hend, hlen, hlater, hmust⟩ := arrives.settled settles (by omega)
      obtain ⟨p, ht, hqueue⟩ := doneEvent_started h ha rested hend hlen hlater fun i hi o ho => hmust o (List.mem_flatMap.mpr ⟨i, hi, ho⟩)
      exact .inr ⟨Q, ht ▸ hqueue⟩
    · exact .inl (doneEvent_stalled h ha (stalls.settled settles (by omega)))
  · intro hoff
    have hnil : tripped a = [] := List.eq_nil_iff_forall_not_mem.mpr fun i hi => by
      have hon := evaluated.starting.enabled i hi
      rw [hoff i] at hon
      cases hon
    have rested := evaluated.rested (apart _ evaluated.starting.effective evaluated.starting.strap) hnil
    have hsame := evaluated.same_line hoff fun i => by
      rcases Bool.eq_false_or_eq_true (tripActive a.cells[i]) with hon | hoff
      · have hi : i ∈ tripped a := List.mem_filter.mpr ⟨List.mem_finRange i, hon⟩
        rw [hnil] at hi
        cases hi
      · exact hoff
    have hbound : settleBound = 20000 := rfl
    have hone : a.fault.produce.toNat = 1 := by rw [evaluated.produce, hnil]; rfl
    have arrives := rested.handing.quiet (evaluated.quiet hoff) hsame
    have hend := arrives.settled (.refl (entryBase a) a) (by omega)
    have hrecords : startRecords (startInfo s) a = [startRecord (startInfo s) a] := by
      rw [startRecords, hnil, if_pos rfl]
      rfl
    obtain ⟨p, ht, hqueue⟩ := doneEvent_started h ha rested hend (by rw [hrecords]; exact Nat.le_add_left 8 24) (fun e he => by cases he)
      (fun i hi => by rw [hnil] at hi; cases hi)
    obtain ⟨hwaits, hfault⟩ := drive_onPath a p
    rw [ht, hwaits, hfault]
    exact ⟨hqueue, evaluated.starting.waits, BitVec.eq_of_toNat_eq hone⟩

end
end Sys2Proof.Machine
end

section
/-! PROOFS. An accepted START enters RUN (R166). -/

set_option Elab.async false

namespace Sys2Proof.Machine

open Sys2Proof.Config

section
variable {s t : State} {d : Word} {Q : List OwnWrite}

/-! ## The first own-writes as the statement lists them -/

/-- The words of the cells' records. -/
theorem tripRecords_entries (t : State) : recordEntries (tripRecords t t.cells (tripped t))
    = (((List.finRange 4).filter fun i => tripActive t.cells[i]).mapIdx
    (fun j i => recordWords { t with fault := { produce := BitVec.ofNat 16 (1 + j) } } 0x18 i.val
      (detail ((3, CellState.code t.cells[i].state) :: truthFields t.cells[i].truths)))).flatten := by
  refine congrArg List.flatten (List.ext_getElem (by simp [tripRecords, tripped, trips]) fun k _ _ => ?_)
  simp only [tripRecords, List.getElem_map, List.getElem_mapIdx]
  rfl

/-- The first own-writes in their order. -/
theorem firstQueue_start (heff : t.effective = s.copies) : firstQueue t (indexWrite t) (startRecords (startInfo s) t)
    = ([mirrorWrite t 0x000, mirrorWrite t 0x004, { addr := eventsAddr t 0, data := 0, kind := .trailing }]
        ++ recordWords { t with fault := {} } 0x01 s.copies.node.nodeId.toNat
            (detail [(2, ResetKind.code s.resetKind), (16, s.resetCount)]))
      ++ recordEntries (tripRecords t t.cells (tripped t))
      ++ (if tripped t = [] then [] else
          recordWords { t with fault := { produce := BitVec.ofNat 16 (1 + (tripped t).length) } } 0x20 0
            (enteredDetail t.level.level t.level.cause)) := by
  have happend (L M : List (List OwnWrite × OwnWrite)) : recordEntries (L ++ M) = recordEntries L ++ recordEntries M := by
    rw [recordEntries, List.map_append, List.flatten_append]
    rfl
  have hnode : s.copies.node.nodeId = t.effective.node.nodeId := by rw [heff]
  have hlast : recordEntries (if tripped t = [] then [] else [changedRecord t (tripped t).length]) = if tripped t = [] then [] else
      recordWords { t with fault := { produce := BitVec.ofNat 16 (1 + (tripped t).length) } } 0x20 0
        (enteredDetail t.level.level t.level.cause) := by
    split
    · rfl
    · exact List.append_nil _
  rw [hnode, ← hlast, List.append_assoc _ (recordEntries _), ← happend, List.append_assoc]
  rfl

end

section
variable {s : State} {w : Word}

/-! ## The tables that RUN entry leaves -/

theorem sampleLines_get (s : State) (lines : Vector LineSet 8) (n : Fin 8) : (sampleLines s lines)[n] = (s.pins[n] ^^ lines[n].invert) := by
  have hindex : (⟨⟨List.finRange 8⟩, by simp⟩ : Vector (Fin 8) 8)[n] = n := List.getElem_finRange n.isLt
  exact (mapTable_get _ _ n).trans (congrArg (fun k : Fin 8 => s.pins[k] ^^ lines[k].invert) hindex)

theorem started_sampled (w : Word) (s : State) (n : Fin 8) :
    (doneEvent w runEntry s).sampled[n] = (s.pins[n] ^^ s.copies.lines[n].invert) := by
  obtain ⟨v, hv⟩ := enterRun_eq (begun w s)
  have hsampled : (doneEvent w runEntry s).sampled = sampleLines s s.copies.lines := calc
    (doneEvent w runEntry s).sampled = (reevaluate (fun _ => true) (announced w s)).sampled := doneEvent_acted.sampled
    _ = (announced w s).sampled := (reevaluate_alike _ _).sampled
    _ = (enterRun (begun w s)).sampled := (announceStart_sameBut _).sampled
    _ = sampleLines s s.copies.lines := by rw [hv]; rfl
  simp only [hsampled]
  exact sampleLines_get s s.copies.lines n

theorem started_next (w : Word) (s : State) (r : Fin 4) :
    (doneEvent w runEntry s).ring.rings[r].next = some (Fin.ofNat 64 (ringStart (doneEvent w runEntry s) r.val)) := by
  have same := started_sameBut (w := w) (s := s)
  have hrings : (doneEvent w runEntry s).ring.rings = (enterRun (begun w s)).ring.rings := same.rings
  have hstart : ringStart (doneEvent w runEntry s) r.val = ringStart (enterRun (begun w s)) r.val := by
    unfold ringStart
    rw [same.effective]
  simp only [hrings]
  rw [hstart]
  exact enterRun_next (begun w s) r

end

/-- Settles O7: the tables by RUN entry's assignments and evaluation, and the queue by the event's end, step by step. -/
theorem startEntersRun : Obligations.StartEntersRun := by
  unfold Obligations.StartEntersRun
  intro tag arg s hrun hpass
  refine ⟨doneEvent (requestWord 1 tag arg) runEntry s, exec_start tag arg hrun hpass, ?_⟩
  obtain ⟨v, hv⟩ := enterRun_eq (begun (requestWord 1 tag arg) s)
  have same := started_sameBut (w := requestWord 1 tag arg) (s := s)
  have hcells := started_cells (requestWord 1 tag arg) s
  have hsampled := started_sampled (requestWord 1 tag arg) s
  have hnext := started_next (requestWord 1 tag arg) s
  have hrepeat := started_repeat (requestWord 1 tag arg) s
  have hdrive : (doneEvent (requestWord 1 tag arg) runEntry s).drive = lineDrives (doneEvent (requestWord 1 tag arg) runEntry s) :=
    event_drive _ _
  have hqueue := fun h : Fresh s => started_queue h hpass (requestWord 1 tag arg)
  generalize doneEvent (requestWord 1 tag arg) runEntry s = t at same hcells hsampled hnext hrepeat hdrive hqueue ⊢
  rw [hv] at same
  have heff : t.effective = s.copies := same.effective
  have hstrap : t.strap = s.strap := same.strap
  have hchannels : t.channels = mapTable startChannel s.copies.channels := same.channels
  have hchambers : t.chambers = mapTable startChamber s.copies.chambers := same.chambers
  have hrate : t.rate = PeriodTimer.start s.copies.node.rateWindow := same.rate
  have hframe : t.frame = s.frame := same.frame
  have hcall : t.call = s.call := same.call
  obtain ⟨-, hpatrol, -⟩ := same.fault
  obtain ⟨harming, hscan, hcursor, hpending⟩ := same.path
  obtain ⟨⟨hpend, hrun', -, hkind, hcount, hcopies, hstaged, -, hpins, htime⟩, hread, -⟩ := same
  refine ⟨hrun', heff, htime, fun i => ?_, fun c => ?_, fun i => (hcells i).1, fun i => (hcells i).2, hrate, hrepeat, hpatrol, hscan, hcursor,
    hpending, hsampled, hdrive, hnext, hpend, hstrap, hkind, hcount, hcopies, hstaged, hpins, hread (by decide), hframe, hcall, harming,
    fun hlevel hroad hfault hlist hempty hfollow => ?_⟩
  · simp only [hchannels]
    exact mapTable_get _ _ i
  · simp only [hchambers]
    exact mapTable_get _ _ c
  · have hfresh : Fresh s := ⟨hrun, hlevel, hroad, hfault, hlist, hempty, hfollow⟩
    obtain ⟨hwaits, hoff⟩ := hqueue hfresh
    have houtcome : outcomeWrite t (outcomeWord (requestWord 1 tag arg) outDone 0)
        = { addr := settingAddr s 0xF04, data := outcomeWord (requestWord 1 tag arg) outDone 0, kind := .coalescing } := by
      unfold outcomeWrite settingAddr
      rw [hstrap]
    have hfirst := firstQueue_start heff
    rw [tripRecords_entries] at hfirst
    intro announced outcome tripped records change
    refine ⟨fun hzero => ?_, fun hnone => (hoff hnone).2⟩
    obtain ⟨Q, hQ, hnil⟩ : ∃ Q, StartQueue s (outcomeWord (requestWord 1 tag arg) outDone 0) t Q
        ∧ ((∀ i : Fin 4, s.copies.cells[i].enabled = false) → Q = []) := by
      by_cases hnone : ∀ i : Fin 4, s.copies.cells[i].enabled = false
      · exact ⟨[], (hoff hnone).1, fun _ => rfl⟩
      · obtain ⟨Q, hQ⟩ := hwaits.resolve_left fun h => h hzero
        exact ⟨Q, hQ, fun h => absurd h hnone⟩
    have hends := hQ.queue
    rw [hfirst, houtcome] at hends
    refine ⟨Q, hends, fun i hi => ?_, fun e he => ?_, hnil, hQ.followUp⟩
    · have hmust := hQ.must i hi
      simp only [tripOffsets, List.mem_cons, List.not_mem_nil, or_false, forall_eq_or_imp, forall_eq] at hmust
      obtain ⟨hline, hcell, hlevel⟩ := hmust
      exact ⟨hcell, hline, hlevel⟩
    · refine (hQ.later e he).imp_right fun ⟨hplain, o, hlow, hhigh, haddr⟩ => ⟨hplain, o, by omega, hhigh, haddr⟩

end Sys2Proof.Machine
end
